-- ==== Sys2Proof/Word.lean ====
section
/-!
DEFINITION. Sys2Proof/Word.lean: the plain arithmetic every other file rests on. Register and object contents are natural
numbers below two to their width (raw bits, most significant first when laid out as bytes: 00 R9, 12 R309); signed contents
are read through `sext`. Phases, means and frequencies, which the manual states as exact quantities, are rationals.
-/

namespace Sys2Proof

/-- A byte of the NV array (11 R283). -/
abbrev Byte := BitVec 8

/-- Bits [hi:lo] of `n` (00 "Notation": ranges are written [msb:lsb]). -/
def field (hi lo n : Nat) : Nat := n / 2 ^ lo % 2 ^ (hi + 1 - lo)

/-- `n` with bits [hi:lo] replaced by the low bits of `v`. -/
def setField (hi lo n v : Nat) : Nat :=
  n / 2 ^ (hi + 1) * 2 ^ (hi + 1) + v % 2 ^ (hi + 1 - lo) * 2 ^ lo + n % 2 ^ lo

/-- Bit `i` of `n`. -/
def bit (i n : Nat) : Bool := n / 2 ^ i % 2 == 1

/-- `n` with bit `i` set to `b`. -/
def setBit (i n : Nat) (b : Bool) : Nat := setField i i n b.toNat

/-- The two's-complement reading of the low `w` bits. -/
def sext (w n : Nat) : Int :=
  let m := n % 2 ^ w
  if m < 2 ^ (w - 1) then (m : Int) else (m : Int) - 2 ^ w

/-- The low `w` bits of an integer in two's complement. -/
def wrapInt (w : Nat) (i : Int) : Nat := (i % (2 ^ w : Int)).toNat

/-- Ceiling of a / b; a divisor of 0 answers 0. -/
def ceilDiv (a b : Nat) : Nat := if b = 0 then 0 else (a + b - 1) / b

/-- Nearest integer to a / b, a half rounding up. -/
def roundDiv (a b : Nat) : Nat := if b = 0 then 0 else (2 * a + b) / (2 * b)

/-- A count that saturates at the top of `w` bits. -/
def satAdd (w a b : Nat) : Nat := min (a + b) (2 ^ w - 1)

/-- The `n` bytes of `v`, most significant first (00 R9). -/
def toBytes : Nat → Nat → List Nat
  | 0, _ => []
  | n + 1, v => v / 256 ^ n % 256 :: toBytes n v

/-- The number a byte string spells, most significant byte first. -/
def ofBytes (bs : List Nat) : Nat := bs.foldl (fun a b => a * 256 + b % 256) 0

/-- The smallest integer whose square is at least `n`, found by halving `[lo, hi]`. -/
def ceilSqrtIn (n : Nat) : Nat → Nat → Nat → Nat
  | 0, _, hi => hi
  | fuel + 1, lo, hi =>
    if hi ≤ lo then hi
    else
      let m := (lo + hi) / 2
      if n ≤ m * m then ceilSqrtIn n fuel lo m else ceilSqrtIn n fuel (m + 1) hi

/-- The smallest integer whose square is at least `n`. -/
def ceilSqrt (n : Nat) : Nat :=
  let top := 2 ^ (n.log2 / 2 + 1)
  ceilSqrtIn n (n.log2 / 2 + 3) 0 top

/-- The least whole number not below a rational that is not negative. -/
def ratCeil (q : Rat) : Nat := q.ceil.toNat

/-- The magnitude of a rational. -/
def ratAbs (q : Rat) : Rat := if q < 0 then -q else q

/-- Position `i` of a list, with a value for positions past its end. -/
def nth {α : Type} (l : List α) (i : Nat) (d : α) : α := (l[i]?).getD d

/-- The list with position `i` replaced; unchanged past the end. -/
def setNth {α : Type} : List α → Nat → α → List α
  | [], _, _ => []
  | _ :: t, 0, a => a :: t
  | h :: t, i + 1, a => h :: setNth t i a

/-- The list with position `i` changed by a function. -/
def modNth {α : Type} : List α → Nat → (α → α) → List α
  | [], _, _ => []
  | h :: t, 0, f => f h :: t
  | h :: t, i + 1, f => h :: modNth t i f

/-- Bit `i` of a bit string given as a number, listed for `i` below `n`. -/
def bitsSet (n v : Nat) : List Nat := (List.range n).filter (fun i => bit i v)

end Sys2Proof
end

