-- ==== Sys2Proof/Syntax.lean ====
section
/-!
DEFINITION. Sys2Proof/Syntax.lean: the commands the device takes, one constructor per row of the command table, with the
data types their operands use. A command that stands for a TPP request carries the requester's envelope (12 R317, R321).
-/

namespace Sys2Proof

/-- The power domains (01 R17); the SYSPLL island is the part of SYNTH of 01 R18, and `synth` its synthesis part. -/
inductive Dom where
  | mast | sense | loop | enga | engb | fabric | port | synth | syspll
  deriving DecidableEq, Repr, Inhabited

/-- The kind of an access to the internal address space (13 0x9010:03). -/
inductive AccessKind where
  | read | write | execute
  deriving DecidableEq, Repr, Inhabited

/-- The access an error arises from, as fault capture records it (13 R346). -/
structure Access where
  /-- Master identifier (01 R38). -/
  master : Nat
  /-- ACCESS code of 0x9010:03. -/
  code : Nat
  /-- ADDRESS of 0x9010:04. -/
  addr : Nat
  deriving DecidableEq, Repr, Inhabited

/-- The instructions of the JTAG port (15 R396). -/
inductive JtagInstr where
  | bypass | idcode | samplePreload | debugAccess | extest | intest | acTest | factoryTest
  deriving DecidableEq, Repr, Inhabited

/-- The lock monitors (17 R421). -/
inductive Monitor where
  | syspll | mclk | apll | group (g : Fin 8)
  deriving DecidableEq, Repr, Inhabited

/-- The counts of one conversion (03 R71): start-ring cycles Nc and stop-ring cycles Nv. -/
structure RingCounts where
  nc : Nat
  nv : Nat
  deriving DecidableEq, Repr, Inhabited

/-- Where a TPP request comes from (12 R321, R331): the host QSPI port, or a port with the request's source MAC address and its
VLAN tag control information, if tagged; for UDP also the source address, IPv6 or not, and port. -/
inductive Transport where
  | qspi
  | eth (p : Fin 8) (mac : Nat) (vlan : Option Nat)
  | udp (p : Fin 8) (mac : Nat) (vlan : Option Nat) (v6 : Bool) (addr : Nat) (port : Nat)
  deriving DecidableEq, Repr, Inhabited

/-- The authentication fields of a request with AUTH 1 (12 R326). -/
structure Auth where
  peer : Nat
  seq : Nat
  /-- The 16-byte TAG. -/
  tag : Nat
  deriving DecidableEq, Repr, Inhabited

/-- The part of a request that every opcode has (12 R317). -/
structure Envelope where
  src : Transport
  auth : Option Auth
  tid : Nat
  deriving DecidableEq, Repr, Inhabited

/-- The body of a TPP request (12 table "Opcodes"). -/
inductive Call where
  | read (idx sub : Nat)
  | write (idx sub ty : Nat) (data : List Nat)
  | multiRead (items : List (Nat × Nat))
  | segReadInit (idx sub : Nat)
  | segReadNext (token segment maxLen : Nat)
  | segWriteInit (idx sub ty total : Nat)
  | segWriteNext (token : Nat) (last : Bool) (segment : Nat) (data : List Nat)
  | abort (idx sub token code info : Nat)
  deriving DecidableEq, Repr, Inhabited



/-- The commands: one per row of the command table. -/
inductive Instr where
  /-- VDD_MAST rises through its power-on threshold and MAST starts from reset, restarting the time counter. (R407) -/
  | mastPowerUp
  /-- VDD_MAST falls below the reset threshold and MAST is reset. (R436) -/
  | mastReset (groupsDone : Nat)
  /-- The Steward starts and runs the start-up steps: patch, lifecycle, ring scan, parameter store and domain wakes. (R410) -/
  | stewardStart (straps : Fin 8) (testMode : Fin 4)
  /-- The power-on self-test ends and its result decides between continuing and RECOVERY. (R410) -/
  | postComplete (cells : Nat) (planFail : Bool) (engines : Nat) (lanes : Nat) (rails : Nat) (monitors : Nat)
  /-- A low level on RST_N resets and holds every switched domain. (R408) -/
  | rstNAssert
  /-- RST_N rises and start-up continues from the INIT step. (R408) -/
  | rstNRelease
  /-- A write of 0x0052_5354 to RESET acts as a 1 µs RST_N pulse. (R408) -/
  | softwareReset (q : Envelope) (value : Nat)
  /-- A fault chip reset resets every switched domain and restarts the Steward with cause fault. (R352) -/
  | chipReset
  /-- The LO is declared absent when presence has not been declared 100 ms after reset release. (R65) -/
  | loStartupTimeout
  /-- No LO edge for 1 µs: the LO is declared absent, candidates go ABSENT, the counter moves to RC and the model resets. (R65) -/
  | loAbsentDeclared
  /-- After 32 RC cycles without a gap, the LO is declared present and the counter returns to LO ticks. (R65) -/
  | loPresentDeclared
  /-- Each second the Steward measures the RC period against the LO. (R178) -/
  | rcPeriodMeasure (periodPs : Nat)
  /-- A SYSPLL lock-monitor window ends and the count is judged for loss or lock. (R31) -/
  | syspllLockWindowEnd (count : Nat)
  /-- The old engine clock stops at its falling edge, or after four LO cycles, and is held low. (R32) -/
  | engineClockStop
  /-- The new source starts at its falling edge; the move is counted and its pennant raised. (R32) -/
  | engineClockStart
  /-- SYSPLL has not locked within 100 µs of a restart; after three such restarts it counts as a lock failure. (R33) -/
  | syspllRestartTimeout
  /-- A master accesses the internal address space and the access is checked for decode, rights and a sleeping domain. (R38) -/
  | internalAccess (master : Fin 29) (kind : AccessKind) (addr : Nat) (data : Nat)
  /-- Four unplugged samples accept an unplug and the candidate enters ABSENT with PLUG_OUT. (R48) -/
  | plugUnplugAccepted (n : Fin 16)
  /-- PLUGn has read plugged for PLUG_DEBOUNCE and a plug-in is accepted, counted and posted. (R49) -/
  | plugInAccepted (n : Fin 16)
  /-- A write to candidate subindices :02 to :07 or USER_OFFSET sends an enabled candidate through ABSENT with RECONFIGURED. (R56) -/
  | candidateReconfigure (q : Envelope) (idx : Nat) (sub : Nat) (data : List Nat)
  /-- A pre-divided edge reaches a reference lane and is treated according to the converter state. (R79) The operands give an edge at
  the receiver of a REF, or of the recovered clock of a PREF: its instant on the lane time base in steps of 3.125 ps since lock, and
  its polarity; hold-off and pre-divider decide whether it reaches the lane (R44, R45). -/
  | referenceEdge (lane : Fin 24) (instant : Nat) (falling : Bool)
  /-- A conversion completes and the lane forms the sample's PHASE and COARSE. (R76) -/
  | conversionComplete (lane : Fin 24) (m : RingCounts)
  /-- A sample reaches the monitors and selection logic in LOOP and is judged for outliers and phase jumps. (R78) -/
  | sampleDelivery (lane : Fin 24)
  /-- A lane starts a predicted calibration pair 16 cycles before the predicted edge. (R75) -/
  | calPredictedPairStart (lane : Fin 24) (cycle : Nat)
  /-- CAL_REFRESH has passed since the last pair and a refresh pair starts. (R75) -/
  | calRefreshDue (lane : Fin 24) (cycle : Nat)
  /-- A calibration pair completes and is judged valid or rejected. (R74) Lanes 24 to 27 stand for the converters X and Y of AUX0 and
  of AUX1 (R82). -/
  | calPairComplete (lane : Fin 28) (m1 m2 : RingCounts) (cycle : Nat)
  /-- 1 ms after the last valid pair, the lane stops delivering and shows CAL_FAILED. (R74) -/
  | calFailTimeout (lane : Fin 28)
  /-- A measurement-clock lock window ends and its count declares loss or lock. (R69) -/
  | mclkLockWindowEnd (count : Nat)
  /-- No pre-divided edge for ACT_LIMIT / 8 periods fails the activity monitor. (R56) -/
  | activityTimeout (lane : Fin 24)
  /-- At each whole second, the frequency monitor fits y, runs the gross check and updates the LO offset. (R52) -/
  | frequencyEvaluation
  /-- The soak duration has elapsed and the candidate enters QUALIFIED if its conditions hold. (R58) -/
  | soakEnd (n : Fin 28)
  /-- A candidate DISQUALIFIED for ACTIVITY without signal for ABSENT_AFTER enters ABSENT with NO_SIGNAL. (R56) -/
  | noSignalTimeout (n : Fin 28)
  /-- A servo writes a sample to the PKT mailbox, where it is kept or discarded for uncertainty. (R47) -/
  | pktSample (k : Fin 4)
  /-- No kept PKT sample for PKT_TIMEOUT fails the activity monitor. (R56) -/
  | pktActivityTimeout (k : Fin 4)
  /-- A binary time message is received and checked for length, CRC, type and window. (R455) -/
  | todBinaryMessage (bytes : List Nat)
  /-- An NMEA RMC or ZDA sentence is received and checked. (R62) -/
  | todNmeaSentence (chars : List Nat)
  /-- An edge of PPS_REF is judged: its seconds, rank and accuracy are decided and TOD_VALID is updated. (R456) -/
  | todEdgeJudgement
  /-- TOD_VALID has been 0 for TOD_TIMEOUT while TOD_REQUIRED is 1, so the time-of-day monitor fails. (R63) -/
  | todTimeout
  /-- TX_DELAY after a TX_TTU pulse, the device sends one binary message describing it. (R64) -/
  | todTransmit
  /-- An edge from an auxiliary source is measured by converter X or Y, or captured coarse-only. (R82) -/
  | auxEdge (a : Fin 2) (src : Nat) (falling : Bool) (cycle : Nat) (m : RingCounts)
  /-- An auxiliary converter's pair is 1,280 cycles old and it calibrates. (R82) -/
  | auxCalibrationDue (a : Fin 2) (y : Bool)
  /-- A write of ARM 0x01 starts a single time-interval measurement. (R84) -/
  | tiaArmSingle (q : Envelope) (a : Fin 2)
  /-- A write of ARM 0x02 starts continuous time-interval measurement. (R84) -/
  | tiaArmContinuous (q : Envelope) (a : Fin 2)
  /-- A write of ARM 0x00 stops the time-interval unit. (R84) -/
  | tiaDisarm (q : Envelope) (a : Fin 2)
  /-- In unsigned mode, a stop held for 8 cycles without a matching start is judged earlier than the start. (R86) -/
  | stopHoldExpiry (a : Fin 2)
  /-- A pair is incomplete TIMEOUT after arming: TIMEOUT is set and counted. (R85) -/
  | tiaTimeout (a : Fin 2)
  /-- A read of RESULT clears VALID and OVERWRITTEN. (R87) -/
  | tiaResultRead (q : Envelope) (a : Fin 2)
  /-- An enabled TRIG edge is timestamped and appended to the capture FIFO, or lost. (R88) -/
  | trigEdgeCapture (pin : Fin 4) (falling : Bool) (cycle : Nat) (m : RingCounts)
  /-- A read of CAPTURE_HEAD removes and returns the oldest capture. (R88) -/
  | captureHeadRead (q : Envelope)
  /-- A write of 0 to LOST clears it and re-arms FIRST_LOST_SEQ. (R89) -/
  | captureLostClear (q : Envelope)
  /-- CROSS_DWELL ends and AUX1 moves to the next enabled lane. (R417) -/
  | crossCheckDwellEnd
  /-- At each loop update, a channel evaluates state transitions, selection, filtering and steering. (R96) -/
  | loopUpdate (ch : Fin 8)
  /-- A channel in ACQUIRE for ACQUIRE_TIMEOUT raises its pennant and counts. (R99) -/
  | acquireTimeout (ch : Fin 8)
  /-- A write of TRUMP sets or clears a forced selection. (R106) -/
  | trump (q : Envelope) (ch : Fin 8) (value : Nat)
  /-- A write of LOCKOUT makes a selection entry unselectable or selectable. (R107) -/
  | lockout (q : Envelope) (ch : Fin 8) (k : Fin 28) (set : Bool)
  /-- A write of a selection table entry's CANDIDATE is checked and may clear the trump. (R104) -/
  | selectionEntryWrite (q : Envelope) (ch : Fin 8) (k : Fin 28) (value : Nat)
  /-- A write of REALIGN moves BUILD_OUT_OFFSET into SLEW_REMAIN. (R111) -/
  | realign (q : Envelope) (ch : Fin 8)
  /-- At each whole second, every channel composes its bound B and publishes it for TC0. (R131) -/
  | tebEvaluation (dieTemp : Int) (mastTemp : Int)
  /-- A 16 s learning epoch ends and is admitted to the model fit or discarded. (R133) -/
  | learningEpochEnd (ch : Fin 8)
  /-- The last HOST_TEMP write becomes older than HOST_TEMP_MAX_AGE and host temperature turns invalid. (R134) -/
  | hostTempTimeout (ch : Fin 8)
  /-- A write of MODEL_RESET discards every epoch and coefficient. (R136) -/
  | modelReset (q : Envelope) (ch : Fin 8)
  /-- HOLDOVER_MAX or HOLDOVER_TEB_LIMIT is reached and the channel enters FREERUN. (R140) -/
  | holdoverExpiry (ch : Fin 8) (byLimit : Bool)
  /-- A write of APPLY checks the staged plan and makes it active, starting a hop if needed. (R147) -/
  | apply (q : Envelope) (g : Fin 8)
  /-- A core APLL lock window ends and its count declares lock or loss. (R149) -/
  | apllLockWindowEnd (count : Nat)
  /-- The 200 µs or 10 ms APLL retry interval ends and the APLL repeats its band search. (R150) -/
  | apllRetryTimer
  /-- The core APLL band search ends. (R148) -/
  | apllBandSearchEnd (found : Bool) (band : Nat)
  /-- A cached band has settled and the group enters LOCKING. (R155) -/
  | hopSettleEnd (g : Fin 8)
  /-- A step of the binary band search ends its 32 µs count. (R155) -/
  | searchStepEnd (g : Fin 8) (count : Nat)
  /-- An MDLL lock window ends and d is judged against the thresholds. (R154) -/
  | mdllLockWindowEnd (g : Fin 8) (d : Int)
  /-- A group is not LOCKED within t_L in LOCKING or UNLOCKED and makes a full search. (R153) -/
  | lockingLimitExpiry (g : Fin 8)
  /-- 10 ms after a failed full search, the search is retried. (R156) -/
  | bandSearchRetry (g : Fin 8)
  /-- A write of CLEAR erases every band-cache entry. (R157) -/
  | bandCacheClear (q : Envelope)
  /-- A squelched output reaches its falling edge, or its high-phase limit, and goes low, after a high phase of `high` ps. (R159, R164) -/
  | squelchLowReached (k : Fin 16) (high : Nat)
  /-- One half period after going low, a SQUELCH_HIZ driver goes to high impedance. (R159) -/
  | squelchHizTimer (k : Fin 16)
  /-- An output period, high and low for so many ps: shorter than 1/F, it closes the output's gate. (R162, R164) -/
  | fenceViolation (k : Fin 16) (high low : Nat)
  /-- After 8 periods without violation, the gate opens at a rising edge, the pin low for `low` ps by then. (R162) -/
  | fenceGateOpen (k : Fin 16) (low : Nat)
  /-- A write of SYNC synchronises the group's outputs, or is held until LOCKED. (R165) -/
  | sync (q : Envelope) (g : Fin 8)
  /-- An output in restart starts running at the first target instant after its minimum low time; the pin has been low for `low` ps. (R165) -/
  | outputRestart (k : Fin 16) (low : Nat)
  /-- A slipping output reaches its target and ADJUSTING clears. (R165) -/
  | slipComplete (k : Fin 16)
  /-- A write of PHASE_ADJ is checked and applied as a slip. (R168) -/
  | phaseAdjWrite (q : Envelope) (k : Fin 16) (ps : Int)
  /-- RAMP_CTRL START runs the named profile from the present r. (R170) -/
  | rampStart (q : Envelope) (g : Fin 8)
  /-- RAMP_CTRL STOP freezes r. (R170) -/
  | rampStop (q : Envelope) (g : Fin 8)
  /-- RAMP_CTRL ZERO ramps r to 0. (R170) -/
  | rampZero (q : Envelope) (g : Fin 8)
  /-- A ramp segment ends and the next begins, or the profile ends, loops or commits. (R170) -/
  | rampSegmentEnd (g : Fin 8)
  /-- A write of SSC_MODE starts a spread or requests its end. (R171) -/
  | sscModeWrite (q : Envelope) (g : Fin 8) (mode : Nat)
  /-- The spread ends at the triangle's next pass through r = 0. (R171) -/
  | sscEnd (g : Fin 8)
  /-- Each second, bank supplies are measured and mismatched banks go to high impedance. (R173) -/
  | bankVoltageCheck (mismatch : Nat)
  /-- A FORMAT write is checked and the output changes format through squelch and restart. (R174) -/
  | formatWrite (q : Envelope) (k : Fin 16) (format : Nat)
  /-- A write of OUT_SOURCE moves an output between its divider and a TTU. (R197) -/
  | outSourceWrite (q : Envelope) (k : Fin 16) (source : Nat)
  /-- A write of TIME_SET requests an absolute load of the time counter. (R180) -/
  | timeSet (q : Envelope) (value : Nat)
  /-- A write of TIME_STEP requests a step of Δ ns. (R180) -/
  | timeStep (q : Envelope) (delta : Int)
  /-- A write of TIME_SLEW adds s ps to TC0's SLEW_REMAIN. (R183) -/
  | timeSlew (q : Envelope) (ps : Int)
  /-- A pending step executes at one LO tick and everything that follows a step applies. (R182) -/
  | stepExecute
  /-- At the leap instant, UTC_OFFSET changes, the flag clears and an event is posted. (R187) -/
  | leapApply
  /-- A read of TS_QUEUE_HEAD removes and returns the oldest host stamp. (R191) -/
  | tsQueueHeadRead (q : Envelope) (p : Fin 8)
  /-- A write of 0 to LOST clears it and re-arms FIRST_LOST_ID. (R192) -/
  | tsQueueLostClear (q : Envelope) (p : Fin 8)
  /-- A write of HOST_RESERVE takes effect only while both partitions are empty. (R192) -/
  | hostReserveWrite (q : Envelope) (p : Fin 8) (value : Nat)
  /-- A write of MODE 1 arms a TTU as one-shot. (R195) -/
  | ttuArmOneShot (q : Envelope) (u : Fin 8)
  /-- A write of MODE 2 arms a TTU as periodic. (R195) -/
  | ttuArmPeriodic (q : Envelope) (u : Fin 8)
  /-- A write of MODE 0 disarms a TTU. (R195) -/
  | ttuDisarm (q : Envelope) (u : Fin 8)
  /-- A TTU reaches its grid instant and produces a leading edge, or misses it. (R196) -/
  | ttuLeadingEdge (u : Fin 8)
  /-- WIDTH after the leading edge, the trailing edge ends the pulse. (R196) -/
  | ttuTrailingEdge (u : Fin 8)
  /-- At its launch time, the LTU starts the frame so its timestamp point meets that time. (R199) -/
  | ltuLaunch (p : Fin 8) (err : Int)
  /-- A held launch passes its launch time plus LATE_TOLERANCE and is discarded or sent. (R200) -/
  | ltuLate (p : Fin 8)
  /-- The link conditions have held for 10 ms and LINK_UP becomes 1. (R204) -/
  | linkUp (p : Fin 8)
  /-- A link condition is lost: LINK_UP falls, the frame in receipt is discarded and queued frames are flushed. (R204) -/
  | linkDown (p : Fin 8) (rx : Bool) (pcs : Bool)
  /-- A write of RATE, SGMII, FEC or AN_ENABLE on an enabled port restarts the link; `rx`: a frame is being received. (R204) -/
  | portLinkRestartWrite (q : Envelope) (p : Fin 8) (sub : Nat) (value : Nat) (rx : Bool)
  /-- A frame is received, filtered, classified, checked, stored in cells and described. (R206) -/
  | frameReceive (p : Fin 8) (bytes : List Nat) (ps : Nat) (codeError : Bool) (lost : Bool) (fecOk : Nat) (fecBad : Nat)
  /-- The pause timer runs out and transmission may start again. (R224) -/
  | pauseTimerExpiry (p : Fin 8)
  /-- A priority's pause timer runs out. (R226) -/
  | pfcTimerExpiry (p : Fin 8) (prio : Fin 8)
  /-- Half of PAUSE_TIME has passed with a ring still below XON_CREDIT and PAUSE is sent again. (R227) -/
  | pauseRefresh (p : Fin 8)
  /-- A generated PAUSE or PFC frame is sent at the first frame boundary. (R228) -/
  | flowControlFrameSend (p : Fin 8)
  /-- A read of HOST_FRAME_RX returns and releases the oldest HOST frame with its descriptor. (R215) -/
  | hostFrameRx (q : Envelope) (p : Fin 8)
  /-- A write of HOST_FRAME_TX queues a host frame with its descriptor. (R216) -/
  | hostFrameTx (q : Envelope) (p : Fin 8) (bytes : List Nat)
  /-- A queued frame is started and completed by the MAC with checks, one-step insertion and its status. (R218) -/
  | frameTransmit (p : Fin 8) (ring : Fin 3) (ps : Nat) (cut : Option Nat)
  /-- With the rings empty for LPI_IDLE_DELAY and no trick near, the transmitter enters low-power idle. (R229) -/
  | txLpiEntry (p : Fin 8)
  /-- The transmitter leaves low-power idle for a queued frame or TX_WAKE before a trick. (R229) -/
  | txLpiExit (p : Fin 8)
  /-- The partner signals low-power idle and PREFn enters ABSENT with LINK_IDLE. (R230) -/
  | rxLpiEntry (p : Fin 8)
  /-- The partner signals wake. (R230) -/
  | rxLpiExit (p : Fin 8)
  /-- At the guard start, rings close for the closing hand, engine stamps are discarded and the drain begins. (R245) -/
  | dealClose
  /-- At the drain limit, residue is discarded, then write-back, clear, commit, prepare and prefetch run. (R245) -/
  | dealDiscard
  /-- At the deal instant, HAND_NUMBER advances. (R246) -/
  | dealInstant
  /-- A write of TRICKS stores trick entries into the idle bank. (R236) -/
  | trickWrite (q : Envelope) (p : Fin 8) (data : List Nat)
  /-- A write of IDLE_COUNT sets the idle bank's entry count. (R236) -/
  | idleCountWrite (q : Envelope) (p : Fin 8) (count : Nat)
  /-- A write of SWAP_AT validates the idle bank and makes a swap pending, or cancels one. (R238) -/
  | swapAtWrite (q : Envelope) (p : Fin 8) (hand : Nat)
  /-- COMPOSE_LEAD before a trick, the serving engine composes its due frames into the SCHED ring. (R239) -/
  | trickCompose (p : Fin 8) (late : Bool) (miss : Bool)
  /-- At a trick's start, the MAC starts its first frame or hands it to the LTU. (R239) -/
  | trickStart (p : Fin 8) (ps : Nat)
  /-- At a trick's end, unstarted frames are discarded and the trick's outcome is counted. (R241) -/
  | trickEnd (p : Fin 8)
  /-- A domain with no pending work and a distant next need dozes. (R251) -/
  | dozeEntry (d : Dom)
  /-- At its next need less wake time and margin, a dozing domain asks for its wake. (R251) -/
  | dozeWakeRequest (d : Dom)
  /-- A write of HOST fills the session window buffer. (R258) -/
  | sessionHostWrite (q : Envelope) (data : List Nat)
  /-- A write of COMMIT checks the window buffer and queues a commit. (R257) -/
  | sessionCommit (q : Envelope)
  /-- A Delay_Req or Pdelay_Req is accepted and copied into the session's pending fields. (R264) -/
  | ptpDelayReqReceive (p : Fin 8)
  /-- A unicast grant request is granted, denied or refused, possibly creating a session from the pool. (R270) -/
  | requestUnicastTransmission (p : Fin 8)
  /-- A peer's cancel ends the named grants at once and is acknowledged. (R272) -/
  | cancelUnicastTransmission (p : Fin 8)
  /-- Every grant of a session has expired and it becomes EXPIRED, releasing MODE 3 entries. (R272) -/
  | grantExpiry (index : Nat)
  /-- A servo accepts an Announce and runs master selection. (R277) -/
  | ptpAnnounceReceive (k : Fin 4)
  /-- A servo receives a Sync and records t1 and t2. (R278) -/
  | ptpSyncReceive (k : Fin 4)
  /-- A servo receives a Follow_Up carrying t1. (R278) -/
  | ptpFollowUpReceive (k : Fin 4)
  /-- A Delay_Resp completes an exchange and the servo computes the offset. (R278) -/
  | ptpDelayRespReceive (k : Fin 4)
  /-- No Announce from the selected master for announceReceiptTimeout deselects it. (R277) -/
  | announceReceiptTimeout (k : Fin 4)
  /-- At half the granted duration, the servo renews its grants. (R277) -/
  | servoGrantRenewal (k : Fin 4)
  /-- A PTP frame on a TC port is forwarded out of the other TC ports with residence time. (R279) -/
  | tcForward (p : Fin 8)
  /-- A held two-step correction is dropped after one hand without its Follow_Up. (R279) -/
  | tcFollowUpTimeout (p : Fin 8)
  /-- A multicast session answers Delay_Req by multicast Delay_Resp as best-effort work. (R266) -/
  | multicastDelayResp (p : Fin 8)
  /-- An ESMC PDU is checked and its quality level written to PREFp. (R280) -/
  | esmcPduReceive (p : Fin 8)
  /-- No usable PDU for 5 s writes QL-FAILED. (R280) -/
  | esmcQlTimeout (p : Fin 8)
  /-- Each second, an enabled port sends an ESMC information PDU. (R281) -/
  | esmcInformationPdu (p : Fin 8)
  /-- A change of the quality level sent triggers an event PDU within one hand. (R281) -/
  | esmcEventPdu (p : Fin 8)
  /-- A write of SA ENTRY stores a security association and clears KEY_ERASED. (R275) -/
  | saEntryWrite (q : Envelope) (data : List Nat)
  /-- An NV program ends with its verify, retrying or failing on mismatch. (R284) -/
  | nvProgramComplete (verified : Bool)
  /-- A page is read at margin and rewritten if any bit fails. (R286) -/
  | nvRefreshRead (page : Fin 4096) (weak : Bool)
  /-- The hold-off and interval have passed and a parameter-store record write starts. (R291) -/
  | storeWriteStart
  /-- A write of SAVE starts a store write at once. (R291) -/
  | save (q : Envelope)
  /-- PWR_FAIL_N falls or VDD_MAST drops below its flush threshold: the flush and the entry to PF_STATE begin. (R292) -/
  | flushTrigger (monitor : Bool)
  /-- PWR_FAIL_N is released without VDD_MAST falling and POWER_RESTORED is carded. (R292) -/
  | pwrFailRelease
  /-- Supplies have been good for 10 ms and PF_ACTIVE clears, resuming the target state. (R370) -/
  | pfClear
  /-- 20 ms into the next minute, or at a step, the minute card is queued. (R298) -/
  | minuteClose
  /-- The Steward writes queued cards into the next ring slot as body and commit programs. (R294) -/
  | cardWrite
  /-- The SGN returns the signature and the three seal cards are written. (R302) -/
  | sealSignatureComplete
  /-- The SGN produces no signature within 20 ms and the seal is written unsigned. (R303) -/
  | signTimeout
  /-- A write of ACK_SEQ acknowledges cards and queues an ACK card. (R304) -/
  | ackSeqWrite (q : Envelope) (seq : Nat)
  /-- A read of CARDS returns up to COUNT cards from FROM_SEQ. (R306) -/
  | cardRead (q : Envelope)
  /-- A TPP READ returns one subindex. (R318) -/
  | read (q : Envelope) (idx : Nat) (sub : Nat)
  /-- A TPP WRITE to a subindex without its own behaviour is checked and applied. (R315) -/
  | write (q : Envelope) (idx : Nat) (sub : Nat) (ty : Nat) (data : List Nat)
  /-- A TPP MULTI_READ returns up to 32 items in one pass. (R318) -/
  | multiRead (q : Envelope) (items : List (Nat × Nat))
  /-- A segmented read opens with a snapshot and a token. (R319) -/
  | segReadInit (q : Envelope) (idx : Nat) (sub : Nat)
  /-- A segment of an open segmented read is returned. (R319) -/
  | segReadNext (q : Envelope) (token : Nat) (segment : Nat) (maxLen : Nat)
  /-- A segmented write opens with its total length. (R319) -/
  | segWriteInit (q : Envelope) (idx : Nat) (sub : Nat) (ty : Nat) (total : Nat)
  /-- A segment of a segmented write is stored, and at LAST the write is checked and applied. (R319) -/
  | segWriteNext (q : Envelope) (token : Nat) (last : Bool) (segment : Nat) (data : List Nat)
  /-- A requester's ABORT closes an open segmented transfer. (R322) -/
  | abort (q : Envelope) (idx : Nat) (sub : Nat) (token : Nat) (code : Nat) (info : Nat)
  /-- A transfer with no request for 2 s is closed. (R319) -/
  | transferTimeout (token : Nat)
  /-- A write of 0 to :00 of a counter object clears all its counters. (R308) -/
  | countersClear (q : Envelope) (idx : Nat)
  /-- A QSPI WRITE_PDU places one request in the inbox, or is discarded. (R332) -/
  | writePdu (len : Nat) (bytes : List Nat) (midByte : Bool)
  /-- A QSPI READ_PDU returns the oldest response from the outbox. (R332) -/
  | readPdu (complete : Bool)
  /-- A QSPI READ_STATUS returns the status byte. (R332) -/
  | readStatus
  /-- A QSPI CLEAR_STATUS clears OVERRUN and FRAMING_ERROR by mask. (R332) -/
  | clearStatus (bytes : List Nat) (midByte : Bool)
  /-- A write of a peer subindex is recorded in the NV security region before it takes effect. (R325) -/
  | peerEntryWrite (q : Envelope) (n : Fin 32) (sub : Nat) (value : Nat)
  /-- A write of a peer KEY resets its sequence counters and floors. (R328) -/
  | peerKeyWrite (q : Envelope) (n : Fin 32) (key : List Nat)
  /-- A sequence counter crosses a multiple of 65,536 and its floor is recorded. (R328) -/
  | sequenceFloorRecord (n : Fin 32) (tx : Bool)
  /-- A dual-rail pair reads equal rails on two consecutive cycles and F000 asserts. (R339) -/
  | railPairBroken (src : Fin 128) (high : Bool)
  /-- A fault source asserts; its pennant, capture, escalation and reaction are applied. (R341) -/
  | faultAssertion (src : Fin 128) (inst : Nat) (detail : Nat) (access : Option Access)
  /-- The Steward takes a waiting trap in class and source order. (R345) -/
  | faultTrap
  /-- ERR_N's minimum low time ends and it returns high or stays held. (R349) -/
  | errWidthExpiry
  /-- A write of ERR_RELEASE releases a held ERR_N. (R349) -/
  | errRelease (q : Envelope)
  /-- A write of RELEASE clears the fault capture and arms it. (R348) -/
  | captureRelease (q : Envelope)
  /-- A write of CLEAR lowers one pennant if its source is not live. (R353) -/
  | pennantClear (q : Envelope) (src : Fin 128)
  /-- A write of CLEAR_ALL lowers every pennant whose source is not live. (R353) -/
  | clearAll (q : Envelope)
  /-- A write of FORCE drives a source asserted or breaks its rails. (R354) -/
  | force (q : Envelope) (src : Fin 128) (value : Nat)
  /-- A monitored supply becomes good or bad and waiting wakes proceed or wait. (R357) -/
  | supplyGoodChange (rail : Fin 5) (good : Bool)
  /-- VDD_CORE leaves its range with a domain awake and every switched domain is isolated. (R358) -/
  | coreSupplyLoss
  /-- A write of POWER_TARGET requests a power state. (R366) -/
  | powerTargetWrite (q : Envelope) (target : Nat)
  /-- At the end of the next deal's processing, domains stop in order for a lower state. (R367) -/
  | powerDownTransition
  /-- The sequencer admits a queued wake within the inrush budget. (R374) -/
  | wakeAdmit
  /-- A waking domain's clock starts, its units are charged and it becomes usable. (R373) -/
  | domainWakeComplete (d : Dom)
  /-- A wake has not completed by twice its maximum time and is abandoned. (R376) -/
  | wakeTimeout (d : Dom)
  /-- A lifecycle request from FACTORY to OPEN generates the identity key. (R380) -/
  | lifecycleToOpen (q : Envelope)
  /-- A lifecycle request from OPEN to SEALED locks the customer keys. (R379) -/
  | lifecycleToSealed (q : Envelope)
  /-- A lifecycle request to RETIRED erases the keys. (R380) -/
  | lifecycleToRetired (q : Envelope)
  /-- A write of ROTATE generates a new identity key. (R383) -/
  | rotate (q : Envelope)
  /-- A write of FW_KEY stores the customer firmware key. (R382) -/
  | fwKeyWrite (q : Envelope) (key : List Nat)
  /-- A write of DEBUG_KEY stores the customer debug key. (R382) -/
  | debugKeyWrite (q : Envelope) (key : List Nat)
  /-- A firmware image or patch check ends with its result. (R387) -/
  | imageCheckComplete (patch : Bool) (image : List Nat)
  /-- An engine image is fetched and checked, and the engines are started. (R414) -/
  | firmwareLoadComplete (loadUs : Nat)
  /-- A load passes its firmware-load limit and fails. (R414) -/
  | firmwareLoadTimeout (loadUs : Nat)
  /-- 32 samples at the open level accept an opening, which erases keys when TAMPER_USE is 1. (R390) -/
  | tamperOpening
  /-- A read of CHALLENGE returns 32 fresh random bytes. (R392) -/
  | challengeRead (q : Envelope)
  /-- 60 s after it was issued, an unused challenge expires. (R392) -/
  | challengeExpiry
  /-- 10 s after a failed response, CHALLENGE reads are allowed again. (R392) -/
  | challengeLockoutEnd
  /-- DEBUG_REQUEST 0x01 requests an OBSERVE session. (R392) -/
  | debugObserveRequest (q : Envelope)
  /-- DEBUG_REQUEST 0x02 requests a FULL session. (R392) -/
  | debugFullRequest (q : Envelope)
  /-- DEBUG_REQUEST 0x00 ends the debug session. (R394) -/
  | debugEndRequest (q : Envelope)
  /-- A write of RESPONSE is verified and grants FULL, or fails. (R392) -/
  | response (q : Envelope) (sig : List Nat)
  /-- DEBUG_TIMEOUT passes without debug access and the session ends. (R394) -/
  | debugTimeout
  /-- A JTAG debug access reaches memory as master 0x1B. (R395) -/
  | debugAccess (kind : AccessKind) (addr : Nat) (data : Nat)
  /-- A JTAG instruction is selected, or BYPASS where it is not offered. (R396) -/
  | jtagInstruction (ir : JtagInstr)
  /-- A write of REKEY_RESPONSE is verified and opens a re-key grant. (R391) -/
  | rekeyResponse (q : Envelope) (sig : List Nat)
  /-- 600 s after it opened, the re-key grant ends. (R391) -/
  | rekeyGrantExpiry
  /-- A key reads pressed for KEY_DEBOUNCE samples and the press is accepted. (R399) -/
  | keyPressAccepted (k : Fin 8)
  /-- A key release is accepted and a short press acts. (R400) -/
  | keyReleaseAccepted (k : Fin 8)
  /-- A press held for LONG_PRESS acts as a long press. (R400) -/
  | longPress (k : Fin 8)
  /-- The 3 s lamp test ends. (R404) -/
  | lampTestEnd
  /-- SELECT_TIMEOUT after the last key action, the cursor lapses. (R401) -/
  | cursorLapse
  /-- A spare test pass ends, failing the engine or returning it to service. (R417) -/
  | spareTestComplete (passed : Bool)
  /-- 60 s after a failed return test, the engine retries. (R416) -/
  | engineRetryTimer (e : Fin 16)
  /-- A write of RETRY restarts the return of a FAILED engine. (R416) -/
  | retry (q : Envelope) (mask : Nat)
  /-- Free packet-buffer cells are march-tested, and failing cells are withdrawn. (R419) -/
  | marchCellTest (cell : Fin 12288) (failed : Bool)
  /-- A rail pair is inverted for two LO cycles and the received pattern is compared. (R420) -/
  | railPairToggle (src : Fin 128) (mismatch : Bool)
  /-- Each LOCKCHECK_PERIOD, one window of each lock monitor is judged with an offset comparator. (R421) -/
  | lockMonitorCheck (m : Monitor) (found : Bool) (agree : Bool)
  /-- A SerDes margin scan completes and MARGIN_H and MARGIN_V are updated. (R422) -/
  | marginScanComplete (p : Fin 8) (marginH : Nat) (marginV : Nat)
  /-- The PCS gains block lock or code-group synchronisation, with auto-negotiation complete where enabled, and the 10 ms LINK_UP qualification begins. (R204) -/
  | pcsLockAcquired (p : Fin 8) (duplex : Bool) (pause : Bool) (asmDir : Bool) (gigabit : Bool)
  /-- A Pdelay_Resp, with its follow-up when two-step, completes a peer-delay measurement and updates the port's peer delay. (R278) -/
  | pdelayRespReceive (p : Fin 8)
  /-- A servo receives a grant or a denial for its unicast request and moves between negotiating and running, counting GRANT_DENIALS. (R277) -/
  | servoGrantResponse (k : Fin 4)
  /-- A servo with no SERVO trick in the active plan sends Delay_Req as best-effort work at its LOG_DELAY interval. (R278) -/
  | servoDelayReq (k : Fin 4)
  /-- TAMPER has read closed for 32 samples, so OPENED clears and the next opening is accepted as new. (R390) -/
  | tamperClosing
  /-- A broken rail pair reads valid on two consecutive cycles, so BROKEN clears and the live bit follows the pair again. (R339) -/
  | railPairRestored (src : Fin 128)
  /-- The live bit of a condition source returns to 0, for example F005 when the die falls below 120 °C. (R340) -/
  | faultDeassertion (src : Fin 128)
  /-- Step 8 of a deal ends after the deal instant, and step 9 takes effect then as a deal overrun. (R247) -/
  | prefetchEnd
  /-- A write of a group's ENABLE starts a hop from OFF, or sends the group to OFF through the squelch sequence. (R153) -/
  | groupEnableWrite (q : Envelope) (g : Fin 8) (on : Bool)
  /-- A write of a port's ENABLE starts or stops its link, wakes or lets PORT sleep, and sends PREFn through ABSENT; `rx`: a frame is being received. (R204) -/
  | portEnableWrite (q : Envelope) (p : Fin 8) (on : Bool) (rx : Bool)
  deriving DecidableEq, Repr

end Sys2Proof
end

