-- ==== Sys2Proof/Decode.lean ====
section
/-!
DEFINITION. Sys2Proof/Decode.lean: the command a word spells by the command table's bits. The table gives no row any bits:
the device is commanded by events and by TPP requests (12 R317), whose byte layout is in Sys2Proof/Machine/Codec.lean.
-/

namespace Sys2Proof

/-- The command a word spells: none, since no row of the table gives its bits. -/
def decodeTableWord (_nbits _w : Nat) : Option Instr := none

end Sys2Proof
end

