-- ==== Sys2Proof/Machine/State.lean ====
section
/-!
DEFINITION. Sys2Proof/Machine/State.lean: everything the specification gives the device, as plain data. Dictionary objects
are held in one store (`Chip.objs`); state the chapters name beside the objects is held in one record per unit.
-/

namespace Sys2Proof.Machine

/-- Why a step stops for good. No command of this device does: its faults are its own state (13 R338). Safe. -/
inductive Fault where
  /-- Raised by nothing; kept so that the type has a value. Safe: no claim can rest on reaching it. -/
  | none
  deriving DecidableEq, Repr

/-- Why a command has no meaning. -/
inductive Refusal where
  /-- Raised by `exec` for a command whose meaning is not written yet, named by its mnemonic. Safe. -/
  | notModelled (mnemonic : String)
  deriving DecidableEq, Repr

/-- The three grades (00 R1). -/
inductive Grade where
  | f | s | e
  deriving DecidableEq, Repr, Inhabited

/-- Where a domain stands (01 R17, 14 R363, R372). `waking` keeps whether it wakes with its content lost. -/
inductive DomState where
  | asleep | waking (lost : Bool) | awake | gated | retained
  deriving DecidableEq, Repr, Inhabited

/-- The LO presence detector (02 R65). -/
inductive LoState where
  | undeclared | present | absent
  deriving DecidableEq, Repr, Inhabited

/-- A pending step of the time counter (07 R181): a sum of Δ in ns, or an absolute load (seconds, ns, fraction). -/
structure StepReq where
  delta : Int
  load : Option (Nat × Nat × Nat)
  /-- Requester code of card 0x30 (11 R299). -/
  who : Nat
  /-- The part of Δ that TC0 asked for, by which it reduces its shadows (04 R115). -/
  tc0 : Int
  /-- The seconds alignment is among the requesters (07 R179). -/
  aligned : Bool
  deriving DecidableEq, Repr, Inhabited

/-- The time counter and what surrounds it (07 R176–R188). -/
structure TimeUnit where
  seconds : Nat
  nanoseconds : Nat
  /-- Unit 2^−32 ns. -/
  fraction : Nat
  /-- The increment TC0, or the Steward for it, last wrote, if any since MAST power-up (07 R177, R178). -/
  written : Option Nat
  /-- Time since MAST power-up in 2^−32 ns, never stepped: the model's clock for durations. -/
  mono : Nat
  pendingStep : Option StepReq
  /-- The last RC period measurements, newest first, at most 16 (07 R178). -/
  rcHistory : List Nat
  /-- The run of equal seconds differences: value and length (07 R185). -/
  run : Option (Int × Nat)
  lo : LoState
  /-- LO ticks counted since MAST power-up: the LO's own time, which no steering moves (06 R151, R152). -/
  ticks : Nat
  /-- MAST and on-die temperature in 0.01 °C as last sampled (05 R134, 13 R343). -/
  mastTemp : Int
  dieTemp : Int
  deriving DecidableEq, Repr, Inhabited

/-- A candidate's qualification state beside its objects (02). -/
structure Cand where
  /-- Consecutive good edges or kept samples toward the activity monitor (02 table "Monitors"). -/
  run : Nat
  /-- Delivered samples of the frequency fit, newest first: (extended instant, seconds tag) in 3.125 ps steps (02 R52). -/
  fit : List Int
  /-- mono at which the candidate left ABSENT (02 R52, R454). -/
  leftAt : Nat
  /-- Edges counted in the running whole second (02 R52 gross check). -/
  edges : Nat
  /-- The running whole second began after the candidate left ABSENT. -/
  whole : Bool
  /-- The longest duration, in s, that the running soak is known to have lasted (02 R58); none: not yet told. -/
  soakFor : Option Nat
  /-- Rank and raw code last received for the candidate: ESMC or Announce (02 R55). -/
  ql : Option (Nat × Nat)
  /-- The activity monitor passes: four good edges or samples since it last failed or a cause of ABSENT ended (02 R454). -/
  actOk : Bool
  /-- The gross check of the last judged second failed. -/
  gross : Bool
  outlierRun : Nat
  uncRun : Nat
  /-- Uncertainty and mono second of the last 64 delivered PKT samples, newest first (02 R47). -/
  uncs : List (Nat × Nat)
  /-- mono at the start of the running soak. -/
  soakStart : Nat
  /-- An unplug has been accepted since the last entry to QUALIFIED (02 R58). -/
  replug : Bool
  /-- PLUGn debounced (02 R48, R49). -/
  plugged : Bool
  /-- mono since which only the frequency monitor has failed without a break (02 R67). -/
  freqOnly : Option Nat
  /-- Samples delivered to the fit since the candidate left ABSENT, at most 4, and whether its first frequency window is complete
  (02 R52). -/
  samples : Nat
  windowed : Bool
  /-- Accepted edges that the pre-divider drops before it passes one (02 R45). -/
  skip : Nat
  /-- Instant of the last accepted edge at the receiver, in steps, from which the hold-off runs (02 R44). -/
  held : Option Nat
  /-- Extended coarse count of the last delivered sample, in cycles. -/
  lastExt : Option Nat
  /-- Slope of the fit and its standard error, in ppt, at the last evaluation (02 R52, 05 R139). -/
  y : Option Int
  yErr : Nat
  /-- Declared accuracy received with the samples: 05 R126 items 2 and 3, a TEB18 (none: not received). -/
  declared : Option Nat
  deriving DecidableEq, Repr, Inhabited

/-- The state of a reference lane's converter (03 R71, R73). -/
inductive Conv where
  | armed | busy | calibrating
  deriving DecidableEq, Repr, Inhabited

/-- A valid calibration pair: R1, R2 and the cycle it ended at (03 R74); `past`: it ended before the coarse counter last restarted,
which no cycle count of now can be compared with (03 R70). -/
structure Pair where
  r1 : Nat
  r2 : Nat
  ended : Nat
  past : Bool
  deriving DecidableEq, Repr, Inhabited

/-- A formed sample: coarse count and phase (03 R76). -/
structure Sample where
  coarse : Nat
  phase : Nat
  deriving DecidableEq, Repr, Inhabited

/-- A reference lane (03 R71–R80). -/
structure Lane where
  conv : Conv
  pair : Option Pair
  /-- Coarse index of the reference stop of the conversion in progress (03 R72). -/
  stop : Option Nat
  /-- A sample formed and not yet delivered. -/
  formed : Option Sample
  /-- Cycle of the last edge, and its distance from the one before (03 R75, R79). -/
  lastEdge : Option Nat
  interval : Option Nat
  /-- A refresh pair is due and waits for the converter (03 R75). -/
  calDue : Bool
  /-- The last instant formed, in steps before USER_OFFSET, and the cycle in which its edge arrived (03 R91, 02 R456). -/
  last : Option Int
  lastCycle : Option Nat
  deriving DecidableEq, Repr, Inhabited

/-- A converter of an auxiliary lane (03 R82). -/
structure AuxConv where
  calibrating : Bool
  /-- A pair is due and waits for the other converter's (03 R82). -/
  due : Bool
  pair : Option Pair
  deriving DecidableEq, Repr, Inhabited

/-- An auxiliary event: instant in exact steps, TS128, and whether coarse-only (03 R82, R83). -/
structure AuxEv where
  t : Rat
  ts : Nat
  coarse : Bool
  deriving DecidableEq, Repr, Inhabited

/-- An auxiliary lane (03 R82–R91). -/
structure Aux where
  x : AuxConv
  y : AuxConv
  start : Option AuxEv
  stop : Option AuxEv
  /-- A stop held for 8 cycles in unsigned mode (03 R86). -/
  held : List AuxEv
  deriving DecidableEq, Repr, Inhabited

/-- The measurement clock and the TDC bank (03). -/
structure TdcUnit where
  lanes : List Lane
  aux : List Aux
  /-- Consecutive lock windows within 1 count of the expected count (03 R69). -/
  goodWindows : Nat
  /-- Coarse counter: value, and its remainder in units of 1 / NOMINAL cycle (03 R70). -/
  coarse : Nat
  coarseRem : Nat
  /-- Captures waiting, oldest first (03 R88): TS128 values. -/
  fifo : List Nat
  lossBefore : Bool
  /-- Lane under cross-check, its consecutive mismatches, and the last sample of the lane in steps (03 R91). -/
  crossLane : Option Nat
  /-- The lane from which the search for the next one starts. -/
  crossFrom : Nat
  crossBad : Nat
  deriving DecidableEq, Repr, Inhabited

/-- A shadow of a selection entry's candidate (04 R108): unreduced phase differences in ps, newest first. -/
structure Shadow where
  diffs : List Rat
  deriving DecidableEq, Repr, Inhabited

/-- An epoch admitted to a channel's model (05 R133): observation in ppt, mono second, temperature, declared accuracy. -/
structure Epoch where
  y : Rat
  at_ : Nat
  temp : Rat
  acc : Nat
  deriving DecidableEq, Repr, Inhabited

/-- Variances of C1 and C2 and their covariance, in ppt² per °C², °C⁴ and °C³, as the last fit left them (05 R135). -/
structure TempCov where
  v1 : Rat
  v12 : Rat
  v2 : Rat
  deriving DecidableEq, Repr, Inhabited

/-- A timing channel beside its objects (04, 05). -/
structure Chan where
  /-- The channel runs as configured: set at step 8 of a start or by ENABLE, cleared with ENABLE (04 R96, 17 R410). -/
  on : Bool
  /-- Steering word in force, hybrid correction included, without slew feed-forward, in 2^−48 (04 R92). -/
  w : Int
  /-- Integral term of the loop filter, in 2^−48. -/
  integ : Int
  /-- Integrated steering on the lane time base, in ps: the channel phase (04 "The channel's phase"). -/
  acc : Rat
  /-- Slew feed-forward of the last update, as a fraction taken off the word (04 R110). -/
  feed : Rat
  /-- LO ticks from which the datapath has been suspended; its dividers run on at the held word (01 R20, 06 R152). -/
  heldAt : Option Nat
  steered : Bool
  /-- Phase errors delivered since the last update for the selected candidate (and for the phase selection), in ps. -/
  errs : List Rat
  /-- The same for the phase selection in hybrid operation (04 R119). -/
  errsP : List Rat
  /-- The offset against which hybrid operation measures the frequency selection, so that no phase is absorbed (04 R119). -/
  freqOff : Rat
  /-- The state left at the last entry to ACQUIRE (04 R115). -/
  acqFrom : Nat
  shadows : List Shadow
  /-- BUILD_OUT_OFFSET and SLEW_REMAIN in full precision, ps (04 R109, R110). -/
  buildOut : Rat
  slew : Rat
  /-- Frequency preset running toward this word (04 R114). -/
  preset : Option Int
  /-- Fraction of a step of the word that the preset's rate has not yet used, in 2^−48 (04 R114). -/
  presetFrac : Rat
  /-- Type-1 phase correction of hybrid operation, in 2^−48 (04 R119). -/
  hybrid : Int
  /-- mono at which the lock criteria last began to hold (04 R102). -/
  lockSince : Option Nat
  /-- mono at entry to ACQUIRE or at the last switch decision (04 R99). -/
  acqSince : Nat
  acqTimedOut : Bool
  clamped : Bool
  /-- Reason with which the phase selection left QUALIFIED, if it has, and that of the frequency selection of hybrid operation (04
  R113). -/
  lostReason : Option Nat
  lostFreq : Option Nat
  /-- SWITCH_MODE at the decision whose mode is applied at the end of the preset (04 R114, R123). -/
  decided : Option Nat
  /-- The last phase selection (02 R64). -/
  lastPick : Option Nat
  /-- Rounding remainder of the time-counter increment, 2^−32 ns × ticks (04 R121). -/
  carry : Rat
  trumpTaken : Bool
  /-- PHASE_ERROR of the last 64 updates that applied a sample, newest first (05 R125 S). -/
  perr : List Int
  /-- Updates that applied a sample of the present source since the decision, at most 64 (05 R128, R129). -/
  applied : Nat
  /-- Samples of the present source applied since the decision, at most 64 (05 R129, R137). -/
  sampled : Nat
  /-- S carried from before the decision (05 R128). -/
  sKept : Option Nat
  wTerm : Nat
  /-- D, M, S, P, W frozen at the last evaluation that applied a sample (05 R137). -/
  frozen : Option (Nat × Nat × Nat × Nat × Nat)
  /-- A sample has been applied since the last evaluation of the bound (05 R137). -/
  fresh : Bool
  /-- Growth in ps up to the last whole second, and the mono second it runs from; none while samples flow (05 R130). -/
  growth : Rat
  growSince : Option Nat
  /-- G is kept until 16 samples of the new source (05 R137). -/
  gKept : Bool
  /-- The bound before an exit was known (05 R137). -/
  unknownHeld : Bool
  /-- Samples still to be applied after a step before the bound is composed again (05 R141). -/
  stepLeft : Option Nat
  /-- LOCKED has been reached since MAST power-up (05 R132, code 0x01). -/
  everLocked : Bool
  lastApplied : Nat
  /-- Candidate, uncertainty and mono second of PKT samples applied in the last 16 s (05 R125). -/
  pktUnc : List (Nat × Nat × Nat)
  /-- Holdover start, mono (05 R140). -/
  holdStart : Nat
  epochs : List Epoch
  tempCov : TempCov
  /-- The running epoch: the conditions that failed in it (LEARN_PAUSE), sum of steering words, count, temperature sum,
  count (05 R133). -/
  epochBad : Nat
  epochW : Int
  epochN : Nat
  epochT : Int
  epochTN : Nat
  /-- Present holdover estimate in ppt × 1000 (05 R138). -/
  yHat : Option Rat
  excluded : List Nat
  hostTempValid : Bool
  hostTempAt : Nat
  /-- The last host temperature written since MAST power-up, in 0.01 °C (05 R135). -/
  lastTemp : Option Int
  deriving DecidableEq, Repr, Inhabited

/-- The minute in progress and published worst bound (05 R145, 11 R298). -/
structure Minute where
  locked : Nat
  acquire : Nat
  holdover : Nat
  freerun : Nat
  worst : Option Nat
  unknown : Bool
  worstPhase : Option Nat
  tMin : Option Int
  tMax : Option Int
  events : Nat
  switched : Bool
  limited : Nat
  suppressed : Nat
  deriving DecidableEq, Repr, Inhabited

/-- A card waiting to be written (11 R294): its type and 112-bit body. -/
structure Card where
  type : Nat
  body : Nat
  deriving DecidableEq, Repr, Inhabited

/-- What an NV program belongs to (11 R286, R289, R294, R291). A record is known by a tag: 0 is the parameter store. -/
inductive NvWhy where
  | cardBody | cardCommit | refresh
  | recBody (tag : Nat)
  | recCommit (tag : Nat)
  deriving DecidableEq, Repr, Inhabited

/-- An NV program: page, the loaded bytes by offset, attempt number and reason (11 R283–R285). -/
structure NvProg where
  page : Nat
  bytes : List (Nat × Nat)
  attempt : Nat
  why : NvWhy
  deriving DecidableEq, Repr, Inhabited

/-- The cards of one body and commit program (11 R294, R300): first slot and SEQ, the chain head before them, the cards and
their bytes 0–30. -/
structure Batch where
  slot : Nat
  seq : Nat
  head : Option (List Nat)
  cards : List Card
  images : List (List Nat)
  deriving DecidableEq, Repr, Inhabited

/-- The NV array, its controller and the Scorecard (11). -/
structure NvUnit where
  /-- Bytes of the array that differ from an unprogrammed byte, addresses strictly rising. -/
  cells : List Host.Cell
  prog : Option NvProg
  /-- Record programs that follow, in order. -/
  queue : List NvProg
  /-- Slot and SEQ of the parameter-store record being written (11 R291). -/
  storing : Option (Nat × Nat)
  /-- A stored value was written after the running store write took its record; SAVE was written meanwhile (11 R291). -/
  storedAfter : Bool
  saveAgain : Bool
  lastStoreStart : Option Nat
  lastStoredWrite : Nat
  /-- Pages rewritten by the refresh, and the mono of the latest rewrite; pages found weak that wait for their program (11 R286). -/
  rewritten : List (Nat × Nat)
  weak : List Nat
  cards : List Card
  batch : Option Batch
  /-- Next slot and SEQ of the ring, and bytes 0–30 of the chain head (11 R294–R297). -/
  slot : Nat
  seq : Nat
  head : Option (List Nat)
  /-- Valid cards of the ring, oldest first: slot, SEQ, TYPE (11 R295). -/
  ring : List (Nat × Nat × Nat)
  scanned : Bool
  /-- The ring page entered last, for which an OVERWRITE card, if any is due, has been composed (11 R305). -/
  entered : Option Nat
  /-- A seal waits for its signature (11 R301, R302). -/
  sealing : Bool
  sealCards : List Card
  flushing : Bool
  flushCards : List Card
  /-- The first program of the flush has been started. -/
  flushBegun : Bool
  /-- Tags of records committed, and of records that failed, whose effect is still to be taken. -/
  committed : List Nat
  failed : List Nat
  minute : Minute
  /-- A minute that has ended and waits for its card, and TC0's phase source at its end (11 R298). -/
  ended : Option (Minute × Nat)
  /-- Suppressed events for which F012 has been raised (11 R300). -/
  told : Nat
  deriving DecidableEq, Repr, Inhabited

/-- A fault source (13 R339–R341). -/
structure Src where
  live : Bool
  pennant : Bool
  broken : Bool
  brokenHigh : Bool
  /-- The escalation applied to the last error (13 R347, R350). -/
  applied : Nat
  trapWaits : Bool
  /-- What the pair last carried while valid (13 R339), and the condition at the source end (13 R340, R354). -/
  rail : Bool
  cond : Bool
  /-- INSTANCE and DETAIL of the condition, for a pair that carries it while broken (13 R339, R355). -/
  inst : Nat
  detail : Nat
  deriving DecidableEq, Repr, Inhabited

/-- The fault collector (13). -/
structure FaultUnit where
  srcs : List Src
  errLow : Bool
  /-- The minimum width of ERR_N is running; a release waits for its end (13 R349). -/
  errWidth : Bool
  errRelease : Bool
  /-- Trap being handled by the Steward (13 R345). -/
  trap : Option Nat
  /-- A chip reset takes effect at the next LO tick (13 R352). -/
  chipReset : Bool
  /-- Instant (mono) of the LO cycle in which the captured error arose (13 R346). -/
  capturedAt : Option Nat
  deriving DecidableEq, Repr, Inhabited

/-- A wake waiting for the sequencer (14 R375). -/
structure WakeReq where
  dom : Dom
  cls : Nat
  since : Nat
  need : Option Nat
  counted : Bool
  deriving DecidableEq, Repr, Inhabited

/-- Power and wake sequencing (14). -/
structure PowerUnit where
  doms : List DomState
  wakes : List WakeReq
  /-- Charges of clock starts: instant (mono) and units (14 R374). -/
  charges : List (Nat × Nat)
  /-- A transition down waits for its deal; a transition in progress goes to this state (14 R366). -/
  downTo : Option Nat
  /-- The deal that the transition waits for has been processed. -/
  downReady : Bool
  moving : Option Nat
  nextTarget : Option Nat
  /-- PWR_FAIL_N low, VDD_MAST below its flush threshold (11 R292, 14 R369). -/
  pfPin : Bool
  pfMonitor : Bool
  /-- The state held is one that a flush trigger entered and POWER_TARGET has not been taken since (14 R370). -/
  held : Bool
  /-- Clock-start instants (mono) that the sequencer holds for waking domains, by position of the domain (14 R374). -/
  planned : List (Nat × Nat)
  /-- Domains whose wake was abandoned and is not asked for again until a new request (14 R376). -/
  abandoned : List Dom
  /-- mono since which every enabled port has been in low-power idle both ways with a long enough RX_WAKE (08 R231). -/
  quietSince : Option Nat
  /-- What FABRIC kept at its last stop: the session table, the plans (14 R363, R364). -/
  keptTable : Bool
  keptPlans : Bool
  /-- Block resets of domains (13 R351) not yet woken again. -/
  resetDoms : List Dom
  deriving DecidableEq, Repr, Inhabited

/-- A requester (12 R321): transport (0 QSPI, 1 Ethernet, 2 UDP), port, source address, and PEER_ID when authenticated. -/
structure Asked where
  kind : Nat
  port : Nat
  addr : Nat
  peer : Option Nat
  deriving DecidableEq, Repr, Inhabited

/-- A response kept for a repeat of its request (12 R321): OPCODE, BODY, and mono at which it was composed. -/
structure Resp where
  who : Asked
  tid : Nat
  opcode : Nat
  body : List Nat
  since : Nat
  deriving DecidableEq, Repr, Inhabited

/-- An open segmented transfer (12 R319). -/
structure Transfer where
  token : Nat
  who : Asked
  write : Bool
  idx : Nat
  sub : Nat
  ty : Nat
  total : Nat
  /-- The snapshot of a read, or the bytes written so far. -/
  data : List Nat
  /-- Next segment number, and the range that the segment before it covered. -/
  next : Nat
  lastFrom : Nat
  lastLen : Nat
  /-- A read that removed what it returns (12 R320). -/
  destructive : Bool
  deriving DecidableEq, Repr, Inhabited

/-- A peer's replay window (12 R327): the accepted SEQ among the 64 up to the highest. -/
structure Peer where
  window : Nat
  rxFloor : Nat
  txFloor : Nat
  txEnded : Bool
  /-- A multiple of 65,536 has been crossed and its floor is not recorded yet (12 R328). -/
  rxDue : Bool
  txDue : Bool
  deriving DecidableEq, Repr, Inhabited

/-- A request that has passed the checks up to the role and waits for the wake of a domain (12 check 6 of R314, 01 R39): the role it
runs with, and whether it is plain over QSPI. -/
structure Stalled where
  ask : Envelope
  call : Call
  role : Nat
  plain : Bool
  deriving DecidableEq, Repr

/-- The TPP server (12). -/
structure TppUnit where
  inbox : List (List Nat)
  /-- Responses, as the bytes of their PDUs. -/
  outbox : List (List Nat)
  /-- A request in service whose response waits for room in the outbox (12 R333). -/
  waiting : Option (List Nat)
  stalled : List Stalled
  kept : List Resp
  transfers : List Transfer
  peers : List Peer
  overrun : Bool
  framing : Bool
  ready : Bool
  /-- Bytes the device drove in the last READ_PDU or READ_STATUS. -/
  hostOut : List Nat
  /-- Token of the last transfer opened. -/
  token : Nat
  /-- mono until which the verification of authenticated requests is taken (12 R330). -/
  busyTill : Nat
  deriving DecidableEq, Repr, Inhabited

/-- A record of the NV security region (15 R385). -/
inductive SecRec where
  | lifecycle | marker | identity | previous | fwKey | debugKey | floors
  /-- The journal for a group, and the group itself: 0 to 7 peers, 8 to 39 associations. -/
  | journal (g : Nat)
  | group (g : Nat)
  deriving DecidableEq, Repr, Inhabited

/-- What a change of the security region is for (15 R380, R383, R384, R390, R394, 12 R325, R328). -/
inductive JobWhy where
  | peer (n sub value : Nat)
  | sa (i : Nat) (entry : List Nat)
  | fwKey (key : Nat)
  | debugKey (key : Nat)
  | newIdentity (gen scalar : Nat) (rotated : Bool)
  | change (target : Nat)
  | retire
  | tamper
  | floors (n : Nat) (tx : Bool)
  | marker (payload : List Nat)
  deriving DecidableEq, Repr, Inhabited

/-- A change in progress or waiting: its records still to be written, and the request it answers, if any. -/
structure Job where
  why : JobWhy
  recs : List SecRec
  ask : Option (Envelope × Call)
  deriving DecidableEq, Repr, Inhabited

/-- Keys, lifecycle and debug beside the objects (15). Key RAM: a key of 0 is none. -/
structure SecUnit where
  /-- Private scalar of the identity key. -/
  identity : Option Nat
  fwKey : Nat
  debugKey : Nat
  peerKeys : List Nat
  saKeys : List Nat
  /-- Changes of the security region, the first in progress once `busy`. -/
  jobs : List Job
  busy : Bool
  /-- Requests whose records have ended, and whether they committed. -/
  answers : List (Envelope × Call × Bool)
  /-- A lifecycle change in progress: its target (15 R379). -/
  changing : Option Nat
  /-- The unused challenge (15 R392), and the 10 s after a failed response. -/
  challenge : Option Nat
  lockout : Bool
  /-- FULL was requested in SEALED and waits for its response (15 R392). -/
  fullAsked : Bool
  /-- The engines that FULL may halt, and those drained (15 R393). -/
  debugMask : Nat
  drained : Nat
  jtag : JtagInstr
  jtagOut : Nat
  /-- Random numbers drawn so far. -/
  draws : Nat
  deriving DecidableEq, Repr, Inhabited

/-- An access on the internal address space that waits for the wake of a domain (01 R39): its master, kind, address and data. -/
structure BusStall where
  master : Nat
  kind : AccessKind
  addr : Nat
  data : Nat
  deriving DecidableEq, Repr

/-- Start-up and engines beside the objects (01 R27–R36, 17). -/
structure StartUnit where
  /-- Steps of R410 done: 0 none, 1 up to the ring scan, 2 the parameter store, 3 the wakes asked for, 4 the self-test: channels,
  groups, outputs and ports run as configured. -/
  stage : Nat
  rstLow : Bool
  /-- VDD_MAST is in its operating range. -/
  powered : Bool
  /-- INPUT_MODE as the LO receiver took it at step 1 of the start (18 R428). -/
  loMode : Nat
  postFailed : Bool
  /-- An engine image was refused or not delivered (17 R412). -/
  imageBad : Bool
  loading : Bool
  pushed : List Nat
  enginesUp : Bool
  /-- mono of each engine's failures, newest first (17 R416). -/
  fails : List (List Nat)
  withdrawn : List Nat
  untrusted : List Monitor
  monitorMiss : List Monitor
  startedAt : Nat
  /-- The engine-clock multiplexer: the source it moves to, whether its output is held low for the move, and mono since which
  SYSPLL and the core APLL have each been eligible (01 R32, R34). -/
  muxTo : Option Nat
  muxHeld : Bool
  sysSince : Option Nat
  apllSince : Option Nat
  /-- Work is shed until the first deal on a source other than the LO (01 R35). -/
  shed : Bool
  /-- The SYSPLL monitor: consecutive good windows, failed restarts in a row, a restart in progress, and three failed restarts since
  the last lock (01 R31, R33). -/
  sysGood : Nat
  sysRestarts : Nat
  sysRestarting : Bool
  sysFailed : Bool
  /-- mono since LO_TIME_NS was brought up to date (01 0x4008:07). -/
  loSince : Nat
  /-- Failed engines that wait 60 s; returning ones that are loaded, and that passed their test (17 R416). -/
  retryWait : List Nat
  backLoaded : List Nat
  backReady : List Nat
  /-- The plain memories of the internal address space (01 R37): 32-bit words by address, those not listed reading 0. -/
  ram : List (Nat × Nat)
  /-- Data of the last read on the internal address space, and the accesses that wait for a wake. -/
  busRead : Nat
  busStalls : List BusStall
  /-- The parameter store is neither read nor written (17 R412). -/
  storeOff : Bool
  deriving DecidableEq, Repr, Inhabited

/-- An LED's pattern (16 table "Patterns"): the code it shows, mono at which it took it, and the code that follows with its instant,
once the present period has run out (16 R405). -/
structure Led where
  pattern : Nat
  since : Nat
  next : Option (Nat × Nat)
  deriving DecidableEq, Repr, Inhabited

/-- The operator panel beside its objects (16). -/
structure PanelUnit where
  /-- Keys whose present press has acted as a long one (16 R400). -/
  long : Nat
  /-- Candidate the cursor showed at the last SELECT, 0xFF for NONE (16 R401), and the last channel used. -/
  shown : Nat
  lastChan : Nat
  /-- Sources with a raising since the last acknowledgement (16 R404). -/
  unacked : Nat
  lamp : Bool
  /-- Candidate of the latest accepted plug event and mono at it; mono at the last action and whether it was refused. -/
  plug : Option (Nat × Nat)
  acted : Option (Nat × Bool)
  /-- LED0 to LED11 (16 R404). -/
  leds : List Led
  deriving DecidableEq, Repr, Inhabited

/-- An accepted time-of-day message (02 R61–R63): TAI seconds if it yields a valid time, whether it is binary, whether it
describes its edge for R63, rank, ACCURACY, UTC offset and FLAGS. -/
structure TodMsg where
  secs : Option Nat
  binary : Bool
  describes : Bool
  rank : Nat
  acc : Nat
  utc : Nat
  flags : Nat
  /-- mono at the message's first and after its last character (02 R61). -/
  began : Nat
  ended : Nat
  deriving DecidableEq, Repr, Inhabited

/-- The time-of-day port (02 R61–R64, R456). -/
structure TodUnit where
  /-- Accepted messages that describe the edge not yet judged. -/
  waiting : List TodMsg
  /-- Messages that describe the edge to come, with EDGE_REL 1, whose window is not yet judged (02 R61). -/
  early : List TodMsg
  /-- mono of the last edge of PPS_REF and of the one before it. -/
  edge : Option Nat
  prev : Option Nat
  /-- Seconds of the edge judged last in the present run, and the run's length (02 R63). -/
  last : Option Nat
  run : Nat
  valid : Bool
  /-- The last edge has been judged, with these seconds (02 R456). -/
  judged : Option (Option Nat)
  /-- Rank and accuracy a binary source supplies (02 R63); none for sentences. -/
  source : Option (Nat × Nat)
  /-- TOD_VALID is known to have been 0 for TOD_TIMEOUT, and the mono since which it is 0 (02 R63). -/
  missing : Bool
  since : Nat
  /-- Bytes of the last message sent (02 R64). -/
  sent : List Nat
  deriving DecidableEq, Repr, Inhabited


/-- What the hop of a group is doing (06 R155): nothing, settling on the cached band, trying a neighbour of it for one window,
a full search, or waiting for the retry of a failed one. -/
inductive Hop where
  | none | settle | neighbour | full | retry
  deriving DecidableEq, Repr, Inhabited

/-- What sets a group's ramp offset (06 R170, R171): a held value, a profile, the return to 0, or a spread. -/
inductive RampKind where
  | held | profile | zero | spread
  deriving DecidableEq, Repr, Inhabited

/-- The ramp generator of a group (06 R169–R172). -/
structure Ramp where
  kind : RampKind
  /-- r at the start of the running piece, ppb, and mono at that start. -/
  start : Rat
  since : Nat
  /-- Profile that runs, and its segment. -/
  prof : Nat
  seg : Nat
  /-- mono at which the group left LOCKED and the generator froze (06 R172). -/
  frozen : Option Nat
  /-- SSC_MODE of the running spread, and its end has been requested (06 R171). -/
  mode : Nat
  ending : Bool
  deriving DecidableEq, Repr, Inhabited

/-- A group beside its objects (06 R146–R172). -/
structure Group where
  hop : Hop
  /-- Cached band of the hop and the candidate in use: 0 the band, 1 above, 2 below; none after a full search. -/
  base : Nat
  via : Option Nat
  /-- Step of the full search, band code tried, best band and its error. -/
  step : Nat
  code : Nat
  best : Option (Nat × Rat)
  /-- Run of good lock windows; consecutive failed searches. -/
  good : Nat
  fails : Nat
  /-- A synchronisation is held until LOCKED (06 R165). -/
  syncHeld : Bool
  /-- The synchronisation that follows lock has not completed, and whether it has been started (06 R162). -/
  fenceHeld : Bool
  synced : Bool
  /-- The stored plan was found not valid, and its pennant has not been raised yet (06 R147). -/
  bad : Bool
  untold : Bool
  ramp : Ramp
  /-- The steered divider (06 R151): the exact ratio N, in 2^−48; the ratio held, integer part and 48-bit fraction; the rounding residue
  carried forward, in 2^−48; and LO ticks at its last update. -/
  exact : Rat
  ratio : Nat
  residue : Rat
  ratioAt : Nat
  /-- Phase that r has added, in ps (06 R151); and the position of the group's epoch on its phase accumulator, in ps, from the last
  synchronisation (06 R152, R166). -/
  gain : Rat
  align : Rat
  deriving DecidableEq, Repr, Inhabited

/-- What an output's driver does (06 R158–R165): at its squelch level, low and waiting to go to high impedance, low until its
target, running, or in the squelch sequence before its pin goes low. -/
inductive Drive where
  | level | low | restart | run | falling
  deriving DecidableEq, Repr, Inhabited

/-- The level of an output pin or of a TRIG pin (06 R158, 07 R198): low, high, high impedance, or following the running clock. -/
inductive Level where
  | low | high | z | clock
  deriving DecidableEq, Repr, Inhabited

/-- An output beside its objects. -/
structure Outp where
  drive : Drive
  /-- The driver is at high impedance. -/
  hiz : Bool
  /-- OUTk_P and OUTk_N (06 R158). -/
  pinP : Level
  pinN : Level
  /-- Position of the output's rising edges on the group's phase accumulator, in ps (06 R165). -/
  edge : Rat
  /-- The epoch instant to which the last synchronisation aligns the output, on the same accumulator (06 R166). -/
  epoch : Rat
  /-- A slip in progress: how far the edges still had to move when it began, in ps, and LO ticks then (06 R165). -/
  left : Rat
  slipAt : Nat
  /-- Length to which the pulse guard lengthened the last short phase, in ps (06 R164). -/
  guarded : Rat
  deriving DecidableEq, Repr, Inhabited

/-- An entry of the band cache (06 R157): SEQ of its record and its payload; a payload of 0 is empty. -/
structure Band where
  seq : Nat
  payload : Nat
  deriving DecidableEq, Repr, Inhabited

/-- The core APLL beside its objects (06 R148–R150). -/
structure Apll where
  good : Nat
  searching : Bool
  /-- A search has ended with a band and lock is awaited. -/
  awaits : Bool
  /-- Retries on the band before the next search. -/
  retrying : Bool
  fails : Nat
  /-- The band last locked on since MAST power-up (06 R148). -/
  last : Option Nat
  deriving DecidableEq, Repr, Inhabited

/-- The synthesis part (06). -/
structure SynthUnit where
  apll : Apll
  groups : List Group
  outs : List Outp
  /-- TRIG0 to TRIG3 as the device drives them; high impedance as inputs (07 R198). -/
  trigs : List Level
  cache : List Band
  deriving DecidableEq, Repr, Inhabited

/-- A time-trigger unit beside its objects (07 R194–R196). -/
structure Ttu where
  /-- Next leading edge: TAI seconds and picoseconds as one number of ps. -/
  next : Nat
  /-- Leading edges produced since arming, and the last grid instant fired, in ps. -/
  fired : Nat
  last : Option Nat
  /-- The last pulse has been started; the unit disarms after it. -/
  final : Bool
  /-- TS128 of the last leading edge (02 R64, 07 R196). -/
  stamp : Nat
  deriving DecidableEq, Repr, Inhabited


/-- A received frame waiting for its consumer (08 R210): its descriptor's fields, the full number of its hand, its bytes, and
the cells it holds of its ring's reservation and of the shared pool. -/
structure RxDesc where
  stamp : Nat
  cls : Nat
  flags : Nat
  l3 : Nat
  l4 : Nat
  tci : Nat
  prio : Nat
  hand : Nat
  bytes : List Nat
  reserved : Nat
  shared : Nat
  /-- Its cells in the packet buffer, in order (08 R210). -/
  cells : List Nat
  /-- Who of the engines' duties still has use for an accepted PTP frame: a servo by its number, forwarding, sessions; none until
  the frame is judged (10 R255). -/
  want : Option (List Nat)
  deriving DecidableEq, Repr, Inhabited

/-- A frame to transmit (08 R216): its descriptor's fields and bytes. `trick` names the trick of a SCHED frame. -/
structure TxDesc where
  bytes : List Nat
  flags : Nat
  prio : Nat
  tsId : Nat
  l3 : Nat
  l4 : Nat
  ptp : Nat
  trailer : Nat
  teb : Nat
  time : Nat
  trick : Option Nat
  /-- Ring it was queued in: 0 SCHED, 1 BEST_EFFORT, 2 HOST. -/
  ring : Nat
  /-- Offset from the PTP header of a TEB that takes the bound at transmission, or 0 (05 R143). -/
  tebTx : Nat
  /-- Its cells in the packet buffer, in order, once it is in a ring (08 R216). -/
  cells : List Nat
  deriving DecidableEq, Repr, Inhabited

/-- The trick that is open on a port (09 R239–R242): its index, due frames, those started, and the reason of its miss known
so far. -/
structure Trick where
  idx : Nat
  due : Nat
  started : Nat
  reason : Nat
  /-- Its frames were held by PAUSE or PFC at its start. -/
  paused : Bool
  deriving DecidableEq, Repr, Inhabited

/-- A peer-delay measurement in progress on a port (10 R278): sequenceId, its request's stamp once sent, and the response's
receive stamp, request receipt time and correction while a follow-up is awaited; in 2^−16 ns. -/
structure Pdelay where
  seq : Nat
  t1 : Option Int
  resp : Option (Int × Int)
  /-- The measurement overlapped a period on the LO clock (01 R26). -/
  onLo : Bool
  deriving DecidableEq, Repr, Inhabited

/-- A port beside its objects (07 R189–R201, 08, 09). -/
structure Port where
  /-- The conditions of LINK_UP hold (08 R204). -/
  good : Bool
  /-- Receive rings: PTP_EVENT, PTP_GENERAL, ESMC, TPP, HOST, oldest first. -/
  rx : List (List RxDesc)
  /-- Transmit rings: SCHED, BEST_EFFORT, HOST, oldest first. -/
  tx : List (List TxDesc)
  /-- The LTU's frames in launch-time order (07 R199). -/
  ltu : List TxDesc
  /-- Late launches that are sent as soon as the MAC may start them (07 R199, R200). -/
  late : List TxDesc
  tsEngine : List Nat
  tsHost : List Nat
  /-- Generated flow-control frames not yet sent: PAUSE (none) or the priority of a PFC frame, and its time (08 R227). -/
  control : List (Option Nat × Nat)
  /-- What the port has told its partner to hold: everything (none) or a priority (08 R227). -/
  told : List (Option Nat)
  /-- A frame is being received (08 R204). -/
  receiving : Bool
  /-- The descriptors last returned to the SCHED and BEST_EFFORT rings, with their STATUS (08 R222). -/
  back : List (List Nat)
  /-- mono at which the pause timers run out (08 R224, R226). -/
  pauseEnd : Option Nat
  pfcEnd : List (Option Nat)
  /-- Frames sent since the last underrun or threshold change (08 R221). -/
  run : Nat
  /-- Last frame sent, with its check, and its stamp (07 R189). -/
  wire : List Nat
  wireStamp : Nat
  /-- mono before which no frame starts after leaving low-power idle (08 R229). -/
  wakeEnd : Nat
  /-- TPP frames the port has taken in the present hand while work is shed (08 R209). -/
  tppTaken : Nat
  /-- Plan banks 0 and 1: entries by index (09 R236). -/
  banks : List (List (Nat × Nat))
  /-- Tricks of the present hand composed and started so far. -/
  composed : Nat
  begun : Nat
  /-- Composed tricks not yet begun. -/
  due : List Trick
  open_ : Option Trick
  swapReady : Bool
  /-- The rings take no frame for the closing hand (09 R245 step 1). -/
  closed : Bool
  /-- Frames at the end of the BEST_EFFORT ring that joined it after step 1, for the coming hand. -/
  fresh : Nat
  /-- Mean link delay of the port, in 2^−16 ns (10 R278), whether its measurement overlapped a period on the LO clock, and the
  measurement in progress. -/
  peerDelay : Option Rat
  peerLo : Bool
  pdelay : Option Pdelay
  /-- ESMC PDUs sent in the running second, and a change not yet announced (10 R281). -/
  esmcSent : List Nat
  esmcChanged : Bool
  deriving DecidableEq, Repr, Inhabited

/-- A commit waiting for a deal (10 R258, R261): entry, host half, and whether the device made it. -/
structure Commit where
  index : Nat
  host : Nat
  device : Bool
  /-- Device half that the engine starts the session with, for a device commit of MODE 3. -/
  dev : Nat
  deriving DecidableEq, Repr, Inhabited

/-- A deal past its drain limit whose step 9 is not made (09 R245, R246): the limit, as a counter total in ns, and how many of the
waiting commits were made before it. -/
structure Drained where
  limit : Nat
  cut : Nat
  deriving DecidableEq, Repr, Inhabited

/-- The hand and its deal (09). -/
structure HandUnit where
  /-- The present hand's deal instant and the boundary that ends it, as counter totals in ns (09 R234, R250). -/
  deal : Nat
  ends : Nat
  /-- 0 play, 1 draining, 2 processed and waiting for the deal instant, 3 past the deal instant and still processing. -/
  stage : Nat
  /-- Length of the processing in progress, in ns from the drain limit (09 R245). -/
  proc : Nat
  /-- The processing of the last deal is complete and no step has been taken since (07 R181, 09 R246). -/
  stepOpen : Bool
  /-- The present hand's own deal while an earlier one is processed (09 R248): 0 not begun, 1 closed, 2 drained; its steps 4 to 9
  wait. -/
  backlog : Nat
  /-- Deals whose instant has passed and whose steps 4 to 9 wait for the one in progress (09 R248). -/
  behind : Nat
  /-- Deals past their drain limit and not complete, oldest first. -/
  drained : List Drained
  /-- Reading of a step that fell into a close guard: the drain limit is not before it (09 R250). -/
  late : Nat
  /-- Swaps, duties and the spare's move are readied (09 R245 step 7): the next spare, if it moves. -/
  nextSpare : Option Nat
  /-- RWD values accepted before the drain limit, for step 9 (09 R245 step 7, 12 R312). -/
  rwd : List (Nat × Nat)
  deriving DecidableEq, Repr, Inhabited

/-- A session's two halves (10 R256): the host half as applied, the device half as the engines hold it, as last written back,
and as reads show it. -/
structure Session where
  index : Nat
  host : Nat
  dev : Nat
  saved : Nat
  shown : Nat
  /-- TEB18 of the ingress stamp of the pending request (05 R143). -/
  reqTeb : Nat
  deriving DecidableEq, Repr, Inhabited

/-- A master that a servo has heard or been given (10 R277). -/
structure Master where
  portId : Nat
  port : Nat
  /-- The data set compared by the best master clock algorithm, as one number, lower better. -/
  rank : Nat
  class_ : Nat
  steps : Nat
  utc : Nat
  flags : Nat
  /-- Where messages to it go: transport, MAC, address, VLAN field. -/
  transport : Nat
  mac : Nat
  addr : Nat
  vlan : Nat
  /-- mono at which its announceReceiptTimeout intervals have passed. -/
  until_ : Nat
  deriving DecidableEq, Repr, Inhabited

/-- A Sync received by a servo (10 R278), in 2^−16 ns: sequenceId, t1 once known, t2 less the correction, t2 as stamped, and whether
a period on the LO clock has fallen between it and now (01 R26). -/
structure SyncRec where
  seq : Nat
  t1 : Option Int
  t2 : Int
  at_ : Int
  onLo : Bool
  deriving DecidableEq, Repr, Inhabited

/-- A Delay_Req of a servo (10 R278), in 2^−16 ns: sequenceId, t3 once read, the most recent Sync received before it, t4 less the
correction once received, and whether the exchange overlapped a period on the LO clock (01 R26). -/
structure DelayRec where
  seq : Nat
  t3 : Option Int
  pair : SyncRec
  t4 : Option Int
  onLo : Bool
  deriving DecidableEq, Repr, Inhabited

/-- An estimate computed and not yet written to the mailbox (10 R278): phase, coarse count, uncertainty, second, and whether its
exchange overlapped a period on the LO clock (01 R26). -/
structure Estimate where
  phase : Int
  coarse : Nat
  unc : Nat
  secs : Nat
  onLo : Bool
  deriving DecidableEq, Repr, Inhabited

/-- A servo beside its objects (10 R277, R278); times in 2^−16 ns. -/
structure Servo where
  masters : List Master
  selected : Option Nat
  /-- The Sync received last; a two-step one waits for its Follow_Up. -/
  sync : Option SyncRec
  /-- The Delay_Req in progress. -/
  delay : Option DelayRec
  /-- The last meanPathDelays, newest first, at most 64. -/
  paths : List Rat
  /-- Hand in which the last sample was written. -/
  sampled : Option Nat
  seq : Nat
  /-- Message types granted, and the granted duration (10 R277). -/
  granted : List (Nat × Nat)
  out : Option Estimate
  deriving DecidableEq, Repr, Inhabited

/-- A two-step event message forwarded, waiting for its Follow_Up (10 R279): ingress port, sourcePortIdentity, sequenceId,
residence in 2^−16 ns by egress port, and its hand. -/
structure Held where
  port : Nat
  source : Nat
  seq : Nat
  residence : List (Nat × Nat)
  hand : Nat
  deriving DecidableEq, Repr, Inhabited

/-- Sessions and the precision time service (10). -/
structure SessionUnit where
  table : List Session
  /-- The window buffer (10 R258). -/
  window : Nat
  commits : List Commit
  /-- Shares: the least key (PORT × 65,536 + index) of each working engine's share, in engine order (10 R267). -/
  bounds : List (Nat × Nat)
  servos : List Servo
  held : List Held
  /-- The security associations: the 8 bytes of ENTRY before the key, and KEY_ERASED (10 R275). -/
  sas : List (Nat × Bool)
  /-- The last phase source of TC0 had rank 0 or 1 (10 R273). -/
  phaseGood : Bool
  deriving DecidableEq, Repr, Inhabited



/-- The device: its grade (fixed by fuses, 00 R1) and everything that changes. -/
structure Chip where
  grade : Grade
  /-- Object values that differ from their reset or default, by key (index × 256 + subindex), keys strictly rising. -/
  objs : List (Nat × Nat)
  /-- Values written to RWD, RWN and staged subindices and not yet in force (12 R312). -/
  staged : List (Nat × Nat)
  /-- The free values drawn so far: the model's own field, not the specification's. -/
  free : Nat
  time : TimeUnit
  cands : List Cand
  tod : TodUnit
  tdc : TdcUnit
  chans : List Chan
  nv : NvUnit
  faults : FaultUnit
  power : PowerUnit
  tpp : TppUnit
  sec : SecUnit
  start : StartUnit
  panel : PanelUnit
  synth : SynthUnit
  ttus : List Ttu
  ports : List Port
  hand : HandUnit
  sess : SessionUnit
  deriving DecidableEq, Repr

/-- The machine: commands waiting, first in first out, and the device. -/
structure State where
  pending : List Instr
  chip : Chip
  deriving DecidableEq, Repr

/-- A machine at MAST power-up of a device of grade `g`, before any command: objects at their reset or default, the units
idle, MAST not yet powered by a command (log 2, log 3). -/
def chipReset (g : Grade) : Chip where
  grade := g
  objs := []
  staged := []
  free := 0
  time := default
  cands := List.replicate 28 default
  tod := default
  tdc := { (default : TdcUnit) with lanes := List.replicate 24 default, aux := List.replicate 2 default }
  chans := List.replicate 8 { (default : Chan) with shadows := List.replicate 28 default }
  nv := default
  faults := { (default : FaultUnit) with srcs := List.replicate 128 default }
  power := { (default : PowerUnit) with doms := .awake :: List.replicate 8 .asleep }
  tpp := { (default : TppUnit) with peers := List.replicate 32 default }
  sec := { (default : SecUnit) with peerKeys := List.replicate 32 0, saKeys := List.replicate 256 0 }
  start := { (default : StartUnit) with powered := true, fails := List.replicate 16 [] }
  panel := { (default : PanelUnit) with shown := 0xFF, leds := List.replicate 12 default }
  synth := { (default : SynthUnit) with
    groups := List.replicate 8 default, outs := List.replicate 16 { (default : Outp) with hiz := true, pinP := .z, pinN := .z }, trigs := List.replicate 4 .z, cache := List.replicate 64 default }
  ttus := List.replicate 8 default
  ports := List.replicate 8 { (default : Port) with
    rx := List.replicate 5 [], tx := List.replicate 3 [], pfcEnd := List.replicate 8 none, back := [[], []], banks := [[], []] }
  hand := { (default : HandUnit) with ends := 7812500 }
  sess := { (default : SessionUnit) with
    servos := List.replicate 4 default, sas := List.replicate 256 (0, false) }


/-- The machine after reset: no command waits, a device of grade -F (log 3). -/
def State.reset : State := ⟨[], chipReset .f⟩

end Sys2Proof.Machine
end

