-- ==== Sys2Proof/Machine/Fit.lean ====
section
/-!
DEFINITION. Sys2Proof/Machine/Fit.lean: the weighted least-squares fit of the oscillator model and its random-walk level (05 R135),
in exact rational arithmetic. Frequencies are in ppt, times in s, temperatures in 0.01 °C.
-/

namespace Sys2Proof.Machine

/-! ### Weights -/

/-- A number cut to a multiple of 2^−96. -/
def cut96 (x : Rat) : Rat := (x * 79228162514264337593543950336).floor / 79228162514264337593543950336

/-- e^−x for x in [0, 1), by its series to 30 terms, each cut to 2^−96 (log 9). -/
def expSmall (x : Rat) : Rat :=
  ((List.range 30).foldl (fun (a : Rat × Rat) (k : Nat) => (a.1 + a.2, cut96 (-(a.2 * x) / ((k : Rat) + 1)))) (0, 1)).1

/-- e^−x for x ≥ 0 (log 9). -/
def expNeg (x : Rat) : Rat :=
  let n := x.floor
  let e := cut96 (expSmall (1 / 2) * expSmall (1 / 2))
  (List.range n.toNat).foldl (fun a _ => cut96 (a * e)) (expSmall (x - n))

/-- The weight of an epoch at a mono second: exp(−age / MODEL_TAU) × 9 / a² (05 R135). -/
def Epoch.weight (e : Epoch) (tau now : Nat) : Rat :=
  expNeg ((now - e.at_ : Nat) / (tau : Rat)) * 9 / ((e.acc * e.acc : Nat) : Rat)

/-- A weighted sum over epochs. -/
def sumBy (es : List (Rat × Epoch)) (f : Epoch → Rat) : Rat := es.foldl (fun a q => a + q.1 * f q.2) 0

/-! ### Linear equations -/

/-- A row less a multiple of another. -/
def rowLess (r p : List Rat) (k : Rat) : List Rat := r.zipWith (fun a b => a - k * b) p

/-- Gauss–Jordan elimination of the columns from `j` on: rows already solved, and rows still to solve. None: singular. -/
def eliminate : Nat → Nat → List (List Rat) → List (List Rat) → Option (List (List Rat))
  | 0, _, done, _ => some done
  | n + 1, j, done, todo =>
    match todo.find? (fun r => r.getD j 0 != 0) with
    | none => none
    | some r =>
      let p := r.map (fun x => x / r.getD j 0)
      let clear (x : List Rat) : List Rat := rowLess x p (x.getD j 0)
      eliminate n (j + 1) (done.map clear ++ [p]) ((todo.erase r).map clear)

/-- The solution of a symmetric system and the inverse of its matrix. -/
def solveSym (m : List (List Rat)) (b : List Rat) : Option (List Rat × List (List Rat)) :=
  let n := m.length
  let rows := (List.range n).map (fun i =>
    m.getD i [] ++ [b.getD i 0] ++ (List.range n).map (fun k => if k = i then (1 : Rat) else 0))
  (eliminate n 0 [] rows).map (fun rs => (rs.map (fun r => r.getD n 0), rs.map (fun r => r.drop (n + 1))))

/-! ### The model's terms -/

/-- The term that a coefficient multiplies: 0 A0, 1 A1 (per day from T_REF), 2 C1, 3 C2 (°C from T0). -/
def termOf (ref : Nat) (t0 : Int) (i : Nat) (e : Epoch) : Rat :=
  let dt : Rat := (e.temp - t0) / 100
  match i with
  | 0 => 1
  | 1 => ((e.at_ : Int) - ref : Int) / (86400 : Rat)
  | 2 => dt
  | _ => dt * dt

/-- What a fit yields: the coefficients A0, A1, C1, C2, those not fitted at their priors, and the covariance of the fitted ones, in
the order of `which`. -/
structure FitResult where
  coef : List Rat
  which : List Nat
  cov : List (List Rat)
  deriving DecidableEq, Repr, Inhabited

/-- A coefficient of a fit. -/
def FitResult.at_ (r : FitResult) (i : Nat) : Rat := r.coef.getD i 0

/-- The covariance of two coefficients; 0 where one is not fitted. -/
def FitResult.covOf (r : FitResult) (i j : Nat) : Rat :=
  match r.which.findIdx? (· == i), r.which.findIdx? (· == j) with
  | some a, some b => (r.cov.getD a []).getD b 0
  | _, _ => 0

/-- What the model leaves of an epoch's observation. -/
def FitResult.left (r : FitResult) (ref : Nat) (t0 : Int) (e : Epoch) : Rat :=
  e.y - (List.range 4).foldl (fun a i => a + r.at_ i * termOf ref t0 i e) 0

/-- The weighted fit of the coefficients `which` with the others at `prior`. Data that cannot tell two coefficients apart do not
support the last of them (log 9). The covariance is scaled by the residual variance where that is larger (05 R135). -/
def fitModel (es : List (Rat × Epoch)) (ref : Nat) (t0 : Int) (prior : List Rat) : Nat → List Nat → FitResult
  | 0, _ => ⟨prior, [], []⟩
  | n + 1, which =>
    let held := (List.range 4).map (fun i => if which.contains i then (0 : Rat) else prior.getD i 0)
    let base : FitResult := ⟨held, [], []⟩
    let term := termOf ref t0
    let m := which.map (fun i => which.map (fun j => sumBy es (fun e => term i e * term j e)))
    let b := which.map (fun i => sumBy es (fun e => term i e * base.left ref t0 e))
    match solveSym m b with
    | none => fitModel es ref t0 prior n which.dropLast
    | some (x, inv) =>
      let coef := (List.range 4).map (fun i => match which.findIdx? (· == i) with
        | some k => x.getD k 0
        | none => prior.getD i 0)
      let r : FitResult := ⟨coef, which, inv⟩
      let free := es.length - which.length
      let s := if free = 0 then 1 else sumBy es (fun e => r.left ref t0 e * r.left ref t0 e) / free
      { r with cov := inv.map (fun l => l.map (fun v => v * max 1 s)) }

/-! ### The random walk -/

/-- Means of runs of 64 epochs that follow each other without a gap, newest first, each with the mono second of its newest epoch
(05 R135: averages over 1,024 s). `run`: residuals of the running average, and the second expected next. -/
def averages : List (Nat × Rat) → List Rat → Nat → Nat → List (Nat × Rat)
  | [], _, _, _ => []
  | (t, r) :: l, run, newest, next =>
    let (run, newest) := if run.isEmpty ∨ t ≠ next then ([r], t) else (r :: run, newest)
    if run.length = 64 then (newest, run.foldl (· + ·) 0 / 64) :: averages l [] 0 (t - 16) else averages l run newest (t - 16)

/-- Squared differences of averages that follow each other. -/
def pairsOf : List (Nat × Rat) → List Rat
  | a :: b :: l => if a.1 = b.1 + 1024 then (a.2 - b.2) * (a.2 - b.2) :: pairsOf (b :: l) else pairsOf (b :: l)
  | _ => []

/-- Q: 3 × AVAR(1,024 s) / 1,024 s over the last 64 pairs, in ppt²/s; 0 without a pair. -/
def randomWalk (left : List (Nat × Rat)) : Rat :=
  let ps := (pairsOf (averages left [] 0 0)).take 64
  if ps.isEmpty then 0 else 3 * (ps.foldl (· + ·) 0 / (2 * ps.length)) / 1024

end Sys2Proof.Machine
end

