-- ==== Sys2Proof/Config.lean ====
section
/-!
DEFINITION. Sys2Proof/Config.lean: what an implementation fixes and the specification leaves open. Every constant here is
opaque: no proof can see a value of it, so a claim that mentions one holds whatever it is.
-/

namespace Sys2Proof.Config

/-- The value of a subindex whose default reads "Factory" (12 R453), by index and subindex. Free (log 4). -/
opaque factory : Nat → Nat → Nat

/-- Values the specification leaves open at one moment (11 R285 torn bits, 01 R37 block-control contents), by a running
number. Free (log 15). -/
opaque freeValue : Nat → Nat

/-- What the one-bit lock status of SYSPLL (0x4008) and of the core APLL (0x4001) reads while the LO is absent, when 01 R36 calls it
"unknown": even 0, odd 1. Free (log 62). -/
opaque unknownLock : Nat → Nat

/-- The cell at which the search for a free cell of the packet buffer begins, by a running number (08 R210). Free (log 73). -/
opaque firstCell : Nat → Nat

/-- Where on its group's phase accumulator, in ps, the edges of an output stand that ran while the group was not LOCKED, and the epoch of
a group whose channel has never had a candidate (06 R165, R166), by a running number. Free (log 71). -/
opaque edgeAt : Nat → Rat

/-- Factory delay of a lane for a receiver mode, in 3.125 ps steps (03 R77, 12 R453). Free (log 4). -/
opaque laneTrim : Nat → Nat → Int

/-- Factory port latencies RX_TRIM and TX_TRIM by port, rate and FEC mode, in ps (07 R189). Free (log 4). -/
opaque rxTrim : Nat → Nat → Nat → Int
opaque txTrim : Nat → Nat → Nat → Int

/-- Factory OUT_TRIM by output, format and bank voltage, in ps (06, 12 R453). Free (log 4). -/
opaque outTrim : Nat → Nat → Nat → Int

/-- What the specification leaves open in the packets the device sends: time to live and traffic class of its IP headers, the
traceability flags and time source of its Announce messages, and the logMessageInterval of event messages (10 R254). Free
(log 26). -/
opaque ipTtl : Nat
opaque ipClass : Nat
opaque announceFlags : Nat
opaque timeSource : Nat

/-- Proportional and integral gains of the loop filter by effective bandwidth (0.1 mHz) and damping (0.001), per update, in
2^−48 per ps (04 "Loop filter"): the specification gives the closed-loop transfer, whose gains are irrational. Free (log 8). -/
opaque loopKp : Nat → Nat → Rat
opaque loopKi : Nat → Nat → Rat

/-- Gain of the type-1 phase correction of hybrid operation by bandwidth (0.1 mHz), in 2^−48 per ps (04 R119): 2π times the
bandwidth, an irrational number. Free (log 8). -/
opaque hybridGain : Nat → Rat

/-- ECDSA on P-256 with SHA-256 (11 R302, 15 R386): signature of a message under a private key, and verification of a
message and a signature under a public key. Free (log 10). -/
opaque ecdsaSign : Nat → List Nat → Nat
opaque ecdsaVerify : Nat → List Nat → Nat → Bool

/-- The public key of a private key, and the vendor firmware key in ROM (15 R382, R383). Free (log 10). -/
opaque publicKey : Nat → Nat
opaque vendorKey : Nat

/-- The SGN's random source: the n-th draw of 32 bytes (15 R383, R392). Free (log 10). -/
opaque random : Nat → Nat

end Sys2Proof.Config
end

