-- ==== Sys2Proof/Machine/Codec.lean ====
section
/-!
DEFINITION. Sys2Proof/Machine/Codec.lean: the encodings that travel or are stored: TEB18 and TS128 (00 R12–R14), the checks
CRC-32 (11 R288), CRC-16 (02 table "Binary time message"), SHA-256 and HMAC (11 R297, 12 R326), and the protocol data units
(12 R317).
-/

namespace Sys2Proof.Machine

/-! ### Time-error bounds and timestamps -/

/-- Smallest exponent from `e` up to `top` at which a bound of `v` fits a mantissa of at most `lim` (00 R14). -/
def tebExp (lim v : Nat) : Nat → Nat → Option Nat
  | 0, e => if ceilDiv v (2 ^ e) ≤ lim then some e else none
  | fuel + 1, e => if ceilDiv v (2 ^ e) ≤ lim then some e else tebExp lim v fuel (e + 1)

/-- Exponent and mantissa of a bound of `v` ps, "encoded as R14" with mantissa limit `lim` and largest exponent `top`. -/
def encodeBound (lim top v : Nat) : Option (Nat × Nat) :=
  match tebExp lim v top 0 with
  | some e => some (e, max 1 (ceilDiv v (2 ^ e)))
  | none => none

/-- TEB18 of a bound in ps; 0x3FFFF when it is unknown or cannot be stated (00 R14). -/
def encodeTeb (v : Option Nat) : Nat :=
  match v with
  | none => 0x3FFFF
  | some b =>
    match encodeBound 8191 30 b with
    | some (e, m) => e * 8192 + m
    | none => 0x3FFFF

/-- The bound a TEB18 means; none when it is unknown (00 R13, R14). -/
def decodeTeb (t : Nat) : Option Nat :=
  let e := field 17 13 t
  let m := field 12 0 t
  if e = 31 ∨ m = 0 then none else some (m * 2 ^ e)

/-- A TS128 from its fields (00 table "TS128 timestamp record"). -/
def packTs (sec ns frac teb tag : Nat) : Nat :=
  sec % 2 ^ 48 * 2 ^ 80 + ns % 2 ^ 30 * 2 ^ 50 + frac % 2 ^ 16 * 2 ^ 34 + teb % 2 ^ 18 * 2 ^ 16 + tag % 2 ^ 16

/-- SECONDS, NANOSECONDS, TEB and TAG of a TS128. -/
def tsSec (t : Nat) : Nat := field 127 80 t
def tsNs (t : Nat) : Nat := field 79 50 t
def tsTeb (t : Nat) : Nat := field 33 16 t
def tsTag (t : Nat) : Nat := field 15 0 t

/-! ### Checks -/

/-- One bit of CRC-32, reflected (11 R288). -/
def crc32Bit (c : Nat) : Nat := if c % 2 = 1 then Nat.xor (c / 2) 0xEDB88320 else c / 2

/-- `n` bits of CRC-32. -/
def crc32Bits : Nat → Nat → Nat
  | 0, c => c
  | n + 1, c => crc32Bits n (crc32Bit c)

/-- CRC-32 of IEEE 802.3 over a byte string (11 table "Record layout"). -/
def crc32 (bs : List Nat) : Nat :=
  Nat.xor (bs.foldl (fun c b => crc32Bits 8 (Nat.xor c (b % 256))) 0xFFFFFFFF) 0xFFFFFFFF

/-- `n` bits of CRC-16/CCITT-FALSE. -/
def crc16Bits : Nat → Nat → Nat
  | 0, c => c
  | n + 1, c => crc16Bits n (if c / 32768 % 2 = 1 then Nat.xor (c * 2 % 65536) 0x1021 else c * 2 % 65536)

/-- CRC-16/CCITT-FALSE over a byte string (02 table "Binary time message"). -/
def crc16 (bs : List Nat) : Nat :=
  bs.foldl (fun c b => crc16Bits 8 (Nat.xor c (b % 256 * 256))) 0xFFFF

/-! ### SHA-256 and HMAC (FIPS 180-4, RFC 2104; PRESUMED, log 11) -/

/-- The largest `r` with `r ^ k ≤ x`, settled bit by bit from bit `n - 1` down; `r` is what is settled so far. -/
def rootFloor (k x : Nat) : Nat → Nat → Nat
  | 0, r => r
  | n + 1, r => rootFloor k x n (if (r + 2 ^ n) ^ k ≤ x then r + 2 ^ n else r)

/-- The first 32 bits of the fraction of the `k`-th root of `p`: how the standard defines every constant of the hash. -/
def rootBits (k p : Nat) : Nat := rootFloor k (p * 2 ^ (32 * k)) 40 0 % 2 ^ 32

/-- The primes below `n`. -/
def primesBelow (n : Nat) : List Nat :=
  ((List.range n).drop 2).filter (fun p => ((List.range p).drop 2).all (fun d => p % d != 0))

/-- The round constants: from the cube roots of the first 64 primes. -/
def hashRounds : List Nat := (primesBelow 312).map (rootBits 3)

/-- The chaining value a message starts from: from the square roots of the first eight primes. -/
def hashStart : List Nat := (primesBelow 20).map (rootBits 2)

/-- `x` of 32 bits turned right by each distance of `ds` and the results combined by exclusive or. -/
def turns (x : Nat) (ds : List Nat) : Nat :=
  ds.foldl (fun acc d => Nat.xor acc (x / 2 ^ d + x % 2 ^ d * 2 ^ (32 - d))) 0

/-- The sixteen words in force, oldest first, moved on by one: the oldest gives way to the next of the schedule. -/
def slide (win : List Nat) : List Nat :=
  let lo := nth win 1 0
  let hi := nth win 14 0
  let mixed := Nat.xor (turns lo [7, 18]) (lo / 2 ^ 3) + Nat.xor (turns hi [17, 19]) (hi / 2 ^ 10)
  win.drop 1 ++ [(nth win 0 0 + nth win 9 0 + mixed) % 2 ^ 32]

/-- One round: the word and constant of the round mixed into the eight working words `v`. -/
def stir (v : List Nat) (word const : Nat) : List Nat :=
  let at_ := fun i => nth v i 0
  let pick := Nat.xor (at_ 6) (Nat.land (at_ 4) (Nat.xor (at_ 5) (at_ 6)))
  let most := Nat.lor (Nat.land (at_ 0) (at_ 1)) (Nat.land (at_ 2) (Nat.lor (at_ 0) (at_ 1)))
  let fed := at_ 7 + turns (at_ 4) [6, 11, 25] + pick + word + const
  [(fed + turns (at_ 0) [2, 13, 22] + most) % 2 ^ 32] ++ v.take 3 ++ [(at_ 3 + fed) % 2 ^ 32] ++ (v.drop 4).take 3

/-- The rounds of one block, the schedule's window sliding along with the constants. -/
def stirAll : List Nat → List Nat → List Nat → List Nat
  | [], _, v => v
  | k :: ks, win, v => stirAll ks (slide win) (stir v (nth win 0 0) k)

/-- A byte string as big-endian words of 32 bits, `n` of them. -/
def wordsOf : Nat → List Nat → List Nat
  | 0, _ => []
  | n + 1, bs => ofBytes (bs.take 4) :: wordsOf n (bs.drop 4)

/-- The chaining value after `n` blocks of 64 bytes. -/
def digestFrom : Nat → List Nat → List Nat → List Nat
  | 0, v, _ => v
  | n + 1, v, bs =>
    digestFrom n (List.zipWith (fun x y => (x + y) % 2 ^ 32) v (stirAll hashRounds (wordsOf 16 bs) v)) (bs.drop 64)

/-- SHA-256 of a byte string, 32 bytes: a one bit, zeros and the length in bits fill the last block. -/
def sha256 (bs : List Nat) : List Nat :=
  let blocks := (bs.length + 72) / 64
  let filled := bs ++ 0x80 :: List.replicate (64 * blocks - bs.length - 9) 0 ++ toBytes 8 (8 * bs.length)
  (digestFrom blocks hashStart filled).flatMap (toBytes 4)

/-- HMAC-SHA-256 under a 32-byte key. -/
def hmac (key msg : List Nat) : List Nat :=
  let k := key ++ List.replicate (64 - key.length) 0
  sha256 (k.map (fun b => Nat.xor b 0x5C) ++ sha256 (k.map (fun b => Nat.xor b 0x36) ++ msg))

/-- The 16-byte TAG of a byte string under a key given as a 32-byte number (12 R326). -/
def tagOf (key : Nat) (msg : List Nat) : Nat := ofBytes ((hmac (toBytes 32 key) msg).take 16)

/-! ### Protocol data units (12 R317) -/

/-- OPCODE of a request (12 table "Opcodes"). -/
def callOpcode : Call → Nat
  | .read .. => 0x01
  | .write .. => 0x02
  | .multiRead .. => 0x03
  | .segReadInit .. => 0x04
  | .segReadNext .. => 0x05
  | .segWriteInit .. => 0x06
  | .segWriteNext .. => 0x07
  | .abort .. => 0x0F

/-- BODY of a request (12 table "Opcodes"). -/
def callBody : Call → List Nat
  | .read i s => toBytes 2 i ++ [s, 0]
  | .write i s t d => toBytes 2 i ++ [s, t, 0, 0] ++ toBytes 2 d.length ++ d
  | .multiRead l => [l.length % 256, 0] ++ l.flatMap (fun p => toBytes 2 p.1 ++ [p.2, 0])
  | .segReadInit i s => toBytes 2 i ++ [s, 0]
  | .segReadNext t g m => [t, 0] ++ toBytes 2 g ++ toBytes 2 m
  | .segWriteInit i s t n => toBytes 2 i ++ [s, t] ++ toBytes 4 n
  | .segWriteNext t l g d => [t, if l then 128 else 0] ++ toBytes 2 g ++ toBytes 2 d.length ++ d
  | .abort i s t c n => toBytes 2 i ++ [s, t] ++ toBytes 4 c ++ toBytes 4 n

/-- The bytes of a PDU before its TAG. -/
def pduHead (opcode tid : Nat) (auth : Option (Nat × Nat)) (body : List Nat) : List Nat :=
  [1, opcode, if auth.isSome then 128 else 0, 0] ++ toBytes 2 tid ++ toBytes 2 body.length ++
    (match auth with
     | some (peer, seq) => toBytes 4 peer ++ toBytes 4 seq
     | none => []) ++ body

/-- The bytes of a request. -/
def encodeRequest (tid : Nat) (auth : Option Auth) (c : Call) : List Nat :=
  pduHead (callOpcode c) tid (auth.map (fun a => (a.peer, a.seq))) (callBody c) ++
    (match auth with
     | some a => toBytes 16 a.tag
     | none => [])

/-- Why a PDU is refused by check 1 (12 R324), as an abort code. -/
inductive Malformed where
  | malformed | version | opcode
  deriving DecidableEq, Repr

/-- The items of a MULTI_READ body after its COUNT; none when a reserved byte is not 0. -/
def parseItems : Nat → List Nat → Option (List (Nat × Nat))
  | 0, [] => some []
  | n + 1, a :: b :: s :: z :: t =>
    if z = 0 then (parseItems n t).map (fun l => (a * 256 + b, s) :: l) else none
  | _, _ => none

/-- The body of a request under its opcode; none when it does not match (12 R324). -/
def parseBody (opcode : Nat) (b : List Nat) : Option Call :=
  match opcode, b with
  | 0x01, [i0, i1, s, 0] => some (.read (i0 * 256 + i1) s)
  | 0x02, i0 :: i1 :: s :: t :: 0 :: 0 :: l0 :: l1 :: d =>
    if d.length = l0 * 256 + l1 then some (.write (i0 * 256 + i1) s t d) else none
  | 0x03, n :: 0 :: t =>
    if 1 ≤ n ∧ n ≤ 32 then (parseItems n t).map Call.multiRead else none
  | 0x04, [i0, i1, s, 0] => some (.segReadInit (i0 * 256 + i1) s)
  | 0x05, [t, 0, g0, g1, m0, m1] => some (.segReadNext t (g0 * 256 + g1) (m0 * 256 + m1))
  | 0x06, [i0, i1, s, t, n0, n1, n2, n3] =>
    some (.segWriteInit (i0 * 256 + i1) s t (ofBytes [n0, n1, n2, n3]))
  | 0x07, t :: f :: g0 :: g1 :: l0 :: l1 :: d =>
    if d.length = l0 * 256 + l1 ∧ (f = 0 ∨ f = 128) then
      some (.segWriteNext t (f == 128) (g0 * 256 + g1) d) else none
  | 0x0F, [i0, i1, s, t, c0, c1, c2, c3, n0, n1, n2, n3] =>
    some (.abort (i0 * 256 + i1) s t (ofBytes [c0, c1, c2, c3]) (ofBytes [n0, n1, n2, n3]))
  | _, _ => none

/-- A request read from its bytes: TRANSACTION_ID, authentication and call, or the refusal of check 1 (12 R324). A PDU too
short to carry its TRANSACTION_ID answers none. -/
def parseRequest (bs : List Nat) : Option (Nat × Except Malformed (Option Auth × Call)) :=
  match bs with
  | v :: op :: fl :: rs :: t0 :: t1 :: rest =>
    let tid := t0 * 256 + t1
    let bad (m : Malformed) : Option (Nat × Except Malformed (Option Auth × Call)) := some (tid, .error m)
    if v ≠ 1 then bad .version
    else if ¬ [0x01, 0x02, 0x03, 0x04, 0x05, 0x06, 0x07, 0x0F].contains op then bad .opcode
    else if bs.length > 1400 ∨ rs ≠ 0 ∨ (fl ≠ 0 ∧ fl ≠ 128) then bad .malformed
    else
      match rest with
      | l0 :: l1 :: rest =>
        let n := l0 * 256 + l1
        if fl = 128 then
          if rest.length ≠ 8 + n + 16 then bad .malformed
          else
            match parseBody op ((rest.drop 8).take n) with
            | some c => some (tid, .ok (some ⟨ofBytes (rest.take 4), ofBytes ((rest.drop 4).take 4),
                ofBytes (rest.drop (8 + n))⟩, c))
            | none => bad .malformed
        else if rest.length ≠ n then bad .malformed
        else
          match parseBody op rest with
          | some c => some (tid, .ok (none, c))
          | none => bad .malformed
      | _ => bad .malformed
  | _ => none

end Sys2Proof.Machine
end

