-- ==== Sys2Proof/Machine/Dictionary.lean ====
section
/-!
DEFINITION. Sys2Proof/Machine/Dictionary.lean: the object dictionary (12 R308–R316), one row per subindex of the object
tables of every chapter: indices, subindices, type, access kind, length, domain, reset or default, the bits a write sets,
the values its fields accept, and the least roles to read and to write (12 R313).
-/

namespace Sys2Proof.Machine

/-- The types (12 R309). -/
inductive Ty where
  | bool | u8 | i8 | u16 | i16 | u32 | i32 | u64 | i64 | u18 | i18 | q18 | teb18 | ts128 | str | domain
  deriving DecidableEq, Repr, Inhabited

/-- The access kinds (12 R311). -/
inductive Acc where
  | const | ro | rw | wo | rws | rwd | rwn
  deriving DecidableEq, Repr, Inhabited

/-- The values a field accepts (12 check 9 of R314). -/
inductive Chk where
  | any
  | rng (lo hi : Nat)
  | srng (lo hi : Int)
  /-- Only 0 (12 R452). -/
  | zero
  | elems (l : List Nat)
  /-- 0xFF, or a range. -/
  | orFF (lo hi : Nat)
  | zeroOr (lo hi : Nat)
  /-- 300 to 900 in steps of 50 (06 CML_SWING). -/
  | cml
  /-- A code of the table "Auxiliary edge sources" (03). -/
  | auxSrc
  /-- Four two-bit codes, none of them 00 (03 EDGE_SEL). -/
  | edgeSel
  deriving DecidableEq, Repr, Inhabited

/-- A field and what it accepts. -/
structure Fld where
  hi : Nat
  lo : Nat
  chk : Chk
  deriving DecidableEq, Repr, Inhabited

/-- A reset or default: one value, a value by instance or by subindex, or set at manufacture (12 R453). -/
inductive Dflt where
  | val (n : Nat)
  | byInst (l : List Nat)
  | bySub (l : List Nat)
  | factory
  deriving DecidableEq, Repr, Inhabited

/-- A row of the dictionary. -/
structure Row where
  base : Nat
  n : Nat
  s0 : Nat
  s1 : Nat
  ty : Ty
  acc : Acc
  len : Nat
  var : Bool
  dom : Dom
  dflt : Dflt
  mask : Nat
  flds : List Fld
  rd : Nat
  wr : Nat
  deriving DecidableEq, Repr, Inhabited

/-- Rows of indices 0x1000 onward, part 1. -/
def rows1a : List Row := [
  /- REF_PRESENT, PORT_PRESENT, CHANNEL_PRESENT -/ ⟨0x1020, 1, 1, 1, .u32, .const, 0, false, .mast, .val 0, 0, [], 0, 0⟩,
  /- ENGINE_PRESENT, SGN, LTU -/ ⟨0x1020, 1, 2, 2, .u32, .const, 0, false, .mast, .val 0, 0, [], 0, 0⟩,
  /- SESSION_LIMIT -/ ⟨0x1020, 1, 3, 3, .u32, .const, 0, false, .mast, .val 0, 0, [], 0, 0⟩,
  /- PORT_RATE_MAX -/ ⟨0x1020, 1, 4, 4, .u8, .const, 0, false, .mast, .val 0, 0, [], 0, 0⟩,
  /- RX_ENABLE -/ ⟨0x1240, 1, 1, 1, .bool, .rws, 0, false, .mast, .val 0, 1, [], 0, 2⟩,
  /- BAUD -/ ⟨0x1240, 1, 2, 2, .u32, .rws, 0, false, .mast, .val 9600, 4294967295, [⟨31, 0, .elems [9600, 19200, 38400, 57600, 115200, 230400, 460800, 921600]⟩], 0, 2⟩,
  /- FORMAT -/ ⟨0x1240, 1, 3, 3, .u8, .rws, 0, false, .mast, .val 0, 255, [⟨7, 0, .rng 0 2⟩], 0, 2⟩,
  /- PPS_REF -/ ⟨0x1240, 1, 4, 4, .u8, .rws, 0, false, .mast, .val 0, 255, [⟨7, 0, .rng 0 15⟩], 0, 2⟩,
  /- EDGE_REL -/ ⟨0x1240, 1, 5, 5, .u8, .rws, 0, false, .mast, .val 0, 255, [⟨7, 0, .rng 0 1⟩], 0, 2⟩,
  /- TOD_REQUIRED -/ ⟨0x1240, 1, 6, 6, .bool, .rws, 0, false, .mast, .val 0, 1, [], 0, 2⟩,
  /- TOD_TIMEOUT -/ ⟨0x1240, 1, 7, 7, .u8, .rws, 0, false, .mast, .val 3, 255, [⟨7, 0, .rng 1 60⟩], 0, 2⟩,
  /- TX_ENABLE -/ ⟨0x1240, 1, 8, 8, .bool, .rws, 0, false, .mast, .val 0, 1, [], 0, 2⟩,
  /- TX_TTU -/ ⟨0x1240, 1, 9, 9, .u8, .rws, 0, false, .mast, .val 0, 255, [⟨7, 0, .rng 0 7⟩], 0, 2⟩,
  /- TX_DELAY -/ ⟨0x1240, 1, 10, 10, .u16, .rws, 0, false, .mast, .val 100, 65535, [⟨15, 0, .rng 10 900⟩], 0, 2⟩,
  /- LAST_TIME -/ ⟨0x1241, 1, 1, 1, .ts128, .ro, 0, false, .mast, .val 0, 0, [], 0, 0⟩,
  /- ACCEPTED -/ ⟨0x1241, 1, 2, 2, .u32, .ro, 0, false, .mast, .val 0, 0, [], 0, 0⟩,
  /- BAD_CRC -/ ⟨0x1241, 1, 3, 3, .u32, .ro, 0, false, .mast, .val 0, 0, [], 0, 0⟩,
  /- BAD_TYPE -/ ⟨0x1241, 1, 4, 4, .u32, .ro, 0, false, .mast, .val 0, 0, [], 0, 0⟩,
  /- BAD_SENTENCE -/ ⟨0x1241, 1, 5, 5, .u32, .ro, 0, false, .mast, .val 0, 0, [], 0, 0⟩,
  /- LATE -/ ⟨0x1241, 1, 6, 6, .u32, .ro, 0, false, .mast, .val 0, 0, [], 0, 0⟩,
  /- CONFLICTS -/ ⟨0x1241, 1, 7, 7, .u32, .ro, 0, false, .mast, .val 0, 0, [], 0, 0⟩,
  /- DISCONTINUITY -/ ⟨0x1241, 1, 8, 8, .u32, .ro, 0, false, .mast, .val 0, 0, [], 0, 0⟩,
  /- NOW -/ ⟨0x1200, 1, 1, 1, .ts128, .ro, 0, false, .mast, .val 0, 0, [], 0, 0⟩,
  /- SECONDS_MISMATCH, STEP_PENDING, ON_RC, TIME_VALID -/ ⟨0x1201, 1, 1, 1, .u8, .ro, 0, false, .mast, .val 0, 0, [], 0, 0⟩,
  /- INC_NS -/ ⟨0x1201, 1, 2, 2, .u8, .ro, 0, false, .mast, .val 0, 0, [], 0, 0⟩,
  /- INC_FRAC -/ ⟨0x1201, 1, 3, 3, .u32, .ro, 0, false, .mast, .val 0, 0, [], 0, 0⟩,
  /- STEP_COUNT -/ ⟨0x1201, 1, 4, 4, .u32, .rw, 0, false, .mast, .val 0, 4294967295, [⟨31, 0, .zero⟩], 0, 1⟩,
  /- LAST_STEP -/ ⟨0x1201, 1, 5, 5, .ts128, .ro, 0, false, .mast, .val 0, 0, [], 0, 0⟩,
  /- LAST_STEP_SIZE -/ ⟨0x1201, 1, 6, 6, .i64, .ro, 0, false, .mast, .val 0, 0, [], 0, 0⟩,
  /- SECONDS_ALIGN -/ ⟨0x1201, 1, 7, 7, .u8, .rws, 0, false, .mast, .val 1, 255, [⟨7, 0, .rng 0 2⟩], 0, 2⟩,
  /- SECONDS_CONFIRM -/ ⟨0x1201, 1, 8, 8, .u8, .rws, 0, false, .mast, .val 2, 255, [⟨7, 0, .rng 2 10⟩], 0, 2⟩,
  /- SECONDS_DIFF -/ ⟨0x1201, 1, 9, 9, .i64, .ro, 0, false, .mast, .val 0, 0, [], 0, 0⟩,
  /- RC_PERIOD_PS -/ ⟨0x1201, 1, 10, 10, .u32, .ro, 0, false, .mast, .val 31250000, 0, [], 0, 0⟩,
  /- TIME_SET -/ ⟨0x1202, 1, 1, 1, .ts128, .wo, 0, false, .mast, .val 0, 340282366920938463463374607431768211455, [], 0, 2⟩,
  /- TIME_STEP -/ ⟨0x1202, 1, 2, 2, .i64, .wo, 0, false, .mast, .val 0, 18446744073709551615, [], 0, 2⟩,
  /- TIME_SLEW -/ ⟨0x1202, 1, 3, 3, .i64, .wo, 0, false, .mast, .val 0, 18446744073709551615, [], 0, 2⟩,
  /- UTC_OFFSET -/ ⟨0x1210, 1, 1, 1, .i16, .rws, 0, false, .mast, .val 37, 65535, [], 0, 2⟩,
  /- LEAP61, LEAP59, UTC_OFFSET_VALID -/ ⟨0x1210, 1, 2, 2, .u8, .rw, 0, false, .mast, .val 0, 7, [], 0, 2⟩,
  /- UTC_SOURCE -/ ⟨0x1210, 1, 3, 3, .u8, .rws, 0, false, .mast, .val 1, 255, [⟨7, 0, .rng 0 1⟩], 0, 2⟩,
  /- NEXT_LEAP -/ ⟨0x1210, 1, 4, 4, .ts128, .ro, 0, false, .mast, .val 0, 0, [], 0, 0⟩]

/-- Rows of indices 0x1000 onward, part 2. -/
def rows1b : List Row := [
  /- LEAPS_APPLIED -/ ⟨0x1210, 1, 5, 5, .u32, .ro, 0, false, .mast, .val 0, 0, [], 0, 0⟩,
  /- DEVICE_TYPE -/ ⟨0x1000, 1, 1, 1, .u32, .const, 0, false, .mast, .val 25878, 0, [], 0, 0⟩,
  /- ORGANISATION_ID -/ ⟨0x1004, 1, 1, 1, .u32, .const, 0, false, .mast, .factory, 0, [], 0, 0⟩,
  /- GRADE -/ ⟨0x1010, 1, 1, 1, .u8, .const, 0, false, .mast, .val 0, 0, [], 0, 0⟩,
  /- SILICON_REV -/ ⟨0x1010, 1, 2, 2, .u8, .const, 0, false, .mast, .val 176, 0, [], 0, 0⟩,
  /- SERIAL -/ ⟨0x1010, 1, 3, 3, .str, .const, 16, false, .mast, .factory, 0, [], 0, 0⟩,
  /- L2_ENABLE -/ ⟨0x1100, 1, 1, 1, .u8, .rws, 0, false, .mast, .val 0, 255, [], 0, 2⟩,
  /- UDP_ENABLE -/ ⟨0x1100, 1, 2, 2, .u8, .rws, 0, false, .mast, .val 0, 255, [], 0, 2⟩,
  /- UDP_PORT -/ ⟨0x1100, 1, 3, 3, .u16, .rws, 0, false, .mast, .val 47316, 65535, [⟨15, 0, .rng 1024 65535⟩], 0, 2⟩,
  /- QSPI_PLAIN_ROLE -/ ⟨0x1100, 1, 4, 4, .u8, .rws, 0, false, .mast, .val 2, 255, [⟨7, 0, .orFF 0 2⟩], 0, 2⟩,
  /- NET_PLAIN_ROLE -/ ⟨0x1100, 1, 5, 5, .u8, .rws, 0, false, .mast, .val 255, 255, [⟨7, 0, .orFF 0 0⟩], 0, 2⟩,
  /- RESP_IRQ -/ ⟨0x1100, 1, 6, 6, .bool, .rws, 0, false, .mast, .val 1, 1, [], 0, 2⟩,
  /- REQUESTS_QSPI, REQUESTS_L2, REQUESTS_UDP -/ ⟨0x1101, 1, 1, 3, .u32, .rw, 0, false, .mast, .val 0, 4294967295, [⟨31, 0, .zero⟩], 0, 1⟩,
  /- AUTH_DISCARDS -/ ⟨0x1101, 1, 4, 4, .u32, .rw, 0, false, .mast, .val 0, 4294967295, [⟨31, 0, .zero⟩], 0, 1⟩,
  /- PLAIN_REFUSED -/ ⟨0x1101, 1, 5, 5, .u32, .rw, 0, false, .mast, .val 0, 4294967295, [⟨31, 0, .zero⟩], 0, 1⟩,
  /- BUSY_REFUSED -/ ⟨0x1101, 1, 6, 6, .u32, .rw, 0, false, .mast, .val 0, 4294967295, [⟨31, 0, .zero⟩], 0, 1⟩,
  /- DESTRUCTIVE_LOST -/ ⟨0x1101, 1, 7, 7, .u32, .rw, 0, false, .mast, .val 0, 4294967295, [⟨31, 0, .zero⟩], 0, 1⟩,
  /- QSPI_ERRORS -/ ⟨0x1101, 1, 8, 8, .u32, .rw, 0, false, .mast, .val 0, 4294967295, [⟨31, 0, .zero⟩], 0, 1⟩,
  /- OPEN_TRANSFERS -/ ⟨0x1101, 1, 9, 9, .u8, .ro, 0, false, .mast, .val 0, 0, [], 0, 0⟩,
  /- IPV4_ADDR -/ ⟨0x1108, 8, 1, 1, .u32, .rws, 0, false, .mast, .val 0, 4294967295, [], 0, 2⟩,
  /- IPV6_ADDR -/ ⟨0x1108, 8, 2, 2, .domain, .rws, 16, false, .mast, .val 0, 0, [], 0, 2⟩,
  /- IN_USE, TRANSPORTS, KEY_ERASED, ROLE -/ ⟨0x1110, 32, 1, 1, .u8, .rws, 0, false, .mast, .val 0, 243, [], 0, 2⟩,
  /- PEER_ID -/ ⟨0x1110, 32, 2, 2, .u32, .rws, 0, false, .mast, .val 0, 4294967295, [], 0, 2⟩,
  /- KEY -/ ⟨0x1110, 32, 3, 3, .domain, .wo, 32, false, .mast, .val 0, 0, [], 0, 2⟩,
  /- RX_HIGH_SEQ -/ ⟨0x1110, 32, 4, 4, .u32, .ro, 0, false, .mast, .val 0, 0, [], 0, 0⟩,
  /- TX_SEQ -/ ⟨0x1110, 32, 5, 5, .u32, .ro, 0, false, .mast, .val 0, 0, [], 0, 0⟩,
  /- WINDOW_REJECTS -/ ⟨0x1110, 32, 6, 6, .u32, .rw, 0, false, .mast, .val 0, 4294967295, [⟨31, 0, .zero⟩], 0, 2⟩,
  /- PHASE -/ ⟨0x1030, 1, 1, 1, .u8, .ro, 0, false, .mast, .val 0, 0, [], 0, 0⟩,
  /- RESET_CAUSE -/ ⟨0x1030, 1, 2, 2, .u8, .ro, 0, false, .mast, .val 0, 0, [], 0, 0⟩,
  /- TEST_MODE_IGNORED, TEST_MODE, STRAPS -/ ⟨0x1030, 1, 3, 3, .u8, .ro, 0, false, .mast, .val 0, 0, [], 0, 0⟩,
  /- LAST_START -/ ⟨0x1030, 1, 4, 4, .ts128, .ro, 0, false, .mast, .val 0, 0, [], 0, 0⟩,
  /- STARTS -/ ⟨0x1030, 1, 5, 5, .u32, .ro, 0, false, .mast, .val 0, 0, [], 0, 0⟩,
  /- RESET -/ ⟨0x1030, 1, 6, 6, .u32, .wo, 0, false, .mast, .val 0, 4294967295, [], 0, 2⟩,
  /- STARTUP_MS -/ ⟨0x1030, 1, 7, 7, .u32, .ro, 0, false, .mast, .val 0, 0, [], 0, 0⟩]

/-- Rows of indices 0x2000 onward, part 1. -/
def rows2a : List Row := [
  /- ENABLE -/ ⟨0x2000, 28, 1, 1, .bool, .rws, 0, false, .loop, .val 0, 1, [], 0, 2⟩,
  /- NOMINAL_FREQ -/ ⟨0x2000, 28, 2, 2, .u64, .rws, 0, false, .loop, .byInst [1000, 1000, 1000, 1000, 1000, 1000, 1000, 1000, 1000, 1000, 1000, 1000, 1000, 1000, 1000, 1000, 0, 0, 0, 0, 0, 0, 0, 0, 0, 0, 0, 0], 18446744073709551615, [⟨63, 0, .rng 1000 1250000000000⟩], 0, 2⟩,
  /- TERM, EDGE, MODE, HYST -/ ⟨0x2000, 28, 3, 3, .u8, .rws, 0, false, .loop, .val 0, 251, [⟨5, 3, .rng 0 5⟩], 0, 2⟩,
  /- HOLDOFF -/ ⟨0x2000, 28, 4, 4, .u8, .rws, 0, false, .loop, .val 0, 255, [], 0, 2⟩,
  /- PRE_DIV -/ ⟨0x2000, 28, 5, 5, .u32, .rws, 0, false, .loop, .val 1, 4294967295, [⟨31, 0, .rng 1 1073741824⟩], 0, 2⟩,
  /- PLUG_USE, PLUG_LEVEL -/ ⟨0x2000, 28, 6, 6, .u8, .rws, 0, false, .loop, .val 0, 3, [], 0, 2⟩,
  /- PLUG_DEBOUNCE -/ ⟨0x2000, 28, 7, 7, .u8, .rws, 0, false, .loop, .val 20, 255, [⟨7, 0, .rng 1 255⟩], 0, 2⟩,
  /- SOAK_TIME -/ ⟨0x2000, 28, 8, 8, .u16, .rws, 0, false, .loop, .byInst [10, 10, 10, 10, 10, 10, 10, 10, 10, 10, 10, 10, 10, 10, 10, 10, 10, 10, 10, 10, 10, 10, 10, 10, 60, 60, 60, 60], 65535, [⟨15, 0, .rng 0 3600⟩], 0, 2⟩,
  /- REPLUG_SOAK -/ ⟨0x2000, 28, 9, 9, .u16, .rws, 0, false, .loop, .val 60, 65535, [⟨15, 0, .rng 0 3600⟩], 0, 2⟩,
  /- QL_OVERRIDE, QL_RANK -/ ⟨0x2000, 28, 10, 10, .u8, .rws, 0, false, .loop, .val 14, 143, [⟨3, 0, .rng 0 15⟩], 0, 2⟩,
  /- QL_MIN -/ ⟨0x2000, 28, 11, 11, .u8, .rws, 0, false, .loop, .val 14, 255, [⟨7, 0, .rng 0 15⟩], 0, 2⟩,
  /- PROFILE -/ ⟨0x2000, 28, 12, 12, .u8, .rws, 0, false, .loop, .byInst [0, 0, 0, 0, 0, 0, 0, 0, 0, 0, 0, 0, 0, 0, 0, 0, 1, 1, 1, 1, 1, 1, 1, 1, 2, 2, 2, 2], 255, [⟨7, 0, .rng 0 3⟩], 0, 2⟩,
  /- FORCE_DISQ -/ ⟨0x2000, 28, 13, 13, .bool, .rws, 0, false, .loop, .val 0, 1, [], 0, 2⟩,
  /- PKT_UNC_MAX -/ ⟨0x2000, 28, 14, 14, .u32, .rws, 0, false, .loop, .val 100000, 4294967295, [⟨31, 0, .rng 100 10000000⟩], 0, 2⟩,
  /- ACT_LIMIT -/ ⟨0x2200, 4, 1, 1, .u8, .rws, 0, false, .loop, .val 12, 255, [⟨7, 0, .rng 9 64⟩], 0, 2⟩,
  /- ABSENT_AFTER -/ ⟨0x2200, 4, 2, 2, .u16, .rws, 0, false, .loop, .val 10, 65535, [⟨15, 0, .rng 1 3600⟩], 0, 2⟩,
  /- FREQ_WINDOW -/ ⟨0x2200, 4, 3, 3, .u8, .rws, 0, false, .loop, .byInst [4, 1, 16, 4], 255, [⟨7, 0, .rng 1 64⟩], 0, 2⟩,
  /- FREQ_DISQ -/ ⟨0x2200, 4, 4, 4, .u32, .rws, 0, false, .loop, .val 9200000, 4294967295, [⟨31, 0, .rng 1000 250000000⟩], 0, 2⟩,
  /- FREQ_QUAL -/ ⟨0x2200, 4, 5, 5, .u32, .rws, 0, false, .loop, .val 8000000, 4294967295, [], 0, 2⟩,
  /- JUMP_LIMIT -/ ⟨0x2200, 4, 6, 6, .u32, .rws, 0, false, .loop, .byInst [50000, 10000, 1000000, 50000], 4294967295, [⟨31, 0, .rng 100 100000000⟩], 0, 2⟩,
  /- JUMP_CONFIRM -/ ⟨0x2200, 4, 7, 7, .u8, .rws, 0, false, .loop, .val 2, 255, [⟨7, 0, .rng 1 8⟩], 0, 2⟩,
  /- PKT_TIMEOUT -/ ⟨0x2200, 4, 8, 8, .u16, .rws, 0, false, .loop, .val 1000, 65535, [⟨15, 0, .rng 10 60000⟩], 0, 2⟩,
  /- TOD_VALID, PLUGGED, FREQ_USABLE, STATE -/ ⟨0x2020, 28, 1, 1, .u8, .ro, 0, false, .loop, .val 0, 0, [], 0, 0⟩,
  /- REASON -/ ⟨0x2020, 28, 2, 2, .u8, .ro, 0, false, .loop, .val 1, 0, [], 0, 0⟩,
  /- FAIL_MAP -/ ⟨0x2020, 28, 3, 3, .u16, .ro, 0, false, .loop, .val 0, 0, [], 0, 0⟩,
  /- FREQ_OFFSET -/ ⟨0x2020, 28, 4, 4, .i32, .ro, 0, false, .loop, .val 0, 0, [], 0, 0⟩,
  /- QL_SOURCE, QL_RANK_NOW -/ ⟨0x2020, 28, 5, 5, .u8, .ro, 0, false, .loop, .val 14, 0, [], 0, 0⟩,
  /- QL_RAW -/ ⟨0x2020, 28, 6, 6, .u16, .ro, 0, false, .loop, .val 0, 0, [], 0, 0⟩,
  /- SOAK_REMAIN -/ ⟨0x2020, 28, 7, 7, .u16, .ro, 0, false, .loop, .val 0, 0, [], 0, 0⟩,
  /- LAST_PHASE -/ ⟨0x2020, 28, 8, 8, .i18, .ro, 0, false, .loop, .val 0, 0, [], 0, 0⟩,
  /- LAST_COARSE -/ ⟨0x2020, 28, 9, 9, .u32, .ro, 0, false, .loop, .val 0, 0, [], 0, 0⟩,
  /- LAST_CHANGE -/ ⟨0x2020, 28, 10, 10, .ts128, .ro, 0, false, .loop, .val 0, 0, [], 0, 0⟩,
  /- EDGES: pre-divided edges accepted -/ ⟨0x2040, 28, 1, 1, .u32, .ro, 0, false, .loop, .val 0, 0, [], 0, 0⟩,
  /- HOLDOFF_REJECTS -/ ⟨0x2040, 28, 2, 2, .u32, .ro, 0, false, .loop, .val 0, 0, [], 0, 0⟩,
  /- OUTLIERS -/ ⟨0x2040, 28, 3, 3, .u32, .ro, 0, false, .loop, .val 0, 0, [], 0, 0⟩,
  /- PHASE_JUMPS -/ ⟨0x2040, 28, 4, 4, .u32, .ro, 0, false, .loop, .val 0, 0, [], 0, 0⟩,
  /- DISQUALIFICATIONS: entries to DISQUALIFIED -/ ⟨0x2040, 28, 5, 5, .u32, .ro, 0, false, .loop, .val 0, 0, [], 0, 0⟩,
  /- PLUG_OUTS -/ ⟨0x2040, 28, 6, 6, .u32, .ro, 0, false, .loop, .val 0, 0, [], 0, 0⟩,
  /- PLUG_INS -/ ⟨0x2040, 28, 7, 7, .u32, .ro, 0, false, .loop, .val 0, 0, [], 0, 0⟩,
  /- ACTIVITY_LOSSES -/ ⟨0x2040, 28, 8, 8, .u32, .ro, 0, false, .loop, .val 0, 0, [], 0, 0⟩]

/-- Rows of indices 0x2000 onward, part 2. -/
def rows2b : List Row := [
  /- UNC_DISCARDS -/ ⟨0x2040, 28, 9, 9, .u32, .ro, 0, false, .loop, .val 0, 0, [], 0, 0⟩,
  /- CLOCK_FALLBACK_DISCARDS: sample discarded, clock fallback (R -/ ⟨0x2040, 28, 10, 10, .u32, .ro, 0, false, .loop, .val 0, 0, [], 0, 0⟩,
  /- SECONDS_QUALIFIED -/ ⟨0x2040, 28, 11, 11, .u32, .ro, 0, false, .loop, .val 0, 0, [], 0, 0⟩,
  /- MCLK_LOCKED -/ ⟨0x2100, 1, 1, 1, .u8, .ro, 0, false, .sense, .val 0, 0, [], 0, 0⟩,
  /- COARSE_NOW -/ ⟨0x2100, 1, 2, 2, .u32, .ro, 0, false, .sense, .val 0, 0, [], 0, 0⟩,
  /- CAL_REFRESH -/ ⟨0x2100, 1, 3, 3, .u16, .rws, 0, false, .sense, .val 500, 65535, [⟨15, 0, .rng 10 500⟩], 0, 2⟩,
  /- MCLK_UNLOCKS -/ ⟨0x2100, 1, 4, 4, .u32, .ro, 0, false, .sense, .val 0, 0, [], 0, 0⟩,
  /- USER_OFFSET -/ ⟨0x2110, 24, 1, 1, .i18, .rws, 0, false, .sense, .val 0, 262143, [], 0, 2⟩,
  /- TRIM -/ ⟨0x2110, 24, 2, 2, .i18, .ro, 0, false, .sense, .factory, 0, [], 0, 0⟩,
  /- CAL_FAILED, CAL_VALID -/ ⟨0x2130, 24, 1, 1, .u8, .ro, 0, false, .sense, .val 0, 0, [], 0, 0⟩,
  /- CAL_R1 -/ ⟨0x2130, 24, 2, 2, .u16, .ro, 0, false, .sense, .val 0, 0, [], 0, 0⟩,
  /- CAL_R2 -/ ⟨0x2130, 24, 3, 3, .u16, .ro, 0, false, .sense, .val 0, 0, [], 0, 0⟩,
  /- OVERRUNS -/ ⟨0x2130, 24, 4, 4, .u32, .rw, 0, false, .sense, .val 0, 4294967295, [⟨31, 0, .zero⟩], 0, 1⟩,
  /- COLLISIONS -/ ⟨0x2130, 24, 5, 5, .u32, .rw, 0, false, .sense, .val 0, 4294967295, [⟨31, 0, .zero⟩], 0, 1⟩,
  /- CAL_REJECTS -/ ⟨0x2130, 24, 6, 6, .u32, .rw, 0, false, .sense, .val 0, 4294967295, [⟨31, 0, .zero⟩], 0, 1⟩,
  /- AGED_SAMPLES -/ ⟨0x2130, 24, 7, 7, .u32, .rw, 0, false, .sense, .val 0, 4294967295, [⟨31, 0, .zero⟩], 0, 1⟩,
  /- ARM -/ ⟨0x2160, 2, 1, 1, .u8, .rw, 0, false, .sense, .val 0, 255, [⟨7, 0, .rng 0 2⟩], 0, 1⟩,
  /- START_SRC -/ ⟨0x2160, 2, 2, 2, .u8, .rws, 0, false, .sense, .val 16, 255, [⟨7, 0, .auxSrc⟩], 0, 2⟩,
  /- STOP_SRC -/ ⟨0x2160, 2, 3, 3, .u8, .rws, 0, false, .sense, .val 17, 255, [⟨7, 0, .auxSrc⟩], 0, 2⟩,
  /- START_FALLING, STOP_FALLING -/ ⟨0x2160, 2, 4, 4, .u8, .rws, 0, false, .sense, .val 0, 3, [], 0, 2⟩,
  /- SIGNED -/ ⟨0x2160, 2, 5, 5, .bool, .rws, 0, false, .sense, .val 1, 1, [], 0, 2⟩,
  /- TIMEOUT -/ ⟨0x2160, 2, 6, 6, .u32, .rws, 0, false, .sense, .val 0, 4294967295, [⟨31, 0, .rng 0 86400000⟩], 0, 2⟩,
  /- VALID, COINCIDENT, COARSE_ONLY, TIMEOUT, OVERWRITTEN, ABORTE -/ ⟨0x2168, 2, 1, 1, .u8, .ro, 0, false, .sense, .val 0, 0, [], 0, 0⟩,
  /- RESULT -/ ⟨0x2168, 2, 2, 2, .i64, .ro, 0, false, .sense, .val 0, 0, [], 0, 0⟩,
  /- START_TS -/ ⟨0x2168, 2, 3, 3, .ts128, .ro, 0, false, .sense, .val 0, 0, [], 0, 0⟩,
  /- STOP_TS -/ ⟨0x2168, 2, 4, 4, .ts128, .ro, 0, false, .sense, .val 0, 0, [], 0, 0⟩,
  /- COMPLETED -/ ⟨0x2168, 2, 5, 5, .u32, .rw, 0, false, .sense, .val 0, 4294967295, [⟨31, 0, .zero⟩], 0, 1⟩,
  /- STOP_BEFORE_START -/ ⟨0x2168, 2, 6, 6, .u32, .rw, 0, false, .sense, .val 0, 4294967295, [⟨31, 0, .zero⟩], 0, 1⟩,
  /- EXTRA_EVENTS -/ ⟨0x2168, 2, 7, 7, .u32, .rw, 0, false, .sense, .val 0, 4294967295, [⟨31, 0, .zero⟩], 0, 1⟩,
  /- TIMEOUTS -/ ⟨0x2168, 2, 8, 8, .u32, .rw, 0, false, .sense, .val 0, 4294967295, [⟨31, 0, .zero⟩], 0, 1⟩,
  /- PIN_ENABLE -/ ⟨0x2170, 1, 1, 1, .u8, .rws, 0, false, .sense, .val 0, 15, [], 0, 2⟩,
  /- EDGE_SEL -/ ⟨0x2170, 1, 2, 2, .u8, .rws, 0, false, .sense, .val 85, 255, [⟨7, 0, .edgeSel⟩], 0, 2⟩,
  /- FIFO_LEVEL -/ ⟨0x2170, 1, 3, 3, .u8, .ro, 0, false, .sense, .val 0, 0, [], 0, 0⟩,
  /- LOST -/ ⟨0x2170, 1, 4, 4, .u32, .rw, 0, false, .sense, .val 0, 4294967295, [⟨31, 0, .zero⟩], 0, 1⟩,
  /- FIRST_LOST_SEQ -/ ⟨0x2170, 1, 5, 5, .u8, .ro, 0, false, .sense, .val 0, 0, [], 0, 0⟩,
  /- NEXT_SEQ -/ ⟨0x2170, 1, 6, 6, .u8, .ro, 0, false, .sense, .val 0, 0, [], 0, 0⟩,
  /- CAPTURE_HEAD -/ ⟨0x2171, 1, 1, 1, .ts128, .ro, 0, false, .sense, .val 0, 0, [], 0, 0⟩,
  /- TIME_ACC -/ ⟨0x2210, 1, 1, 16, .u32, .rws, 0, false, .loop, .bySub [30000, 100000, 4294967295, 4294967295, 1000000, 1500000, 3000000, 10000000, 4294967295, 4294967295, 4294967295, 4294967295, 4294967295, 4294967295, 4294967295, 4294967295], 4294967295, [], 0, 2⟩,
  /- FREQ_ACC -/ ⟨0x2211, 1, 1, 16, .u32, .rws, 0, false, .loop, .bySub [1, 10, 1, 10, 1000, 10000, 4600000, 4600000, 4294967295, 20000000, 4294967295, 4294967295, 4294967295, 4294967295, 4294967295, 4294967295], 4294967295, [⟨31, 0, .rng 1 4294967295⟩], 0, 2⟩,
  /- TIME_ACC_OVERRIDE -/ ⟨0x2212, 1, 1, 28, .u32, .rws, 0, false, .loop, .val 0, 4294967295, [], 0, 2⟩]

/-- Rows of indices 0x2000 onward, part 3. -/
def rows2c : List Row := [
  /- PATH_UNC -/ ⟨0x2213, 1, 1, 28, .u32, .rws, 0, false, .loop, .val 0, 4294967295, [], 0, 2⟩]

/-- Rows of indices 0x3000 onward, part 1. -/
def rows3a : List Row := [
  /- ENABLE -/ ⟨0x3000, 8, 1, 1, .bool, .rws, 0, false, .loop, .val 0, 1, [], 0, 2⟩,
  /- TC_BANDWIDTH -/ ⟨0x3000, 8, 2, 2, .u32, .rws, 0, false, .loop, .byInst [500, 100000, 100000, 100000, 100000, 100000, 100000, 100000], 4294967295, [⟨31, 0, .rng 1 120000000⟩], 0, 2⟩,
  /- DAMPING -/ ⟨0x3000, 8, 3, 3, .u16, .rws, 0, false, .loop, .val 4000, 65535, [⟨15, 0, .rng 500 20000⟩], 0, 2⟩,
  /- REVERTIVE, SELECT_BY_QL, SWITCH_MODE, HYBRID -/ ⟨0x3000, 8, 4, 4, .u8, .rws, 0, false, .loop, .byInst [16, 0, 0, 0, 0, 0, 0, 0], 248, [⟨5, 4, .rng 0 1⟩], 0, 2⟩,
  /- PHASE_SLOPE_LIMIT -/ ⟨0x3000, 8, 5, 5, .u32, .rws, 0, false, .loop, .byInst [10000, 0, 0, 0, 0, 0, 0, 0], 4294967295, [⟨31, 0, .zeroOr 1000 250000000⟩], 0, 2⟩,
  /- FREQ_RAMP -/ ⟨0x3000, 8, 6, 6, .u32, .rws, 0, false, .loop, .byInst [1000000, 0, 0, 0, 0, 0, 0, 0], 4294967295, [], 0, 2⟩,
  /- LOCK_PHASE -/ ⟨0x3000, 8, 7, 7, .u32, .rws, 0, false, .loop, .val 10000, 4294967295, [⟨31, 0, .rng 10 100000000⟩], 0, 2⟩,
  /- LOCK_FREQ -/ ⟨0x3000, 8, 8, 8, .u32, .rws, 0, false, .loop, .val 10000, 4294967295, [⟨31, 0, .rng 1 250000000⟩], 0, 2⟩,
  /- LOCK_TIME -/ ⟨0x3000, 8, 9, 9, .u16, .rws, 0, false, .loop, .val 2, 65535, [⟨15, 0, .rng 1 3600⟩], 0, 2⟩,
  /- UNLOCK_PHASE -/ ⟨0x3000, 8, 10, 10, .u32, .rws, 0, false, .loop, .val 1000000, 4294967295, [], 0, 2⟩,
  /- ACQUIRE_TIMEOUT -/ ⟨0x3000, 8, 11, 11, .u16, .rws, 0, false, .loop, .val 300, 65535, [⟨15, 0, .rng 0 3600⟩], 0, 2⟩,
  /- TRUMP -/ ⟨0x3000, 8, 12, 12, .u8, .rw, 0, false, .loop, .val 255, 255, [⟨7, 0, .orFF 0 27⟩], 0, 1⟩,
  /- FORCE_MODE -/ ⟨0x3000, 8, 13, 13, .u8, .rw, 0, false, .loop, .val 0, 255, [⟨7, 0, .rng 0 2⟩], 0, 1⟩,
  /- STEP_ALLOW -/ ⟨0x3000, 8, 14, 14, .u8, .rws, 0, false, .loop, .val 1, 255, [⟨7, 0, .rng 0 2⟩], 0, 2⟩,
  /- STEP_THRESHOLD -/ ⟨0x3000, 8, 15, 15, .u32, .rws, 0, false, .loop, .val 1000, 4294967295, [⟨31, 0, .rng 10 1000000000⟩], 0, 2⟩,
  /- HYBRID_PHASE_BW -/ ⟨0x3000, 8, 16, 16, .u32, .rws, 0, false, .loop, .val 100, 4294967295, [⟨31, 0, .rng 1 12000000⟩], 0, 2⟩,
  /- REALIGN -/ ⟨0x3000, 8, 17, 17, .bool, .wo, 0, false, .loop, .val 0, 1, [], 0, 1⟩,
  /- LO_ABSENT, SUSPENDED, SWITCHING, BW_CLAMPED, STEER_CLAMPED,  -/ ⟨0x3010, 8, 1, 1, .u16, .ro, 0, false, .loop, .val 0, 0, [], 0, 0⟩,
  /- SELECTED -/ ⟨0x3010, 8, 2, 2, .u8, .ro, 0, false, .loop, .val 255, 0, [], 0, 0⟩,
  /- SELECTED_PHASE -/ ⟨0x3010, 8, 3, 3, .u8, .ro, 0, false, .loop, .val 255, 0, [], 0, 0⟩,
  /- PHASE_ERROR -/ ⟨0x3010, 8, 4, 4, .i32, .ro, 0, false, .loop, .val 0, 0, [], 0, 0⟩,
  /- FREQ_OFFSET -/ ⟨0x3010, 8, 5, 5, .i32, .ro, 0, false, .loop, .val 0, 0, [], 0, 0⟩,
  /- BUILD_OUT_OFFSET -/ ⟨0x3010, 8, 6, 6, .i64, .ro, 0, false, .loop, .val 0, 0, [], 0, 0⟩,
  /- SLEW_REMAIN -/ ⟨0x3010, 8, 7, 7, .i64, .ro, 0, false, .loop, .val 0, 0, [], 0, 0⟩,
  /- EFFECTIVE_BW -/ ⟨0x3010, 8, 8, 8, .u32, .ro, 0, false, .loop, .val 0, 0, [], 0, 0⟩,
  /- LAST_SWITCH_BOUND -/ ⟨0x3010, 8, 9, 9, .u32, .ro, 0, false, .loop, .val 4294967295, 0, [], 0, 0⟩,
  /- LAST_CHANGE -/ ⟨0x3010, 8, 10, 10, .ts128, .ro, 0, false, .loop, .val 0, 0, [], 0, 0⟩,
  /- SWITCHES_PLANNED -/ ⟨0x3010, 8, 11, 11, .u32, .rw, 0, false, .loop, .val 0, 4294967295, [⟨31, 0, .zero⟩], 0, 1⟩,
  /- SWITCHES_UNPLANNED -/ ⟨0x3010, 8, 12, 12, .u32, .rw, 0, false, .loop, .val 0, 4294967295, [⟨31, 0, .zero⟩], 0, 1⟩,
  /- LOCK_LOSSES -/ ⟨0x3010, 8, 13, 13, .u32, .rw, 0, false, .loop, .val 0, 4294967295, [⟨31, 0, .zero⟩], 0, 1⟩,
  /- STATE_CHANGES -/ ⟨0x3010, 8, 14, 14, .u32, .rw, 0, false, .loop, .val 0, 4294967295, [⟨31, 0, .zero⟩], 0, 1⟩,
  /- ACQUIRE_TIMEOUTS -/ ⟨0x3010, 8, 15, 15, .u32, .rw, 0, false, .loop, .val 0, 4294967295, [⟨31, 0, .zero⟩], 0, 1⟩,
  /- CANDIDATE, LOCKOUT, ROLE, PRIORITY -/ ⟨0x3100, 8, 1, 28, .u16, .rws, 0, false, .loop, .val 65280, 65519, [⟨15, 8, .orFF 0 27⟩, ⟨6, 5, .rng 0 2⟩], 0, 2⟩,
  /- SHADOW -/ ⟨0x3110, 8, 1, 28, .i32, .ro, 0, false, .loop, .val 2147483648, 0, [], 0, 0⟩,
  /- SHADOW_SE, SHADOW_COUNT -/ ⟨0x3118, 8, 1, 28, .u32, .ro, 0, false, .loop, .val 4294901760, 0, [], 0, 0⟩,
  /- MODEL_READY, LEARN_PAUSE -/ ⟨0x3020, 8, 1, 1, .u8, .ro, 0, false, .loop, .val 0, 0, [], 0, 0⟩,
  /- A0 -/ ⟨0x3020, 8, 2, 2, .i64, .ro, 0, false, .loop, .val 0, 0, [], 0, 0⟩,
  /- A1 -/ ⟨0x3020, 8, 3, 3, .i32, .ro, 0, false, .loop, .val 0, 0, [], 0, 0⟩,
  /- C1 -/ ⟨0x3020, 8, 4, 4, .i32, .ro, 0, false, .loop, .val 0, 0, [], 0, 0⟩,
  /- C2 -/ ⟨0x3020, 8, 5, 5, .i32, .ro, 0, false, .loop, .val 0, 0, [], 0, 0⟩]

/-- Rows of indices 0x3000 onward, part 2. -/
def rows3b : List Row := [
  /- T0 -/ ⟨0x3020, 8, 6, 6, .i32, .ro, 0, false, .loop, .val 0, 0, [], 0, 0⟩,
  /- T_REF -/ ⟨0x3020, 8, 7, 7, .ts128, .ro, 0, false, .loop, .val 0, 0, [], 0, 0⟩,
  /- U_F0 -/ ⟨0x3020, 8, 8, 8, .u32, .ro, 0, false, .loop, .val 4294967295, 0, [], 0, 0⟩,
  /- U_D -/ ⟨0x3020, 8, 9, 9, .u32, .ro, 0, false, .loop, .val 4294967295, 0, [], 0, 0⟩,
  /- U_T -/ ⟨0x3020, 8, 10, 10, .u32, .ro, 0, false, .loop, .val 4294967295, 0, [], 0, 0⟩,
  /- Q -/ ⟨0x3020, 8, 11, 11, .u32, .ro, 0, false, .loop, .val 0, 0, [], 0, 0⟩,
  /- EPOCHS -/ ⟨0x3020, 8, 12, 12, .u32, .ro, 0, false, .loop, .val 0, 0, [], 0, 0⟩,
  /- TEMP_MIN -/ ⟨0x3020, 8, 13, 13, .i32, .ro, 0, false, .loop, .val 0, 0, [], 0, 0⟩,
  /- TEMP_MAX -/ ⟨0x3020, 8, 14, 14, .i32, .ro, 0, false, .loop, .val 0, 0, [], 0, 0⟩,
  /- TEMP_NOW -/ ⟨0x3020, 8, 15, 15, .i32, .ro, 0, false, .loop, .val 0, 0, [], 0, 0⟩,
  /- HOLDOVER_ELAPSED -/ ⟨0x3020, 8, 16, 16, .u32, .ro, 0, false, .loop, .val 0, 0, [], 0, 0⟩,
  /- ENSEMBLE_COUNT -/ ⟨0x3020, 8, 17, 17, .u8, .ro, 0, false, .loop, .val 0, 0, [], 0, 0⟩,
  /- ENSEMBLE_EXCLUSIONS -/ ⟨0x3020, 8, 18, 18, .u32, .rw, 0, false, .loop, .val 0, 4294967295, [⟨31, 0, .zero⟩], 0, 1⟩,
  /- MODEL_RESET -/ ⟨0x3020, 8, 19, 19, .bool, .wo, 0, false, .loop, .val 0, 1, [], 0, 1⟩,
  /- AGEING_PRIOR -/ ⟨0x3020, 8, 32, 32, .i32, .rws, 0, false, .loop, .val 0, 4294967295, [], 0, 2⟩,
  /- AGEING_PRIOR_UNC -/ ⟨0x3020, 8, 33, 33, .u32, .rws, 0, false, .loop, .val 500000, 4294967295, [], 0, 2⟩,
  /- TEMP_PRIOR_UNC -/ ⟨0x3020, 8, 34, 34, .u32, .rws, 0, false, .loop, .val 50000, 4294967295, [], 0, 2⟩,
  /- TEMP_SOURCE -/ ⟨0x3020, 8, 35, 35, .u8, .rws, 0, false, .loop, .val 0, 255, [⟨7, 0, .rng 0 1⟩], 0, 2⟩,
  /- HOST_TEMP -/ ⟨0x3020, 8, 36, 36, .i32, .rw, 0, false, .loop, .val 0, 4294967295, [⟨31, 0, .srng (-5500) 15000⟩], 0, 1⟩,
  /- HOST_TEMP_MAX_AGE -/ ⟨0x3020, 8, 37, 37, .u16, .rws, 0, false, .loop, .val 60, 65535, [⟨15, 0, .rng 1 3600⟩], 0, 2⟩,
  /- MODEL_TAU -/ ⟨0x3020, 8, 38, 38, .u32, .rws, 0, false, .loop, .val 604800, 4294967295, [⟨31, 0, .rng 3600 31536000⟩], 0, 2⟩,
  /- READY_UNC -/ ⟨0x3020, 8, 39, 39, .u32, .rws, 0, false, .loop, .val 1000, 4294967295, [⟨31, 0, .rng 1 10000000⟩], 0, 2⟩,
  /- LEARN_FREQ_MAX -/ ⟨0x3020, 8, 40, 40, .u32, .rws, 0, false, .loop, .val 100, 4294967295, [⟨31, 0, .rng 1 10000000⟩], 0, 2⟩,
  /- Q_PRIOR -/ ⟨0x3020, 8, 41, 41, .u32, .rws, 0, false, .loop, .val 100, 4294967295, [], 0, 2⟩,
  /- TEMP_INVALID_UNC -/ ⟨0x3020, 8, 42, 42, .u32, .rws, 0, false, .loop, .val 5000, 4294967295, [], 0, 2⟩,
  /- ENSEMBLE_ENABLE -/ ⟨0x3020, 8, 43, 43, .bool, .rws, 0, false, .loop, .val 1, 1, [], 0, 2⟩,
  /- HOLDOVER_MAX -/ ⟨0x3020, 8, 44, 44, .u32, .rws, 0, false, .loop, .val 0, 4294967295, [⟨31, 0, .rng 0 2592000⟩], 0, 2⟩,
  /- HOLDOVER_TEB_LIMIT -/ ⟨0x3020, 8, 45, 45, .u32, .rws, 0, false, .loop, .val 0, 4294967295, [], 0, 2⟩,
  /- FREERUN_FREQ_UNC -/ ⟨0x3020, 8, 46, 46, .u32, .rws, 0, false, .loop, .val 10000000, 4294967295, [⟨31, 0, .rng 1 250000000⟩], 0, 2⟩,
  /- TEB -/ ⟨0x3030, 8, 1, 1, .teb18, .ro, 0, false, .loop, .val 262143, 0, [], 0, 0⟩,
  /- TEB_PS -/ ⟨0x3030, 8, 2, 2, .u64, .ro, 0, false, .loop, .val 18446744073709551615, 0, [], 0, 0⟩,
  /- UNKNOWN_REASON -/ ⟨0x3030, 8, 3, 3, .u8, .ro, 0, false, .loop, .val 1, 0, [], 0, 0⟩,
  /- C_DECLARED -/ ⟨0x3030, 8, 4, 4, .u64, .ro, 0, false, .loop, .val 0, 0, [], 0, 0⟩,
  /- C_MEAS -/ ⟨0x3030, 8, 5, 5, .u64, .ro, 0, false, .loop, .val 0, 0, [], 0, 0⟩,
  /- C_SERVO -/ ⟨0x3030, 8, 6, 6, .u64, .ro, 0, false, .loop, .val 0, 0, [], 0, 0⟩,
  /- C_PHASE -/ ⟨0x3030, 8, 7, 7, .u64, .ro, 0, false, .loop, .val 0, 0, [], 0, 0⟩,
  /- C_SWITCH -/ ⟨0x3030, 8, 8, 8, .u64, .ro, 0, false, .loop, .val 0, 0, [], 0, 0⟩,
  /- C_GROWTH -/ ⟨0x3030, 8, 9, 9, .u64, .ro, 0, false, .loop, .val 0, 0, [], 0, 0⟩,
  /- WORST_LAST_MINUTE -/ ⟨0x3030, 8, 10, 10, .teb18, .ro, 0, false, .loop, .val 262143, 0, [], 0, 0⟩,
  /- BOUND_VIOLATIONS -/ ⟨0x3030, 8, 11, 11, .u32, .rw, 0, false, .loop, .val 0, 4294967295, [⟨31, 0, .zero⟩], 0, 1⟩]

/-- Rows of indices 0x3000 onward, part 3. -/
def rows3c : List Row := [
  /- LAST_VIOLATION -/ ⟨0x3030, 8, 12, 12, .ts128, .ro, 0, false, .loop, .val 0, 0, [], 0, 0⟩,
  /- TEB_K -/ ⟨0x3030, 8, 13, 13, .u16, .rws, 0, false, .loop, .val 3000, 65535, [⟨15, 0, .rng 2000 5000⟩], 0, 2⟩,
  /- TDC_SYS -/ ⟨0x3030, 8, 14, 14, .u32, .const, 0, false, .loop, .val 27, 0, [], 0, 0⟩]

/-- Rows of indices 0x4000 onward, part 1. -/
def rows4a : List Row := [
  /- SOURCE -/ ⟨0x4008, 1, 1, 1, .u8, .ro, 0, false, .mast, .val 0, 0, [], 0, 0⟩,
  /- APLL_ELIGIBLE, SYSPLL_LOCKED -/ ⟨0x4008, 1, 2, 2, .u8, .ro, 0, false, .mast, .val 0, 0, [], 0, 0⟩,
  /- MOVES_TO_APLL -/ ⟨0x4008, 1, 3, 3, .u32, .ro, 0, false, .mast, .val 0, 0, [], 0, 0⟩,
  /- MOVES_TO_LO -/ ⟨0x4008, 1, 4, 4, .u32, .ro, 0, false, .mast, .val 0, 0, [], 0, 0⟩,
  /- RETURNS -/ ⟨0x4008, 1, 5, 5, .u32, .ro, 0, false, .mast, .val 0, 0, [], 0, 0⟩,
  /- SYSPLL_RESTART_COUNT -/ ⟨0x4008, 1, 6, 6, .u32, .ro, 0, false, .mast, .val 0, 0, [], 0, 0⟩,
  /- LO_TIME_NS -/ ⟨0x4008, 1, 7, 7, .u64, .ro, 0, false, .mast, .val 0, 0, [], 0, 0⟩,
  /- NOMINAL -/ ⟨0x4000, 1, 1, 1, .u32, .rwn, 0, false, .mast, .val 25000000, 4294967295, [⟨31, 0, .rng 10000000 125000000⟩], 0, 2⟩,
  /- INPUT_MODE -/ ⟨0x4000, 1, 2, 2, .u8, .rwn, 0, false, .mast, .val 0, 255, [⟨7, 0, .rng 0 2⟩], 0, 2⟩,
  /- LO_TRIM -/ ⟨0x4000, 1, 3, 3, .i32, .rws, 0, false, .mast, .val 0, 4294967295, [⟨31, 0, .srng (-50000000) 50000000⟩], 0, 2⟩,
  /- PRESENT, OFF_NOMINAL -/ ⟨0x4000, 1, 4, 4, .u8, .ro, 0, false, .mast, .val 0, 0, [], 0, 0⟩,
  /- MEASURED_OFFSET -/ ⟨0x4000, 1, 5, 5, .i32, .ro, 0, false, .mast, .val 2147483648, 0, [], 0, 0⟩,
  /- CHECK_LIMIT -/ ⟨0x4000, 1, 6, 6, .u32, .rws, 0, false, .mast, .val 5000000, 4294967295, [], 0, 2⟩,
  /- ABSENT_COUNT -/ ⟨0x4000, 1, 7, 7, .u32, .ro, 0, false, .mast, .val 0, 0, [], 0, 0⟩,
  /- APLL_FREQ -/ ⟨0x4001, 1, 1, 1, .u32, .rwn, 0, false, .synth, .val 10000000, 4294967295, [⟨31, 0, .rng 9800000 10600000⟩], 0, 2⟩,
  /- LOCKED, BAND -/ ⟨0x4001, 1, 2, 2, .u16, .ro, 0, false, .synth, .val 0, 0, [], 0, 0⟩,
  /- LOCK_LOSSES -/ ⟨0x4001, 1, 3, 3, .u32, .rw, 0, false, .synth, .val 0, 4294967295, [⟨31, 0, .zero⟩], 0, 1⟩,
  /- SEARCHES -/ ⟨0x4001, 1, 4, 4, .u32, .rw, 0, false, .synth, .val 0, 4294967295, [⟨31, 0, .zero⟩], 0, 1⟩,
  /- ENABLE -/ ⟨0x4010, 8, 1, 1, .bool, .rws, 0, false, .synth, .val 0, 1, [], 0, 2⟩,
  /- GROUP_FREQ -/ ⟨0x4010, 8, 2, 2, .u64, .rws, 0, false, .synth, .val 2500000000000, 18446744073709551615, [], 0, 2⟩,
  /- MULT -/ ⟨0x4010, 8, 3, 3, .u8, .rws, 0, false, .synth, .val 0, 255, [⟨7, 0, .zeroOr 4 32⟩], 0, 2⟩,
  /- LOCK_K -/ ⟨0x4010, 8, 4, 4, .u8, .rws, 0, false, .synth, .val 6, 255, [⟨7, 0, .rng 6 20⟩], 0, 2⟩,
  /- LOCK_N -/ ⟨0x4010, 8, 5, 5, .u8, .rws, 0, false, .synth, .val 4, 255, [⟨7, 0, .rng 1 64⟩], 0, 2⟩,
  /- LOCK_THRESH -/ ⟨0x4010, 8, 6, 6, .u16, .rws, 0, false, .synth, .val 1, 65535, [⟨15, 0, .rng 0 1000⟩], 0, 2⟩,
  /- UNLOCK_THRESH -/ ⟨0x4010, 8, 7, 7, .u16, .rws, 0, false, .synth, .val 16, 65535, [], 0, 2⟩,
  /- FENCE_FREQ -/ ⟨0x4010, 8, 8, 8, .u32, .rws, 0, false, .synth, .val 0, 4294967295, [], 0, 2⟩,
  /- SYNC -/ ⟨0x4010, 8, 9, 9, .bool, .wo, 0, false, .synth, .val 0, 1, [], 0, 1⟩,
  /- AUTO_SYNC -/ ⟨0x4010, 8, 10, 10, .bool, .rws, 0, false, .synth, .val 1, 1, [], 0, 2⟩,
  /- RAMP_PROFILE -/ ⟨0x4010, 8, 11, 11, .u8, .rws, 0, false, .synth, .val 255, 255, [⟨7, 0, .orFF 0 7⟩], 0, 2⟩,
  /- RAMP_CTRL -/ ⟨0x4010, 8, 12, 12, .u8, .wo, 0, false, .synth, .val 0, 255, [⟨7, 0, .rng 1 3⟩], 0, 1⟩,
  /- SSC_MODE -/ ⟨0x4010, 8, 13, 13, .u8, .rws, 0, false, .synth, .val 0, 255, [⟨7, 0, .rng 0 2⟩], 0, 2⟩,
  /- SSC_DEPTH -/ ⟨0x4010, 8, 14, 14, .u8, .rws, 0, false, .synth, .val 50, 255, [], 0, 2⟩,
  /- SSC_RATE -/ ⟨0x4010, 8, 15, 15, .u32, .rws, 0, false, .synth, .val 31500, 4294967295, [⟨31, 0, .rng 30000 63000⟩], 0, 2⟩,
  /- APPLY -/ ⟨0x4010, 8, 16, 16, .bool, .wo, 0, false, .synth, .val 0, 1, [], 0, 1⟩,
  /- CACHE_USE -/ ⟨0x4010, 8, 17, 17, .bool, .rws, 0, false, .synth, .val 1, 1, [], 0, 2⟩,
  /- STAGED_DIFFERS, TIMING_GROUP, SSC_ON, RAMPING, FENCE_ACTIVE, -/ ⟨0x4018, 8, 1, 1, .u16, .ro, 0, false, .synth, .byInst [512, 0, 0, 0, 0, 0, 0, 0], 0, [], 0, 0⟩,
  /- ACTIVE_GROUP_FREQ -/ ⟨0x4018, 8, 2, 2, .u64, .ro, 0, false, .synth, .val 0, 0, [], 0, 0⟩,
  /- ACTIVE_MULT -/ ⟨0x4018, 8, 3, 3, .u8, .ro, 0, false, .synth, .val 0, 0, [], 0, 0⟩,
  /- STEERED_FREQ -/ ⟨0x4018, 8, 4, 4, .u64, .ro, 0, false, .synth, .val 0, 0, [], 0, 0⟩,
  /- BAND -/ ⟨0x4018, 8, 5, 5, .u16, .ro, 0, false, .synth, .val 0, 0, [], 0, 0⟩]

/-- Rows of indices 0x4000 onward, part 2. -/
def rows4b : List Row := [
  /- LAST_D -/ ⟨0x4018, 8, 6, 6, .i32, .ro, 0, false, .synth, .val 0, 0, [], 0, 0⟩,
  /- RAMP_OFFSET -/ ⟨0x4018, 8, 7, 7, .i32, .ro, 0, false, .synth, .val 0, 0, [], 0, 0⟩,
  /- FENCE_ACTIVE_FREQ -/ ⟨0x4018, 8, 8, 8, .u32, .ro, 0, false, .synth, .val 0, 0, [], 0, 0⟩,
  /- LOCK_LOSSES -/ ⟨0x4018, 8, 9, 9, .u32, .rw, 0, false, .synth, .val 0, 4294967295, [⟨31, 0, .zero⟩], 0, 1⟩,
  /- HOPS_CACHED -/ ⟨0x4018, 8, 10, 10, .u32, .rw, 0, false, .synth, .val 0, 4294967295, [⟨31, 0, .zero⟩], 0, 1⟩,
  /- SEARCHES_FULL -/ ⟨0x4018, 8, 11, 11, .u32, .rw, 0, false, .synth, .val 0, 4294967295, [⟨31, 0, .zero⟩], 0, 1⟩,
  /- FENCE_GATINGS -/ ⟨0x4018, 8, 12, 12, .u32, .rw, 0, false, .synth, .val 0, 4294967295, [⟨31, 0, .zero⟩], 0, 1⟩,
  /- RAMP_STOPPED -/ ⟨0x4018, 8, 13, 13, .u32, .rw, 0, false, .synth, .val 0, 4294967295, [⟨31, 0, .zero⟩], 0, 1⟩,
  /- LAST_LOCK -/ ⟨0x4018, 8, 14, 14, .ts128, .ro, 0, false, .synth, .val 0, 0, [], 0, 0⟩,
  /- BANK_V -/ ⟨0x4020, 1, 1, 4, .u8, .rws, 0, false, .synth, .val 2, 3, [⟨1, 0, .rng 0 2⟩], 0, 2⟩,
  /- MISMATCH -/ ⟨0x4020, 1, 5, 5, .u8, .ro, 0, false, .synth, .val 0, 0, [], 0, 0⟩,
  /- FORMAT -/ ⟨0x4100, 16, 1, 1, .u8, .rws, 0, false, .synth, .val 0, 255, [], 0, 2⟩,
  /- CML_SWING -/ ⟨0x4100, 16, 2, 2, .u16, .rws, 0, false, .synth, .val 600, 65535, [⟨15, 0, .cml⟩], 0, 2⟩,
  /- LVCMOS_N -/ ⟨0x4100, 16, 3, 3, .u8, .rws, 0, false, .synth, .val 0, 255, [⟨7, 0, .rng 0 2⟩], 0, 2⟩,
  /- OUT_DIV -/ ⟨0x4100, 16, 4, 4, .u32, .rws, 0, false, .synth, .val 16, 4294967295, [⟨31, 0, .rng 1 4294967295⟩], 0, 2⟩,
  /- PHASE_ADJ -/ ⟨0x4100, 16, 5, 5, .i64, .rws, 0, false, .synth, .val 0, 18446744073709551615, [], 0, 2⟩,
  /- LOL_ACTION -/ ⟨0x4100, 16, 6, 6, .u8, .rws, 0, false, .synth, .val 1, 255, [⟨7, 0, .rng 0 2⟩], 0, 2⟩,
  /- TIMING -/ ⟨0x4100, 16, 7, 7, .bool, .rws, 0, false, .synth, .val 0, 1, [], 0, 2⟩,
  /- SYNC_MODE -/ ⟨0x4100, 16, 8, 8, .u8, .rws, 0, false, .synth, .val 0, 255, [⟨7, 0, .rng 0 1⟩], 0, 2⟩,
  /- ALIGNED, ADJUSTING, GATED, SQUELCHED, RUNNING -/ ⟨0x4100, 16, 9, 9, .u8, .ro, 0, false, .synth, .val 2, 0, [], 0, 0⟩,
  /- OUT_FREQ -/ ⟨0x4100, 16, 10, 10, .u64, .ro, 0, false, .synth, .val 0, 0, [], 0, 0⟩,
  /- OUT_TRIM -/ ⟨0x4100, 16, 11, 11, .i32, .ro, 0, false, .synth, .factory, 0, [], 0, 0⟩,
  /- GUARD_EXTENSIONS -/ ⟨0x4100, 16, 12, 12, .u32, .rw, 0, false, .synth, .val 0, 4294967295, [⟨31, 0, .zero⟩], 0, 1⟩,
  /- SQUELCHES -/ ⟨0x4100, 16, 13, 13, .u32, .rw, 0, false, .synth, .val 0, 4294967295, [⟨31, 0, .zero⟩], 0, 1⟩,
  /- SEG_COUNT -/ ⟨0x4200, 8, 1, 1, .u8, .rws, 0, false, .synth, .val 1, 255, [⟨7, 0, .rng 1 64⟩], 0, 2⟩,
  /- MODE -/ ⟨0x4200, 8, 2, 2, .u8, .rws, 0, false, .synth, .val 0, 255, [⟨7, 0, .rng 0 2⟩], 0, 2⟩,
  /- DURATION, DELTA -/ ⟨0x4210, 8, 1, 64, .u64, .rws, 0, false, .synth, .val 4294967296, 18446744073709551615, [⟨63, 32, .rng 1 4294967295⟩], 0, 2⟩,
  /- ENTRIES_USED -/ ⟨0x4300, 1, 1, 1, .u8, .ro, 0, false, .mast, .val 0, 0, [], 0, 0⟩,
  /- CLEAR -/ ⟨0x4300, 1, 2, 2, .bool, .wo, 0, false, .mast, .val 0, 1, [], 0, 1⟩,
  /- CACHE_FREEZE -/ ⟨0x4300, 1, 3, 3, .bool, .rws, 0, false, .mast, .val 0, 1, [], 0, 2⟩,
  /- ENTRY_WRITES -/ ⟨0x4300, 1, 4, 4, .u32, .ro, 0, false, .mast, .val 0, 0, [], 0, 0⟩,
  /- ENTRY -/ ⟨0x4301, 1, 1, 64, .domain, .ro, 16, false, .mast, .val 0, 0, [], 0, 0⟩]

/-- Rows of indices 0x5000 onward, part 1. -/
def rows5a : List Row := [
  /- HOST_RESERVE -/ ⟨0x5200, 8, 1, 1, .u8, .rws, 0, false, .port, .val 16, 255, [⟨7, 0, .rng 0 32⟩], 0, 2⟩,
  /- LEVEL_ENGINE -/ ⟨0x5200, 8, 2, 2, .u8, .ro, 0, false, .port, .val 0, 0, [], 0, 0⟩,
  /- LEVEL_HOST -/ ⟨0x5200, 8, 3, 3, .u8, .ro, 0, false, .port, .val 0, 0, [], 0, 0⟩,
  /- LOST -/ ⟨0x5200, 8, 4, 4, .u32, .rw, 0, false, .port, .val 0, 4294967295, [⟨31, 0, .zero⟩], 0, 1⟩,
  /- FIRST_LOST_ID -/ ⟨0x5200, 8, 5, 5, .u16, .ro, 0, false, .port, .val 0, 0, [], 0, 0⟩,
  /- STALE -/ ⟨0x5200, 8, 6, 6, .u32, .rw, 0, false, .port, .val 0, 4294967295, [⟨31, 0, .zero⟩], 0, 1⟩,
  /- ABORTED_NO_TS -/ ⟨0x5200, 8, 7, 7, .u32, .rw, 0, false, .port, .val 0, 4294967295, [⟨31, 0, .zero⟩], 0, 1⟩,
  /- HOST_HEAD -/ ⟨0x5208, 8, 1, 1, .ts128, .ro, 0, false, .port, .val 0, 0, [], 0, 0⟩,
  /- RX_DELAY_ADJ -/ ⟨0x5210, 8, 1, 1, .i32, .rws, 0, false, .port, .val 0, 4294967295, [], 0, 2⟩,
  /- TX_DELAY_ADJ -/ ⟨0x5210, 8, 2, 2, .i32, .rws, 0, false, .port, .val 0, 4294967295, [], 0, 2⟩,
  /- RX_TRIM -/ ⟨0x5210, 8, 3, 3, .i32, .ro, 0, false, .port, .factory, 0, [], 0, 0⟩,
  /- TX_TRIM -/ ⟨0x5210, 8, 4, 4, .i32, .ro, 0, false, .port, .factory, 0, [], 0, 0⟩,
  /- LATE_ACTION -/ ⟨0x5220, 8, 1, 1, .u8, .rws, 0, false, .port, .val 0, 255, [⟨7, 0, .rng 0 1⟩], 0, 2⟩,
  /- LATE_TOLERANCE -/ ⟨0x5220, 8, 2, 2, .u16, .rws, 0, false, .port, .val 100, 65535, [⟨15, 0, .rng 0 10000⟩], 0, 2⟩,
  /- LEVEL -/ ⟨0x5220, 8, 3, 3, .u16, .ro, 0, false, .port, .val 0, 0, [], 0, 0⟩,
  /- LAUNCHED -/ ⟨0x5220, 8, 4, 4, .u32, .rw, 0, false, .port, .val 0, 4294967295, [⟨31, 0, .zero⟩], 0, 1⟩,
  /- LATE_DISCARDED -/ ⟨0x5220, 8, 5, 5, .u32, .rw, 0, false, .port, .val 0, 4294967295, [⟨31, 0, .zero⟩], 0, 1⟩,
  /- LATE_SENT -/ ⟨0x5220, 8, 6, 6, .u32, .rw, 0, false, .port, .val 0, 4294967295, [⟨31, 0, .zero⟩], 0, 1⟩,
  /- FULL_REFUSED -/ ⟨0x5220, 8, 7, 7, .u32, .rw, 0, false, .port, .val 0, 4294967295, [⟨31, 0, .zero⟩], 0, 1⟩,
  /- ENABLE -/ ⟨0x5000, 8, 1, 1, .bool, .rws, 0, false, .port, .val 0, 1, [], 0, 2⟩,
  /- RATE -/ ⟨0x5000, 8, 2, 2, .u8, .rws, 0, false, .port, .val 2, 255, [⟨7, 0, .rng 1 3⟩], 0, 2⟩,
  /- FEC, SGMII, AN_ENABLE -/ ⟨0x5000, 8, 3, 3, .u8, .rws, 0, false, .port, .val 4, 60, [⟨5, 4, .rng 0 2⟩], 0, 2⟩,
  /- MAC_ADDR -/ ⟨0x5000, 8, 4, 4, .u64, .rws, 0, false, .port, .factory, 281474976710655, [], 0, 2⟩,
  /- MAX_FRAME -/ ⟨0x5000, 8, 5, 5, .u16, .rws, 0, false, .port, .val 1522, 65535, [⟨15, 0, .rng 64 9600⟩], 0, 2⟩,
  /- TX_GROUP -/ ⟨0x5000, 8, 6, 6, .u8, .rws, 0, false, .port, .val 255, 255, [⟨7, 0, .orFF 0 7⟩], 0, 2⟩,
  /- FLOW_MODE -/ ⟨0x5000, 8, 7, 7, .u8, .rws, 0, false, .port, .val 0, 255, [⟨7, 0, .rng 0 2⟩], 0, 2⟩,
  /- PAUSE_RX_MODE -/ ⟨0x5000, 8, 8, 8, .u8, .rws, 0, false, .port, .val 1, 255, [⟨7, 0, .rng 0 2⟩], 0, 2⟩,
  /- KEEP_FCS, DELIVER_BAD, UDP_CHECK, IPV4_CHECK -/ ⟨0x5000, 8, 9, 9, .u8, .rws, 0, false, .port, .val 3, 15, [], 0, 2⟩,
  /- UDP4_ONE_STEP -/ ⟨0x5000, 8, 10, 10, .u8, .rws, 0, false, .port, .val 0, 255, [⟨7, 0, .rng 0 1⟩], 0, 2⟩,
  /- ALL_MULTI -/ ⟨0x5000, 8, 11, 11, .bool, .rws, 0, false, .port, .val 0, 1, [], 0, 2⟩,
  /- TX_THRESHOLD -/ ⟨0x5000, 8, 12, 12, .u8, .rws, 0, false, .port, .val 2, 255, [⟨7, 0, .rng 1 38⟩], 0, 2⟩,
  /- EEE_ENABLE -/ ⟨0x5000, 8, 13, 13, .bool, .rws, 0, false, .port, .val 0, 1, [], 0, 2⟩,
  /- EEE_MODE -/ ⟨0x5000, 8, 14, 14, .u8, .rws, 0, false, .port, .val 0, 255, [⟨7, 0, .rng 0 1⟩], 0, 2⟩,
  /- TX_WAKE -/ ⟨0x5000, 8, 15, 15, .u32, .rws, 0, false, .port, .val 20000, 4294967295, [⟨31, 0, .rng 100 1000000⟩], 0, 2⟩,
  /- RX_WAKE -/ ⟨0x5000, 8, 16, 16, .u32, .rws, 0, false, .port, .val 20000, 4294967295, [⟨31, 0, .rng 100 1000000⟩], 0, 2⟩,
  /- LPI_IDLE_DELAY -/ ⟨0x5000, 8, 17, 17, .u32, .rws, 0, false, .port, .val 100000, 4294967295, [⟨31, 0, .rng 1000 100000000⟩], 0, 2⟩,
  /- DEFAULT_PRIO -/ ⟨0x5000, 8, 18, 18, .u8, .rws, 0, false, .port, .val 0, 255, [⟨7, 0, .rng 0 7⟩], 0, 2⟩,
  /- PAUSE_TIME -/ ⟨0x5000, 8, 19, 19, .u16, .rws, 0, false, .port, .val 4096, 65535, [⟨15, 0, .rng 2 65535⟩], 0, 2⟩,
  /- SPEED_REFUSED, TX_REF_FALLBACK, TX_LPI, RX_LPI, AN_COMPLETE, -/ ⟨0x5010, 8, 1, 1, .u16, .ro, 0, false, .port, .val 0, 0, [], 0, 0⟩,
  /- PFC_PAUSED -/ ⟨0x5010, 8, 2, 2, .u8, .ro, 0, false, .port, .val 0, 0, [], 0, 0⟩]

/-- Rows of indices 0x5000 onward, part 2. -/
def rows5b : List Row := [
  /- ACTIVE_THRESHOLD -/ ⟨0x5010, 8, 3, 3, .u8, .ro, 0, false, .port, .val 2, 0, [], 0, 0⟩,
  /- TX_REF_REASON -/ ⟨0x5010, 8, 4, 4, .u8, .ro, 0, false, .port, .val 0, 0, [], 0, 0⟩,
  /- PAUSE_REMAIN -/ ⟨0x5010, 8, 5, 5, .u32, .ro, 0, false, .port, .val 0, 0, [], 0, 0⟩,
  /- LAST_LINK_CHANGE -/ ⟨0x5010, 8, 6, 6, .ts128, .ro, 0, false, .port, .val 0, 0, [], 0, 0⟩,
  /- RX_OCTETS: octets of frames delivered or consumed with good  -/ ⟨0x5020, 8, 1, 1, .u64, .ro, 0, false, .port, .val 0, 0, [], 0, 0⟩,
  /- TX_OCTETS: octets of frames with status SENT -/ ⟨0x5020, 8, 2, 2, .u64, .ro, 0, false, .port, .val 0, 0, [], 0, 0⟩,
  /- RX_FRAMES: frames with good check -/ ⟨0x5020, 8, 3, 3, .u32, .ro, 0, false, .port, .val 0, 0, [], 0, 0⟩,
  /- TX_FRAMES: frames with status SENT -/ ⟨0x5020, 8, 4, 4, .u32, .ro, 0, false, .port, .val 0, 0, [], 0, 0⟩,
  /- RX_FCS_ERRORS -/ ⟨0x5020, 8, 5, 5, .u32, .ro, 0, false, .port, .val 0, 0, [], 0, 0⟩,
  /- RX_RUNTS -/ ⟨0x5020, 8, 6, 6, .u32, .ro, 0, false, .port, .val 0, 0, [], 0, 0⟩,
  /- RX_OVERSIZE -/ ⟨0x5020, 8, 7, 7, .u32, .ro, 0, false, .port, .val 0, 0, [], 0, 0⟩,
  /- RX_CODE_ERRORS: frames ending in a PCS error or a link loss -/ ⟨0x5020, 8, 8, 8, .u32, .ro, 0, false, .port, .val 0, 0, [], 0, 0⟩,
  /- RX_IPV4_CSUM_ERRORS -/ ⟨0x5020, 8, 9, 9, .u32, .ro, 0, false, .port, .val 0, 0, [], 0, 0⟩,
  /- RX_UDP_CSUM_ERRORS -/ ⟨0x5020, 8, 10, 10, .u32, .ro, 0, false, .port, .val 0, 0, [], 0, 0⟩,
  /- RX_NOT_ACCEPTED -/ ⟨0x5020, 8, 11, 11, .u32, .ro, 0, false, .port, .val 0, 0, [], 0, 0⟩,
  /- RX_NO_DESC -/ ⟨0x5020, 8, 12, 12, .u32, .ro, 0, false, .port, .val 0, 0, [], 0, 0⟩,
  /- RX_NO_CELL_START -/ ⟨0x5020, 8, 13, 13, .u32, .ro, 0, false, .port, .val 0, 0, [], 0, 0⟩,
  /- RX_NO_CELL_MIDFRAME -/ ⟨0x5020, 8, 14, 14, .u32, .ro, 0, false, .port, .val 0, 0, [], 0, 0⟩,
  /- RX_DROPPED_CLOCK_FALLBACK (R209) -/ ⟨0x5020, 8, 15, 15, .u32, .ro, 0, false, .port, .val 0, 0, [], 0, 0⟩,
  /- RX_MAC_CONTROL_UNKNOWN -/ ⟨0x5020, 8, 16, 16, .u32, .ro, 0, false, .port, .val 0, 0, [], 0, 0⟩,
  /- RX_PAUSE -/ ⟨0x5020, 8, 17, 17, .u32, .ro, 0, false, .port, .val 0, 0, [], 0, 0⟩,
  /- RX_PFC -/ ⟨0x5020, 8, 18, 18, .u32, .ro, 0, false, .port, .val 0, 0, [], 0, 0⟩,
  /- RX_FLOW_IGNORED -/ ⟨0x5020, 8, 19, 19, .u32, .ro, 0, false, .port, .val 0, 0, [], 0, 0⟩,
  /- RX_BAD_DELIVERED -/ ⟨0x5020, 8, 20, 20, .u32, .ro, 0, false, .port, .val 0, 0, [], 0, 0⟩,
  /- RX_EARLY_WAKE -/ ⟨0x5020, 8, 21, 21, .u32, .ro, 0, false, .port, .val 0, 0, [], 0, 0⟩,
  /- RX_LPI_ENTRIES -/ ⟨0x5020, 8, 22, 22, .u32, .ro, 0, false, .port, .val 0, 0, [], 0, 0⟩,
  /- TX_PAUSE -/ ⟨0x5020, 8, 23, 23, .u32, .ro, 0, false, .port, .val 0, 0, [], 0, 0⟩,
  /- TX_PFC -/ ⟨0x5020, 8, 24, 24, .u32, .ro, 0, false, .port, .val 0, 0, [], 0, 0⟩,
  /- TX_UNDERRUNS -/ ⟨0x5020, 8, 25, 25, .u32, .ro, 0, false, .port, .val 0, 0, [], 0, 0⟩,
  /- TX_BAD_DESC -/ ⟨0x5020, 8, 26, 26, .u32, .ro, 0, false, .port, .val 0, 0, [], 0, 0⟩,
  /- TX_LINK_DOWN_FLUSHED -/ ⟨0x5020, 8, 27, 27, .u32, .ro, 0, false, .port, .val 0, 0, [], 0, 0⟩,
  /- TX_LAUNCH_TIME_IGNORED (R201, R217) -/ ⟨0x5020, 8, 28, 28, .u32, .ro, 0, false, .port, .val 0, 0, [], 0, 0⟩,
  /- TX_LPI_ENTRIES -/ ⟨0x5020, 8, 29, 29, .u32, .ro, 0, false, .port, .val 0, 0, [], 0, 0⟩,
  /- TX_REF_FALLBACKS -/ ⟨0x5020, 8, 30, 30, .u32, .ro, 0, false, .port, .val 0, 0, [], 0, 0⟩,
  /- LINK_DOWNS -/ ⟨0x5020, 8, 31, 31, .u32, .ro, 0, false, .port, .val 0, 0, [], 0, 0⟩,
  /- FEC_CORRECTED: codewords corrected -/ ⟨0x5020, 8, 32, 32, .u32, .ro, 0, false, .port, .val 0, 0, [], 0, 0⟩,
  /- FEC_UNCORRECTED: codewords not correctable -/ ⟨0x5020, 8, 33, 33, .u32, .ro, 0, false, .port, .val 0, 0, [], 0, 0⟩,
  /- TOTAL_CELLS -/ ⟨0x5100, 1, 1, 1, .u16, .const, 0, false, .fabric, .val 12288, 0, [], 0, 0⟩,
  /- SHARED_CELLS -/ ⟨0x5100, 1, 2, 2, .u16, .ro, 0, false, .fabric, .val 0, 0, [], 0, 0⟩,
  /- SHARED_FREE -/ ⟨0x5100, 1, 3, 3, .u16, .ro, 0, false, .fabric, .val 0, 0, [], 0, 0⟩]

/-- Rows of indices 0x5000 onward, part 3. -/
def rows5c : List Row := [
  /- SHARED_LOW_WATER -/ ⟨0x5100, 1, 4, 4, .u16, .rw, 0, false, .fabric, .val 65535, 65535, [], 0, 1⟩,
  /- SLOTS_USED -/ ⟨0x5100, 1, 5, 5, .u16, .ro, 0, false, .fabric, .val 12416, 0, [], 0, 0⟩,
  /- RESERVE, SHARED_LIMIT, SLOTS, XOFF_CREDIT, XON_CREDIT, FLOW_ -/ ⟨0x5110, 8, 1, 5, .u64, .rws, 0, false, .fabric, .bySub [288230384741646448, 144115192370823280, 9007199523176560, 36046390284023936, 72127967082346624], 18446744073709551600, [⟨35, 24, .rng 1 4095⟩], 0, 2⟩,
  /- RESERVE, SLOTS -/ ⟨0x5118, 8, 1, 3, .u32, .rws, 0, false, .fabric, .bySub [67125248, 33562624, 33558528], 4294967232, [⟨17, 6, .rng 1 4095⟩], 0, 2⟩,
  /- CELLS_USED, WAITING -/ ⟨0x5120, 8, 1, 5, .u32, .ro, 0, false, .fabric, .val 0, 0, [], 0, 0⟩,
  /- XOFF_STATE -/ ⟨0x5120, 8, 6, 6, .u8, .ro, 0, false, .fabric, .val 0, 0, [], 0, 0⟩,
  /- LAST_HOST_STATUS -/ ⟨0x5120, 8, 7, 7, .u8, .ro, 0, false, .fabric, .val 0, 0, [], 0, 0⟩,
  /- LAST_HOST_ID -/ ⟨0x5120, 8, 8, 8, .u16, .ro, 0, false, .fabric, .val 0, 0, [], 0, 0⟩,
  /- HOST_FRAME_RX -/ ⟨0x5130, 8, 1, 1, .domain, .ro, 1048576, true, .fabric, .val 0, 0, [], 0, 0⟩,
  /- HOST_FRAME_TX -/ ⟨0x5138, 8, 1, 1, .domain, .wo, 1048576, true, .fabric, .val 0, 0, [], 0, 1⟩]

/-- Rows of indices 0x6000 onward, part 1. -/
def rows6a : List Row := [
  /- HAND_LENGTH -/ ⟨0x6000, 1, 1, 1, .u32, .rwn, 0, false, .mast, .val 7812500, 4294967295, [], 0, 2⟩,
  /- CLOSE_GUARD -/ ⟨0x6000, 1, 2, 2, .u32, .rwd, 0, false, .mast, .val 100000, 4294967295, [], 0, 2⟩,
  /- DRAIN_TIME -/ ⟨0x6000, 1, 3, 3, .u32, .rwd, 0, false, .mast, .val 20000, 4294967295, [], 0, 2⟩,
  /- COMMIT_LIMIT -/ ⟨0x6000, 1, 4, 4, .u16, .rwd, 0, false, .mast, .val 2048, 65535, [⟨15, 0, .rng 64 16384⟩], 0, 2⟩,
  /- COMPOSE_LEAD -/ ⟨0x6000, 1, 5, 5, .u32, .rwd, 0, false, .mast, .val 20000, 4294967295, [⟨31, 0, .rng 2000 500000⟩], 0, 2⟩,
  /- DOZE_MARGIN -/ ⟨0x6000, 1, 6, 6, .u32, .rws, 0, false, .mast, .val 2000, 4294967295, [⟨31, 0, .rng 0 100000⟩], 0, 2⟩,
  /- HAND_NUMBER -/ ⟨0x6001, 1, 1, 1, .u64, .ro, 0, false, .mast, .val 0, 0, [], 0, 0⟩,
  /- DEAL_INSTANT -/ ⟨0x6001, 1, 2, 2, .ts128, .ro, 0, false, .mast, .val 0, 0, [], 0, 0⟩,
  /- LAST_PROC_NS -/ ⟨0x6001, 1, 3, 3, .u32, .ro, 0, false, .mast, .val 0, 0, [], 0, 0⟩,
  /- WORST_PROC_NS -/ ⟨0x6001, 1, 4, 4, .u32, .rw, 0, false, .mast, .val 0, 4294967295, [⟨31, 0, .zero⟩], 0, 1⟩,
  /- DEAL_OVERRUNS -/ ⟨0x6001, 1, 5, 5, .u32, .rw, 0, false, .mast, .val 0, 4294967295, [⟨31, 0, .zero⟩], 0, 1⟩,
  /- LAST_OVERRUN_NS -/ ⟨0x6001, 1, 6, 6, .u32, .ro, 0, false, .mast, .val 0, 0, [], 0, 0⟩,
  /- DEALS_BACKLOGGED -/ ⟨0x6001, 1, 7, 7, .u32, .rw, 0, false, .mast, .val 0, 4294967295, [⟨31, 0, .zero⟩], 0, 1⟩,
  /- COMMITS_DEFERRED -/ ⟨0x6001, 1, 8, 8, .u32, .rw, 0, false, .mast, .val 0, 4294967295, [⟨31, 0, .zero⟩], 0, 1⟩,
  /- HANDS_SKIPPED -/ ⟨0x6001, 1, 9, 9, .u32, .rw, 0, false, .mast, .val 0, 4294967295, [⟨31, 0, .zero⟩], 0, 1⟩,
  /- HAND_REWINDS -/ ⟨0x6001, 1, 10, 10, .u32, .rw, 0, false, .mast, .val 0, 4294967295, [⟨31, 0, .zero⟩], 0, 1⟩,
  /- LAST_WRITEBACK_MAX -/ ⟨0x6001, 1, 11, 11, .u16, .ro, 0, false, .mast, .val 0, 0, [], 0, 0⟩,
  /- ACTIVE_BANK -/ ⟨0x6008, 8, 1, 1, .u8, .ro, 0, false, .fabric, .val 0, 0, [], 0, 0⟩,
  /- ACTIVE_COUNT -/ ⟨0x6008, 8, 2, 2, .u16, .ro, 0, false, .fabric, .val 0, 0, [], 0, 0⟩,
  /- IDLE_COUNT -/ ⟨0x6008, 8, 3, 3, .u16, .rw, 0, false, .fabric, .val 0, 65535, [⟨15, 0, .rng 0 16384⟩], 0, 1⟩,
  /- SWAP_AT -/ ⟨0x6008, 8, 4, 4, .u64, .rw, 0, false, .fabric, .val 0, 18446744073709551615, [], 0, 1⟩,
  /- SWAP_PENDING -/ ⟨0x6008, 8, 5, 5, .bool, .ro, 0, false, .fabric, .val 0, 0, [], 0, 0⟩,
  /- PLAN_ERROR_INDEX -/ ⟨0x6008, 8, 6, 6, .u16, .ro, 0, false, .fabric, .val 65535, 0, [], 0, 0⟩,
  /- PLAN_ERROR_CODE -/ ⟨0x6008, 8, 7, 7, .u8, .ro, 0, false, .fabric, .val 0, 0, [], 0, 0⟩,
  /- SWAPS -/ ⟨0x6008, 8, 8, 8, .u32, .rw, 0, false, .fabric, .val 0, 4294967295, [⟨31, 0, .zero⟩], 0, 1⟩,
  /- LAST_SWAP_HAND -/ ⟨0x6008, 8, 9, 9, .u64, .ro, 0, false, .fabric, .val 0, 0, [], 0, 0⟩,
  /- FIRST -/ ⟨0x6010, 8, 1, 1, .u16, .rw, 0, false, .fabric, .val 0, 65535, [⟨15, 0, .rng 0 16383⟩], 0, 1⟩,
  /- TRICKS -/ ⟨0x6010, 8, 2, 2, .domain, .wo, 1048576, true, .fabric, .val 0, 0, [], 0, 1⟩,
  /- BANK -/ ⟨0x6018, 8, 1, 1, .u8, .rw, 0, false, .fabric, .val 0, 255, [⟨7, 0, .rng 0 1⟩], 0, 1⟩,
  /- FIRST -/ ⟨0x6018, 8, 2, 2, .u16, .rw, 0, false, .fabric, .val 0, 65535, [⟨15, 0, .rng 0 16383⟩], 0, 1⟩,
  /- TRICKS -/ ⟨0x6018, 8, 3, 3, .domain, .ro, 1048576, true, .fabric, .val 0, 0, [], 0, 0⟩,
  /- TRICKS_SERVED -/ ⟨0x6020, 8, 1, 1, .u32, .ro, 0, false, .fabric, .val 0, 0, [], 0, 0⟩,
  /- TRICKS_PARTIAL -/ ⟨0x6020, 8, 2, 2, .u32, .ro, 0, false, .fabric, .val 0, 0, [], 0, 0⟩,
  /- TRICKS_MISSED -/ ⟨0x6020, 8, 3, 3, .u32, .ro, 0, false, .fabric, .val 0, 0, [], 0, 0⟩,
  /- NULL_TRICKS -/ ⟨0x6020, 8, 4, 4, .u32, .ro, 0, false, .fabric, .val 0, 0, [], 0, 0⟩,
  /- TRICK_OVERFLOWS -/ ⟨0x6020, 8, 5, 5, .u32, .ro, 0, false, .fabric, .val 0, 0, [], 0, 0⟩,
  /- MISSED_DEALS -/ ⟨0x6020, 8, 6, 6, .u32, .ro, 0, false, .fabric, .val 0, 0, [], 0, 0⟩,
  /- DEAL_DISCARDED_FRAMES -/ ⟨0x6020, 8, 7, 7, .u32, .ro, 0, false, .fabric, .val 0, 0, [], 0, 0⟩,
  /- UNSCHEDULED_RX -/ ⟨0x6020, 8, 8, 8, .u32, .ro, 0, false, .fabric, .val 0, 0, [], 0, 0⟩,
  /- STALE_RX -/ ⟨0x6020, 8, 9, 9, .u32, .ro, 0, false, .fabric, .val 0, 0, [], 0, 0⟩]

/-- Rows of indices 0x6000 onward, part 2. -/
def rows6b : List Row := [
  /- MISSED_BY_REASON -/ ⟨0x6020, 8, 17, 24, .u32, .ro, 0, false, .fabric, .val 0, 0, [], 0, 0⟩,
  /- REASON, TRICK, HAND -/ ⟨0x6020, 8, 32, 32, .u64, .ro, 0, false, .fabric, .val 0, 0, [], 0, 0⟩,
  /- INDEX -/ ⟨0x6100, 1, 1, 1, .u32, .rw, 0, false, .fabric, .val 0, 4294967295, [], 0, 1⟩,
  /- HOST -/ ⟨0x6100, 1, 2, 2, .domain, .rw, 32, false, .fabric, .val 0, 0, [], 0, 1⟩,
  /- DEVICE -/ ⟨0x6100, 1, 3, 3, .domain, .ro, 32, false, .fabric, .val 0, 0, [], 0, 0⟩,
  /- COMMIT -/ ⟨0x6100, 1, 4, 4, .bool, .wo, 0, false, .fabric, .val 0, 1, [], 0, 1⟩,
  /- COMMIT_PENDING -/ ⟨0x6100, 1, 5, 5, .bool, .ro, 0, false, .fabric, .val 0, 0, [], 0, 0⟩,
  /- COMMIT_QUEUE_LEVEL -/ ⟨0x6101, 1, 1, 1, .u16, .ro, 0, false, .fabric, .val 0, 0, [], 0, 0⟩,
  /- ACTIVE -/ ⟨0x6101, 1, 2, 2, .u32, .ro, 0, false, .fabric, .val 0, 0, [], 0, 0⟩,
  /- SUSPENDED -/ ⟨0x6101, 1, 3, 3, .u32, .ro, 0, false, .fabric, .val 0, 0, [], 0, 0⟩,
  /- CACHE_MISSES -/ ⟨0x6101, 1, 4, 4, .u32, .rw, 0, false, .fabric, .val 0, 4294967295, [⟨31, 0, .zero⟩], 0, 1⟩,
  /- LATE_FETCHES -/ ⟨0x6101, 1, 5, 5, .u32, .rw, 0, false, .fabric, .val 0, 4294967295, [⟨31, 0, .zero⟩], 0, 1⟩,
  /- FAILOVER_LOSSES -/ ⟨0x6101, 1, 6, 6, .u32, .rw, 0, false, .fabric, .val 0, 4294967295, [⟨31, 0, .zero⟩], 0, 1⟩,
  /- REBALANCE_THRESHOLD -/ ⟨0x6101, 1, 7, 7, .u16, .rws, 0, false, .fabric, .val 256, 65535, [⟨15, 0, .rng 16 8192⟩], 0, 2⟩,
  /- SESSIONS_MOVED -/ ⟨0x6101, 1, 8, 8, .u32, .rw, 0, false, .fabric, .val 0, 4294967295, [⟨31, 0, .zero⟩], 0, 1⟩,
  /- ENGINE_LOAD -/ ⟨0x6101, 1, 16, 31, .u32, .ro, 0, false, .fabric, .val 0, 0, [], 0, 0⟩,
  /- POOL_FIRST -/ ⟨0x6108, 8, 1, 1, .u32, .rws, 0, false, .fabric, .val 0, 4294967295, [], 0, 2⟩,
  /- POOL_COUNT -/ ⟨0x6108, 8, 2, 2, .u32, .rws, 0, false, .fabric, .val 0, 4294967295, [], 0, 2⟩,
  /- AUTH_REQUIRED, TWO_STEP, INSTANCE, SA_INDEX -/ ⟨0x6108, 8, 3, 3, .u16, .rws, 0, false, .fabric, .val 0, 63743, [], 0, 2⟩,
  /- REQUESTS, GRANTS, DENIALS, REFUSED_FULL, EXPIRIES, CANCELS -/ ⟨0x6108, 8, 4, 9, .u32, .rw, 0, false, .fabric, .val 0, 4294967295, [⟨31, 0, .zero⟩], 0, 1⟩,
  /- CLOCK_IDENTITY -/ ⟨0x6200, 1, 1, 1, .u64, .rwn, 0, false, .fabric, .factory, 18446744073709551615, [], 0, 2⟩,
  /- PRIORITY1 -/ ⟨0x6200, 1, 2, 2, .u8, .rws, 0, false, .fabric, .val 128, 255, [], 0, 2⟩,
  /- PRIORITY2 -/ ⟨0x6200, 1, 3, 3, .u8, .rws, 0, false, .fabric, .val 128, 255, [], 0, 2⟩,
  /- LOCAL_PRIORITY -/ ⟨0x6200, 1, 4, 4, .u8, .rws, 0, false, .fabric, .val 128, 255, [⟨7, 0, .rng 1 255⟩], 0, 2⟩,
  /- VARIANCE -/ ⟨0x6200, 1, 5, 5, .u16, .rws, 0, false, .fabric, .val 65535, 65535, [], 0, 2⟩,
  /- HOLDOVER_CLASS_TEB -/ ⟨0x6200, 1, 6, 6, .u32, .rws, 0, false, .fabric, .val 1100000, 4294967295, [], 0, 2⟩,
  /- CLOCK_CLASS -/ ⟨0x6200, 1, 7, 7, .u8, .ro, 0, false, .fabric, .val 248, 0, [], 0, 0⟩,
  /- CLOCK_ACCURACY -/ ⟨0x6200, 1, 8, 8, .u8, .ro, 0, false, .fabric, .val 254, 0, [], 0, 0⟩,
  /- PROFILE -/ ⟨0x6210, 8, 1, 1, .u8, .rws, 0, false, .fabric, .val 0, 255, [⟨7, 0, .rng 0 5⟩], 0, 2⟩,
  /- DOMAIN -/ ⟨0x6210, 8, 2, 2, .u8, .rws, 0, false, .fabric, .val 0, 255, [⟨7, 0, .rng 0 255⟩], 0, 2⟩,
  /- MASTER_PORTS -/ ⟨0x6210, 8, 3, 3, .u8, .rws, 0, false, .fabric, .val 0, 255, [], 0, 2⟩,
  /- TC_PORTS -/ ⟨0x6210, 8, 4, 4, .u8, .rws, 0, false, .fabric, .val 0, 255, [], 0, 2⟩,
  /- TEB_TLV -/ ⟨0x6210, 8, 5, 5, .bool, .rws, 0, false, .fabric, .val 1, 1, [], 0, 2⟩,
  /- ANNOUNCE_RECEIPT_TIMEOUT -/ ⟨0x6210, 8, 6, 6, .u8, .rws, 0, false, .fabric, .val 3, 255, [⟨7, 0, .rng 2 10⟩], 0, 2⟩,
  /- GRANT_DURATION_MAX -/ ⟨0x6210, 8, 7, 7, .u16, .rws, 0, false, .fabric, .val 300, 65535, [⟨15, 0, .rng 10 1000⟩], 0, 2⟩,
  /- SYNC_INTERVAL_MIN -/ ⟨0x6210, 8, 8, 8, .i8, .rws, 0, false, .fabric, .val 249, 255, [⟨7, 0, .srng (-7) 4⟩], 0, 2⟩,
  /- ENABLE -/ ⟨0x6220, 4, 1, 1, .bool, .rws, 0, false, .fabric, .val 0, 1, [], 0, 2⟩,
  /- INSTANCE -/ ⟨0x6220, 4, 2, 2, .u8, .rws, 0, false, .fabric, .val 0, 255, [⟨7, 0, .rng 0 7⟩], 0, 2⟩,
  /- PORT_MASK -/ ⟨0x6220, 4, 3, 3, .u8, .rws, 0, false, .fabric, .val 0, 255, [], 0, 2⟩,
  /- LOG_SYNC -/ ⟨0x6220, 4, 4, 4, .i8, .rws, 0, false, .fabric, .val 252, 255, [], 0, 2⟩]

/-- Rows of indices 0x6000 onward, part 3. -/
def rows6c : List Row := [
  /- LOG_DELAY -/ ⟨0x6220, 4, 5, 5, .i8, .rws, 0, false, .fabric, .val 252, 255, [], 0, 2⟩,
  /- GRANT_DURATION -/ ⟨0x6220, 4, 6, 6, .u16, .rws, 0, false, .fabric, .val 300, 65535, [⟨15, 0, .rng 10 1000⟩], 0, 2⟩,
  /- DELAY_ASYMMETRY -/ ⟨0x6220, 4, 7, 7, .i32, .rws, 0, false, .fabric, .val 0, 4294967295, [], 0, 2⟩,
  /- AUTH_REQUIRED, SA_INDEX -/ ⟨0x6220, 4, 8, 8, .u16, .rws, 0, false, .fabric, .val 0, 511, [], 0, 2⟩,
  /- MASTER -/ ⟨0x6220, 4, 9, 12, .domain, .rws, 24, false, .fabric, .val 0, 0, [], 0, 2⟩,
  /- SERVO_STATE -/ ⟨0x6228, 4, 1, 1, .u8, .ro, 0, false, .fabric, .val 0, 0, [], 0, 0⟩,
  /- MASTER_PORT_ID -/ ⟨0x6228, 4, 2, 2, .domain, .ro, 10, false, .fabric, .val 0, 0, [], 0, 0⟩,
  /- MASTER_CLASS -/ ⟨0x6228, 4, 3, 3, .u8, .ro, 0, false, .fabric, .val 255, 0, [], 0, 0⟩,
  /- STEPS_REMOVED -/ ⟨0x6228, 4, 4, 4, .u16, .ro, 0, false, .fabric, .val 0, 0, [], 0, 0⟩,
  /- MEAN_PATH_DELAY -/ ⟨0x6228, 4, 5, 5, .i64, .ro, 0, false, .fabric, .val 0, 0, [], 0, 0⟩,
  /- LAST_OFFSET -/ ⟨0x6228, 4, 6, 6, .i64, .ro, 0, false, .fabric, .val 0, 0, [], 0, 0⟩,
  /- LAST_UNC -/ ⟨0x6228, 4, 7, 7, .u32, .ro, 0, false, .fabric, .val 0, 0, [], 0, 0⟩,
  /- EXCHANGES, ANNOUNCE_TIMEOUTS, GRANT_DENIALS -/ ⟨0x6228, 4, 8, 10, .u32, .rw, 0, false, .fabric, .val 0, 4294967295, [⟨31, 0, .zero⟩], 0, 1⟩,
  /- BAD_VERSION, BAD_DOMAIN, MALFORMED, MANAGEMENT, AUTH_FAILED  -/ ⟨0x6230, 8, 1, 5, .u32, .ro, 0, false, .fabric, .val 0, 0, [], 0, 0⟩,
  /- UNKNOWN_PEER, TEB_TLV_MALFORMED (R255, R144) -/ ⟨0x6230, 8, 6, 7, .u32, .ro, 0, false, .fabric, .val 0, 0, [], 0, 0⟩,
  /- REQ_REPLACED, RESP_DROPPED (R264) -/ ⟨0x6230, 8, 8, 9, .u32, .ro, 0, false, .fabric, .val 0, 0, [], 0, 0⟩,
  /- TC_NOT_FORWARDED (R279) -/ ⟨0x6230, 8, 10, 10, .u32, .ro, 0, false, .fabric, .val 0, 0, [], 0, 0⟩,
  /- ESMC_MALFORMED (R280) -/ ⟨0x6230, 8, 11, 11, .u32, .ro, 0, false, .fabric, .val 0, 0, [], 0, 0⟩,
  /- INDEX -/ ⟨0x6280, 1, 1, 1, .u8, .rw, 0, false, .mast, .val 0, 255, [⟨7, 0, .rng 0 255⟩], 0, 1⟩,
  /- ENTRY -/ ⟨0x6280, 1, 2, 2, .domain, .wo, 40, false, .mast, .val 0, 0, [], 0, 1⟩,
  /- SPP, KEY_ERASED, IN_USE -/ ⟨0x6280, 1, 3, 3, .u16, .ro, 0, false, .mast, .val 0, 0, [], 0, 0⟩,
  /- KEY_ID -/ ⟨0x6280, 1, 4, 4, .u32, .ro, 0, false, .mast, .val 0, 0, [], 0, 0⟩,
  /- SSM_OPTION -/ ⟨0x6300, 1, 1, 1, .u8, .rws, 0, false, .fabric, .val 1, 255, [⟨7, 0, .rng 1 2⟩], 0, 2⟩,
  /- ESSM_ENABLE -/ ⟨0x6300, 1, 2, 2, .bool, .rws, 0, false, .fabric, .val 0, 1, [], 0, 2⟩,
  /- QL_FAILED_TIMEOUT -/ ⟨0x6300, 1, 3, 3, .u8, .const, 0, false, .fabric, .val 5, 0, [], 0, 0⟩,
  /- TX_ENABLE -/ ⟨0x6308, 8, 1, 1, .bool, .rws, 0, false, .fabric, .val 0, 1, [], 0, 2⟩,
  /- QL_TX_ESSM, QL_TX_SSM -/ ⟨0x6308, 8, 2, 2, .u16, .ro, 0, false, .fabric, .val 65295, 0, [], 0, 0⟩,
  /- PDUS_SENT -/ ⟨0x6308, 8, 3, 3, .u32, .rw, 0, false, .fabric, .val 0, 4294967295, [⟨31, 0, .zero⟩], 0, 1⟩,
  /- PDUS_RECEIVED -/ ⟨0x6308, 8, 4, 4, .u32, .rw, 0, false, .fabric, .val 0, 4294967295, [⟨31, 0, .zero⟩], 0, 1⟩,
  /- QL_FAILED_COUNT -/ ⟨0x6308, 8, 5, 5, .u32, .rw, 0, false, .fabric, .val 0, 4294967295, [⟨31, 0, .zero⟩], 0, 1⟩]

/-- Rows of indices 0x7000 onward, part 1. -/
def rows7a : List Row := [
  /- MODE -/ ⟨0x7000, 8, 1, 1, .u8, .rws, 0, false, .synth, .val 0, 255, [⟨7, 0, .rng 0 2⟩], 0, 2⟩,
  /- START_S -/ ⟨0x7000, 8, 2, 2, .u64, .rws, 0, false, .synth, .val 0, 18446744073709551615, [⟨63, 0, .rng 0 281474976710655⟩], 0, 2⟩,
  /- START_NS -/ ⟨0x7000, 8, 3, 3, .u32, .rws, 0, false, .synth, .val 0, 4294967295, [⟨31, 0, .rng 0 999999999⟩], 0, 2⟩,
  /- PERIOD -/ ⟨0x7000, 8, 4, 4, .u64, .rws, 0, false, .synth, .val 1000000000000, 18446744073709551615, [⟨63, 0, .rng 100000 1000000000000⟩], 0, 2⟩,
  /- WIDTH -/ ⟨0x7000, 8, 5, 5, .u64, .rws, 0, false, .synth, .val 100000000, 18446744073709551615, [⟨63, 0, .rng 10000 1000000000000⟩], 0, 2⟩,
  /- COUNT -/ ⟨0x7000, 8, 6, 6, .u32, .rws, 0, false, .synth, .val 0, 4294967295, [], 0, 2⟩,
  /- POLARITY -/ ⟨0x7000, 8, 7, 7, .bool, .rws, 0, false, .synth, .val 0, 1, [], 0, 2⟩,
  /- MISSED, ACTIVE, ARMED -/ ⟨0x7008, 8, 1, 1, .u8, .ro, 0, false, .synth, .val 0, 0, [], 0, 0⟩,
  /- NEXT_EDGE -/ ⟨0x7008, 8, 2, 2, .ts128, .ro, 0, false, .synth, .val 0, 0, [], 0, 0⟩,
  /- PULSES -/ ⟨0x7008, 8, 3, 3, .u32, .rw, 0, false, .synth, .val 0, 4294967295, [⟨31, 0, .zero⟩], 0, 1⟩,
  /- MISSED_COUNT -/ ⟨0x7008, 8, 4, 4, .u32, .rw, 0, false, .synth, .val 0, 4294967295, [⟨31, 0, .zero⟩], 0, 1⟩,
  /- STEP_SKIPS -/ ⟨0x7008, 8, 5, 5, .u32, .rw, 0, false, .synth, .val 0, 4294967295, [⟨31, 0, .zero⟩], 0, 1⟩,
  /- REPLAYS -/ ⟨0x7008, 8, 6, 6, .u32, .rw, 0, false, .synth, .val 0, 4294967295, [⟨31, 0, .zero⟩], 0, 1⟩,
  /- DIR, SOURCE -/ ⟨0x7010, 1, 1, 4, .u8, .rws, 0, false, .synth, .val 0, 135, [], 0, 2⟩,
  /- OUT_SOURCE -/ ⟨0x7011, 1, 1, 16, .u8, .rws, 0, false, .synth, .val 255, 255, [⟨7, 0, .orFF 0 7⟩], 0, 2⟩]

/-- Rows of indices 0x8000 onward, part 1. -/
def rows8a : List Row := [
  /- REFRESH_ACTIVE, BUSY -/ ⟨0x8000, 1, 1, 1, .u8, .ro, 0, false, .mast, .val 0, 0, [], 0, 0⟩,
  /- PROGRAMS -/ ⟨0x8000, 1, 2, 2, .u32, .ro, 0, false, .mast, .val 0, 0, [], 0, 0⟩,
  /- VERIFY_RETRIES -/ ⟨0x8000, 1, 3, 3, .u32, .rw, 0, false, .mast, .val 0, 4294967295, [⟨31, 0, .zero⟩], 0, 1⟩,
  /- PROGRAM_FAILURES -/ ⟨0x8000, 1, 4, 4, .u32, .rw, 0, false, .mast, .val 0, 4294967295, [⟨31, 0, .zero⟩], 0, 1⟩,
  /- REFRESH_REWRITES -/ ⟨0x8000, 1, 5, 5, .u32, .rw, 0, false, .mast, .val 0, 4294967295, [⟨31, 0, .zero⟩], 0, 1⟩,
  /- WEAK_PAGES -/ ⟨0x8000, 1, 6, 6, .u32, .rw, 0, false, .mast, .val 0, 4294967295, [⟨31, 0, .zero⟩], 0, 1⟩,
  /- RECORD_CONFLICTS -/ ⟨0x8000, 1, 7, 7, .u32, .rw, 0, false, .mast, .val 0, 4294967295, [⟨31, 0, .zero⟩], 0, 1⟩,
  /- REFRESH_PERIOD -/ ⟨0x8000, 1, 8, 8, .u16, .rws, 0, false, .mast, .val 7, 65535, [⟨15, 0, .rng 1 90⟩], 0, 2⟩,
  /- ACTIVE_SLOT -/ ⟨0x8010, 1, 1, 1, .u8, .ro, 0, false, .mast, .val 255, 0, [], 0, 0⟩,
  /- STORE_SEQ -/ ⟨0x8010, 1, 2, 2, .u32, .ro, 0, false, .mast, .val 0, 0, [], 0, 0⟩,
  /- DIRTY -/ ⟨0x8010, 1, 3, 3, .bool, .ro, 0, false, .mast, .val 0, 0, [], 0, 0⟩,
  /- SAVE -/ ⟨0x8010, 1, 4, 4, .bool, .wo, 0, false, .mast, .val 0, 1, [], 0, 1⟩,
  /- STORE_HOLDOFF -/ ⟨0x8010, 1, 5, 5, .u16, .rws, 0, false, .mast, .val 2, 65535, [⟨15, 0, .rng 1 60⟩], 0, 2⟩,
  /- STORE_MIN_INTERVAL -/ ⟨0x8010, 1, 6, 6, .u16, .rws, 0, false, .mast, .val 60, 65535, [⟨15, 0, .rng 10 3600⟩], 0, 2⟩,
  /- STORE_WRITES -/ ⟨0x8010, 1, 7, 7, .u32, .ro, 0, false, .mast, .val 0, 0, [], 0, 0⟩,
  /- NEAR_FULL, SIGNED -/ ⟨0x8100, 1, 1, 1, .u8, .ro, 0, false, .mast, .val 0, 0, [], 0, 0⟩,
  /- NEWEST_SEQ -/ ⟨0x8100, 1, 2, 2, .u32, .ro, 0, false, .mast, .val 0, 0, [], 0, 0⟩,
  /- OLDEST_SEQ -/ ⟨0x8100, 1, 3, 3, .u32, .ro, 0, false, .mast, .val 0, 0, [], 0, 0⟩,
  /- UNACKED -/ ⟨0x8100, 1, 4, 4, .u32, .ro, 0, false, .mast, .val 0, 0, [], 0, 0⟩,
  /- LAST_SEAL_SEQ -/ ⟨0x8100, 1, 5, 5, .u32, .ro, 0, false, .mast, .val 0, 0, [], 0, 0⟩,
  /- CHAINED_SINCE_SEAL -/ ⟨0x8100, 1, 6, 6, .u8, .ro, 0, false, .mast, .val 0, 0, [], 0, 0⟩,
  /- OVERWRITTEN -/ ⟨0x8100, 1, 7, 7, .u32, .ro, 0, false, .mast, .val 0, 0, [], 0, 0⟩,
  /- FIRST_OVERWRITTEN_SEQ -/ ⟨0x8100, 1, 8, 8, .u32, .ro, 0, false, .mast, .val 0, 0, [], 0, 0⟩,
  /- SUPPRESSED -/ ⟨0x8100, 1, 9, 9, .u32, .ro, 0, false, .mast, .val 0, 0, [], 0, 0⟩,
  /- QUEUE_LEVEL -/ ⟨0x8100, 1, 10, 10, .u8, .ro, 0, false, .mast, .val 0, 0, [], 0, 0⟩,
  /- NEXT_SLOT -/ ⟨0x8100, 1, 11, 11, .u16, .ro, 0, false, .mast, .val 0, 0, [], 0, 0⟩,
  /- FROM_SEQ -/ ⟨0x8101, 1, 1, 1, .u32, .rw, 0, false, .mast, .val 0, 4294967295, [], 0, 1⟩,
  /- COUNT -/ ⟨0x8101, 1, 2, 2, .u16, .rw, 0, false, .mast, .val 64, 65535, [⟨15, 0, .rng 1 256⟩], 0, 1⟩,
  /- CARDS -/ ⟨0x8101, 1, 3, 3, .domain, .ro, 1048576, true, .mast, .val 0, 0, [], 0, 0⟩,
  /- ACK_SEQ -/ ⟨0x8102, 1, 1, 1, .u32, .rw, 0, false, .mast, .val 0, 4294967295, [], 0, 2⟩,
  /- EVENT_CARD_LIMIT -/ ⟨0x8102, 1, 2, 2, .u16, .rws, 0, false, .mast, .val 120, 65535, [⟨15, 0, .rng 8 1000⟩], 0, 2⟩,
  /- NEAR_FULL_MARGIN -/ ⟨0x8102, 1, 3, 3, .u16, .rws, 0, false, .mast, .val 4096, 65535, [⟨15, 0, .rng 64 20000⟩], 0, 2⟩,
  /- IMAGE_LOAD -/ ⟨0x8020, 1, 1, 1, .domain, .wo, 1048576, true, .mast, .val 0, 0, [], 0, 2⟩,
  /- STATUS -/ ⟨0x8021, 1, 1, 1, .u8, .ro, 0, false, .mast, .val 0, 0, [], 0, 0⟩,
  /- IMAGE_ID_LOADED -/ ⟨0x8021, 1, 2, 2, .u32, .ro, 0, false, .mast, .val 0, 0, [], 0, 0⟩,
  /- APPLIED -/ ⟨0x8021, 1, 3, 3, .u32, .ro, 0, false, .mast, .val 0, 0, [], 0, 0⟩,
  /- SKIPPED_ABSENT -/ ⟨0x8021, 1, 4, 4, .u32, .ro, 0, false, .mast, .val 0, 0, [], 0, 0⟩,
  /- REFUSED -/ ⟨0x8021, 1, 5, 5, .u32, .ro, 0, false, .mast, .val 0, 0, [], 0, 0⟩,
  /- CHECK_MISMATCH -/ ⟨0x8021, 1, 6, 6, .u32, .ro, 0, false, .mast, .val 0, 0, [], 0, 0⟩,
  /- FIRST_REFUSED_ENTRY -/ ⟨0x8021, 1, 7, 7, .u32, .ro, 0, false, .mast, .val 4294967295, 0, [], 0, 0⟩]

/-- Rows of indices 0x8000 onward, part 2. -/
def rows8b : List Row := [
  /- FIRST_REFUSED_CODE -/ ⟨0x8021, 1, 8, 8, .u32, .ro, 0, false, .mast, .val 0, 0, [], 0, 0⟩,
  /- IMAGE_EXPORT -/ ⟨0x8022, 1, 1, 1, .domain, .ro, 1048576, true, .mast, .val 0, 0, [], 2, 0⟩]

/-- Rows of indices 0x9000 onward, part 1. -/
def rows9a : List Row := [
  /- ERR_WIDTH -/ ⟨0x9000, 1, 1, 1, .u16, .rws, 0, false, .mast, .val 10, 65535, [⟨15, 0, .rng 1 1000⟩], 0, 2⟩,
  /- ERR_MODE -/ ⟨0x9000, 1, 2, 2, .u8, .rws, 0, false, .mast, .val 0, 255, [⟨7, 0, .rng 0 1⟩], 0, 2⟩,
  /- ERR_RELEASE -/ ⟨0x9000, 1, 3, 3, .bool, .wo, 0, false, .mast, .val 0, 1, [], 0, 1⟩,
  /- ERR_LOW, FAULT_IRQ -/ ⟨0x9000, 1, 4, 4, .u8, .ro, 0, false, .mast, .val 0, 0, [], 0, 0⟩,
  /- ESC_UC -/ ⟨0x9000, 1, 5, 5, .u8, .rws, 0, false, .mast, .val 25, 31, [], 0, 2⟩,
  /- ESC_FA -/ ⟨0x9000, 1, 6, 6, .u8, .rws, 0, false, .mast, .val 11, 31, [], 0, 2⟩,
  /- CLEAR_ALL -/ ⟨0x9000, 1, 7, 7, .bool, .wo, 0, false, .mast, .val 0, 1, [], 0, 1⟩,
  /- PENNANTS -/ ⟨0x9000, 1, 8, 8, .domain, .ro, 16, false, .mast, .val 0, 0, [], 0, 0⟩,
  /- LIVE -/ ⟨0x9000, 1, 9, 9, .domain, .ro, 16, false, .mast, .val 0, 0, [], 0, 0⟩,
  /- ERR_ASSERTIONS -/ ⟨0x9000, 1, 10, 10, .u32, .rw, 0, false, .mast, .val 0, 4294967295, [⟨31, 0, .zero⟩], 0, 1⟩,
  /- BLOCK_RESETS -/ ⟨0x9000, 1, 11, 11, .u32, .rw, 0, false, .mast, .val 0, 4294967295, [⟨31, 0, .zero⟩], 0, 1⟩,
  /- BLOCK_RESETS_SKIPPED -/ ⟨0x9000, 1, 12, 12, .u32, .rw, 0, false, .mast, .val 0, 4294967295, [⟨31, 0, .zero⟩], 0, 1⟩,
  /- CAPTURE_VALID, FORCED, MASTER_VALID, CLASS, SOURCE -/ ⟨0x9010, 1, 1, 1, .u16, .ro, 0, false, .mast, .val 0, 0, [], 0, 0⟩,
  /- MASTER_ID -/ ⟨0x9010, 1, 2, 2, .u8, .ro, 0, false, .mast, .val 0, 0, [], 0, 0⟩,
  /- ACCESS -/ ⟨0x9010, 1, 3, 3, .u8, .ro, 0, false, .mast, .val 0, 0, [], 0, 0⟩,
  /- ADDRESS -/ ⟨0x9010, 1, 4, 4, .u32, .ro, 0, false, .mast, .val 0, 0, [], 0, 0⟩,
  /- INFO -/ ⟨0x9010, 1, 5, 5, .u32, .ro, 0, false, .mast, .val 0, 0, [], 0, 0⟩,
  /- TIME -/ ⟨0x9010, 1, 6, 6, .ts128, .ro, 0, false, .mast, .val 0, 0, [], 0, 0⟩,
  /- NEXT_COUNT -/ ⟨0x9010, 1, 7, 7, .u32, .ro, 0, false, .mast, .val 0, 0, [], 0, 0⟩,
  /- HIGHEST_CLASS -/ ⟨0x9010, 1, 8, 8, .u8, .ro, 0, false, .mast, .val 0, 0, [], 0, 0⟩,
  /- RELEASE -/ ⟨0x9010, 1, 9, 9, .bool, .wo, 0, false, .mast, .val 0, 1, [], 0, 1⟩,
  /- LIVE, PENNANT, BROKEN, KIND, CLASS -/ ⟨0x9100, 128, 1, 1, .u8, .ro, 0, false, .mast, .val 0, 0, [], 0, 0⟩,
  /- CLEAR -/ ⟨0x9100, 128, 2, 2, .bool, .wo, 0, false, .mast, .val 0, 1, [], 0, 1⟩,
  /- REACTION -/ ⟨0x9100, 128, 3, 3, .u8, .rws, 0, false, .mast, .byInst [25, 16, 25, 16, 24, 16, 3, 3, 24, 16, 16, 25, 16, 16, 16, 16, 24, 25, 24, 25, 25, 9, 16, 24, 16, 0, 0, 0, 0, 0, 0, 0, 24, 16, 16, 0, 0, 0, 0, 0, 16, 16, 16, 16, 16, 16, 16, 16, 16, 16, 28, 0, 0, 0, 0, 0, 16, 25, 24, 24, 25, 16, 24, 16, 16, 16, 16, 16, 16, 16, 16, 16, 0, 0, 0, 0, 0, 0, 0, 0, 16, 16, 16, 16, 16, 16, 16, 16, 16, 16, 16, 0, 0, 0, 0, 0, 16, 25, 16, 16, 16, 24, 0, 0, 24, 24, 24, 24, 24, 24, 24, 24, 24, 24, 24, 24, 24, 24, 24, 24, 0, 0, 0, 0, 0, 0, 0, 0], 31, [], 0, 2⟩,
  /- FORCE -/ ⟨0x9100, 128, 4, 4, .u8, .rw, 0, false, .mast, .val 0, 255, [⟨7, 0, .rng 0 2⟩], 0, 2⟩,
  /- OCCURRENCES -/ ⟨0x9100, 128, 5, 5, .u32, .rw, 0, false, .mast, .val 0, 4294967295, [⟨31, 0, .zero⟩], 0, 1⟩,
  /- RAISES -/ ⟨0x9100, 128, 6, 6, .u32, .rw, 0, false, .mast, .val 0, 4294967295, [⟨31, 0, .zero⟩], 0, 1⟩,
  /- LAST_RAISED -/ ⟨0x9100, 128, 7, 7, .ts128, .ro, 0, false, .mast, .val 0, 0, [], 0, 0⟩]

/-- Rows of indices 0xA000 onward, part 1. -/
def rowsAa : List Row := [
  /- POWER_TARGET -/ ⟨0xA000, 1, 1, 1, .u8, .rw, 0, false, .mast, .val 0, 255, [⟨7, 0, .rng 0 2⟩], 0, 2⟩,
  /- PF_STATE -/ ⟨0xA000, 1, 2, 2, .u8, .rws, 0, false, .mast, .val 2, 255, [⟨7, 0, .rng 1 2⟩], 0, 2⟩,
  /- AUTO_RESUME -/ ⟨0xA000, 1, 3, 3, .bool, .rws, 0, false, .mast, .val 1, 1, [], 0, 2⟩,
  /- KEEP_GROUP -/ ⟨0xA000, 1, 4, 4, .u8, .rws, 0, false, .mast, .val 0, 255, [⟨7, 0, .rng 0 7⟩], 0, 2⟩,
  /- KEEP_OUTPUT -/ ⟨0xA000, 1, 5, 5, .u8, .rws, 0, false, .mast, .val 255, 255, [⟨7, 0, .orFF 0 15⟩], 0, 2⟩,
  /- FABRIC_RETAIN -/ ⟨0xA000, 1, 6, 6, .u8, .rws, 0, false, .mast, .val 0, 3, [], 0, 2⟩,
  /- WAKE_ON -/ ⟨0xA000, 1, 7, 7, .u8, .rws, 0, false, .mast, .val 3, 3, [], 0, 2⟩,
  /- IN_TRANSITION, PF_ACTIVE, STATE -/ ⟨0xA001, 1, 1, 1, .u8, .ro, 0, false, .mast, .val 0, 0, [], 0, 0⟩,
  /- SUPPLY_GOOD -/ ⟨0xA001, 1, 2, 2, .u8, .ro, 0, false, .mast, .val 0, 0, [], 0, 0⟩,
  /- DOMAINS_AWAKE -/ ⟨0xA001, 1, 3, 3, .u8, .ro, 0, false, .mast, .val 0, 0, [], 0, 0⟩,
  /- DOMAINS_DOZING -/ ⟨0xA001, 1, 4, 4, .u8, .ro, 0, false, .mast, .val 0, 0, [], 0, 0⟩,
  /- CORE_LOSSES -/ ⟨0xA001, 1, 5, 5, .u32, .rw, 0, false, .mast, .val 0, 4294967295, [⟨31, 0, .zero⟩], 0, 1⟩,
  /- STATE_CHANGES -/ ⟨0xA001, 1, 6, 6, .u32, .rw, 0, false, .mast, .val 0, 4294967295, [⟨31, 0, .zero⟩], 0, 1⟩,
  /- LAST_CHANGE -/ ⟨0xA001, 1, 7, 7, .ts128, .ro, 0, false, .mast, .val 0, 0, [], 0, 0⟩,
  /- FABRIC_LOST -/ ⟨0xA001, 1, 8, 8, .u32, .rw, 0, false, .mast, .val 0, 4294967295, [⟨31, 0, .zero⟩], 0, 1⟩,
  /- WAKE_BUDGET -/ ⟨0xA002, 1, 1, 1, .u16, .rws, 0, false, .mast, .val 200, 65535, [⟨15, 0, .rng 80 1000⟩], 0, 2⟩,
  /- WAKES -/ ⟨0xA002, 1, 2, 2, .u32, .rw, 0, false, .mast, .val 0, 4294967295, [⟨31, 0, .zero⟩], 0, 1⟩,
  /- WAKES_QUEUED -/ ⟨0xA002, 1, 3, 3, .u32, .rw, 0, false, .mast, .val 0, 4294967295, [⟨31, 0, .zero⟩], 0, 1⟩,
  /- WAKES_LATE -/ ⟨0xA002, 1, 4, 4, .u32, .rw, 0, false, .mast, .val 0, 4294967295, [⟨31, 0, .zero⟩], 0, 1⟩,
  /- WAKE_TIMEOUTS -/ ⟨0xA002, 1, 5, 5, .u32, .rw, 0, false, .mast, .val 0, 4294967295, [⟨31, 0, .zero⟩], 0, 1⟩,
  /- MAX_QUEUE_NS -/ ⟨0xA002, 1, 6, 6, .u32, .rw, 0, false, .mast, .val 0, 4294967295, [⟨31, 0, .zero⟩], 0, 1⟩,
  /- DOZE_KIND -/ ⟨0xA010, 1, 1, 4, .u8, .rws, 0, false, .mast, .val 2, 255, [⟨7, 0, .rng 0 2⟩], 0, 2⟩,
  /- WAKE_UNITS -/ ⟨0xA011, 1, 1, 8, .u8, .const, 0, false, .mast, .bySub [8, 6, 80, 80, 24, 40, 16, 2], 0, [], 0, 0⟩]

/-- Rows of indices 0xB000 onward, part 1. -/
def rowsBa : List Row := [
  /- STATE -/ ⟨0xB000, 1, 1, 1, .u8, .ro, 0, false, .mast, .val 0, 0, [], 0, 0⟩,
  /- LIFECYCLE_REQUEST -/ ⟨0xB000, 1, 2, 2, .u32, .wo, 0, false, .mast, .val 0, 4294967295, [], 0, 2⟩,
  /- TAMPER_ERASE_PENDING, RECORD_INVALID, ERASE_PENDING -/ ⟨0xB000, 1, 3, 3, .u8, .ro, 0, false, .mast, .val 0, 0, [], 0, 0⟩,
  /- KEY_GEN -/ ⟨0xB001, 1, 1, 1, .u8, .ro, 0, false, .mast, .val 0, 0, [], 0, 0⟩,
  /- PUBLIC_KEY -/ ⟨0xB001, 1, 2, 2, .domain, .ro, 64, false, .mast, .val 0, 0, [], 0, 0⟩,
  /- ROTATE -/ ⟨0xB001, 1, 3, 3, .bool, .wo, 0, false, .mast, .val 0, 1, [], 0, 2⟩,
  /- PREVIOUS_KEYS -/ ⟨0xB001, 1, 4, 4, .domain, .ro, 272, false, .mast, .val 0, 0, [], 0, 0⟩,
  /- FW_KEY -/ ⟨0xB002, 1, 1, 1, .domain, .wo, 64, false, .mast, .val 0, 0, [], 0, 2⟩,
  /- FW_KEY_ID -/ ⟨0xB002, 1, 2, 2, .u64, .ro, 0, false, .mast, .val 0, 0, [], 0, 0⟩,
  /- DEBUG_KEY -/ ⟨0xB002, 1, 3, 3, .domain, .wo, 64, false, .mast, .val 0, 0, [], 0, 2⟩,
  /- DEBUG_KEY_ID -/ ⟨0xB002, 1, 4, 4, .u64, .ro, 0, false, .mast, .val 0, 0, [], 0, 0⟩,
  /- MIN_VERSION_ENGINE -/ ⟨0xB002, 1, 5, 5, .u32, .rws, 0, false, .mast, .val 0, 4294967295, [], 0, 2⟩,
  /- MIN_VERSION_PATCH -/ ⟨0xB002, 1, 6, 6, .u32, .rws, 0, false, .mast, .val 0, 4294967295, [], 0, 2⟩,
  /- ENGINE_RESULT -/ ⟨0xB003, 1, 1, 1, .u8, .ro, 0, false, .mast, .val 0, 0, [], 0, 0⟩,
  /- ENGINE_VERSION -/ ⟨0xB003, 1, 2, 2, .u32, .ro, 0, false, .mast, .val 0, 0, [], 0, 0⟩,
  /- PATCH_RESULT -/ ⟨0xB003, 1, 3, 3, .u8, .ro, 0, false, .mast, .val 0, 0, [], 0, 0⟩,
  /- PATCH_VERSION -/ ⟨0xB003, 1, 4, 4, .u32, .ro, 0, false, .mast, .val 0, 0, [], 0, 0⟩,
  /- TAMPER_USE -/ ⟨0xB004, 1, 1, 1, .bool, .rws, 0, false, .mast, .val 1, 1, [], 0, 2⟩,
  /- TAMPER_LEVEL -/ ⟨0xB004, 1, 2, 2, .bool, .rws, 0, false, .mast, .val 0, 1, [], 0, 2⟩,
  /- OPENED -/ ⟨0xB004, 1, 3, 3, .bool, .ro, 0, false, .mast, .val 0, 0, [], 0, 0⟩,
  /- TAMPER_COUNT -/ ⟨0xB004, 1, 4, 4, .u32, .ro, 0, false, .mast, .val 0, 0, [], 0, 0⟩,
  /- LAST_TAMPER -/ ⟨0xB004, 1, 5, 5, .ts128, .ro, 0, false, .mast, .val 0, 0, [], 0, 0⟩,
  /- DEBUG_MODE -/ ⟨0xB100, 1, 1, 1, .u8, .ro, 0, false, .mast, .val 0, 0, [], 0, 0⟩,
  /- DEBUG_REQUEST -/ ⟨0xB100, 1, 2, 2, .u8, .wo, 0, false, .mast, .val 0, 255, [⟨7, 0, .rng 0 2⟩], 0, 1⟩,
  /- ENGINE_MASK -/ ⟨0xB100, 1, 3, 3, .u16, .rw, 0, false, .mast, .val 0, 65535, [], 0, 2⟩,
  /- CHALLENGE -/ ⟨0xB100, 1, 4, 4, .domain, .ro, 32, false, .mast, .val 0, 0, [], 2, 0⟩,
  /- RESPONSE -/ ⟨0xB100, 1, 5, 5, .domain, .wo, 64, false, .mast, .val 0, 0, [], 0, 1⟩,
  /- DEBUG_TIMEOUT -/ ⟨0xB100, 1, 6, 6, .u16, .rws, 0, false, .mast, .val 600, 65535, [⟨15, 0, .rng 10 3600⟩], 0, 2⟩,
  /- SESSIONS -/ ⟨0xB100, 1, 7, 7, .u32, .ro, 0, false, .mast, .val 0, 0, [], 0, 0⟩,
  /- RESPONSE_FAILS -/ ⟨0xB100, 1, 8, 8, .u32, .rw, 0, false, .mast, .val 0, 4294967295, [⟨31, 0, .zero⟩], 0, 1⟩,
  /- REKEY_RESPONSE -/ ⟨0xB100, 1, 9, 9, .domain, .wo, 64, false, .mast, .val 0, 0, [], 0, 1⟩,
  /- REKEY_GRANT -/ ⟨0xB100, 1, 10, 10, .bool, .ro, 0, false, .mast, .val 0, 0, [], 0, 0⟩]

/-- Rows of indices 0xC000 onward, part 1. -/
def rowsCa : List Row := [
  /- PANEL_ENABLE -/ ⟨0xC000, 1, 1, 1, .bool, .rws, 0, false, .mast, .val 1, 1, [], 0, 2⟩,
  /- KEY_DEBOUNCE -/ ⟨0xC000, 1, 2, 2, .u8, .rws, 0, false, .mast, .val 20, 255, [⟨7, 0, .rng 5 100⟩], 0, 2⟩,
  /- LONG_PRESS -/ ⟨0xC000, 1, 3, 3, .u16, .rws, 0, false, .mast, .val 2000, 65535, [⟨15, 0, .rng 500 10000⟩], 0, 2⟩,
  /- SELECT_TIMEOUT -/ ⟨0xC000, 1, 4, 4, .u16, .rws, 0, false, .mast, .val 10, 65535, [⟨15, 0, .rng 2 120⟩], 0, 2⟩,
  /- KEY_LEVEL -/ ⟨0xC000, 1, 5, 5, .u8, .rws, 0, false, .mast, .val 0, 255, [], 0, 2⟩,
  /- ALLOW -/ ⟨0xC000, 1, 6, 6, .u8, .rws, 0, false, .mast, .val 0, 1, [], 0, 2⟩,
  /- BRIGHTNESS -/ ⟨0xC000, 1, 7, 7, .u8, .rws, 0, false, .mast, .val 50, 255, [⟨7, 0, .rng 0 100⟩], 0, 2⟩,
  /- PLUG_SHOW -/ ⟨0xC000, 1, 8, 8, .u8, .rws, 0, false, .mast, .val 5, 255, [⟨7, 0, .rng 1 60⟩], 0, 2⟩,
  /- KEY_ROLE -/ ⟨0xC001, 1, 1, 8, .u8, .rws, 0, false, .mast, .bySub [1, 2, 3, 4, 5, 6, 7, 7], 255, [⟨7, 0, .rng 0 7⟩], 0, 2⟩,
  /- KEYS_DOWN -/ ⟨0xC002, 1, 1, 1, .u8, .ro, 0, false, .mast, .val 0, 0, [], 0, 0⟩,
  /- CURSOR_ACTIVE, CURSOR_CHANNEL, CURSOR_ENTRY -/ ⟨0xC002, 1, 2, 2, .u16, .ro, 0, false, .mast, .val 0, 0, [], 0, 0⟩,
  /- LAST_ACTION -/ ⟨0xC002, 1, 3, 3, .u32, .ro, 0, false, .mast, .val 0, 0, [], 0, 0⟩,
  /- ACTIONS -/ ⟨0xC002, 1, 4, 4, .u32, .rw, 0, false, .mast, .val 0, 4294967295, [⟨31, 0, .zero⟩], 0, 1⟩,
  /- REFUSED -/ ⟨0xC002, 1, 5, 5, .u32, .rw, 0, false, .mast, .val 0, 4294967295, [⟨31, 0, .zero⟩], 0, 1⟩,
  /- USER_PRESSES -/ ⟨0xC002, 1, 6, 6, .u32, .rw, 0, false, .mast, .val 0, 4294967295, [⟨31, 0, .zero⟩], 0, 1⟩,
  /- HOST, HOST_PATTERN -/ ⟨0xC003, 1, 1, 12, .u8, .rw, 0, false, .mast, .val 0, 135, [], 0, 1⟩]

/-- Rows of indices 0xD000 onward, part 1. -/
def rowsDa : List Row := [
  /- TEST_ENABLE -/ ⟨0xD000, 1, 1, 1, .u8, .rws, 0, false, .mast, .val 127, 127, [], 0, 2⟩,
  /- CROSS_DWELL -/ ⟨0xD000, 1, 2, 2, .u16, .rws, 0, false, .mast, .val 10, 65535, [⟨15, 0, .rng 1 3600⟩], 0, 2⟩,
  /- LOCKCHECK_PERIOD -/ ⟨0xD000, 1, 3, 3, .u16, .rws, 0, false, .mast, .val 60, 65535, [⟨15, 0, .rng 10 3600⟩], 0, 2⟩,
  /- MARCH_CELLS -/ ⟨0xD000, 1, 4, 4, .u16, .rws, 0, false, .mast, .val 16, 65535, [⟨15, 0, .rng 1 256⟩], 0, 2⟩,
  /- MARGIN_MIN -/ ⟨0xD000, 1, 5, 5, .u8, .rws, 0, false, .mast, .val 20, 255, [], 0, 2⟩,
  /- POST_RESULT -/ ⟨0xD001, 1, 1, 1, .u8, .ro, 0, false, .mast, .val 0, 0, [], 0, 0⟩,
  /- POST_FAILED_MAP -/ ⟨0xD001, 1, 2, 2, .u8, .ro, 0, false, .mast, .val 0, 0, [], 0, 0⟩,
  /- PASSES -/ ⟨0xD001, 1, 3, 9, .u32, .rw, 0, false, .mast, .val 0, 4294967295, [⟨31, 0, .zero⟩], 0, 1⟩,
  /- FAILS -/ ⟨0xD001, 1, 10, 16, .u32, .rw, 0, false, .mast, .val 0, 4294967295, [⟨31, 0, .zero⟩], 0, 1⟩,
  /- LAST_FAIL -/ ⟨0xD001, 1, 17, 17, .ts128, .ro, 0, false, .mast, .val 0, 0, [], 0, 0⟩,
  /- LAST_FAIL_TEST -/ ⟨0xD001, 1, 18, 18, .u8, .ro, 0, false, .mast, .val 255, 0, [], 0, 0⟩,
  /- CELLS_WITHDRAWN -/ ⟨0xD001, 1, 19, 19, .u16, .ro, 0, false, .mast, .val 0, 0, [], 0, 0⟩,
  /- MARGIN_H -/ ⟨0xD008, 8, 1, 1, .u16, .ro, 0, false, .port, .val 0, 0, [], 0, 0⟩,
  /- MARGIN_V -/ ⟨0xD008, 8, 2, 2, .u16, .ro, 0, false, .port, .val 0, 0, [], 0, 0⟩,
  /- LOW_MARGIN -/ ⟨0xD008, 8, 3, 3, .bool, .ro, 0, false, .port, .val 0, 0, [], 0, 0⟩,
  /- LAST_SCAN -/ ⟨0xD008, 8, 4, 4, .ts128, .ro, 0, false, .port, .val 0, 0, [], 0, 0⟩]

/-- Rows of indices 0xE000 onward, part 1. -/
def rowsEa : List Row := [
  /- SPARE -/ ⟨0xE000, 1, 1, 1, .u8, .ro, 0, false, .mast, .val 255, 0, [], 0, 0⟩,
  /- ROTATING -/ ⟨0xE000, 1, 2, 2, .bool, .ro, 0, false, .mast, .val 0, 0, [], 0, 0⟩,
  /- ENGINE_STATE -/ ⟨0xE000, 1, 3, 18, .u8, .ro, 0, false, .mast, .val 0, 0, [], 0, 0⟩,
  /- RETURNS -/ ⟨0xE000, 1, 19, 19, .u32, .rw, 0, false, .mast, .val 0, 4294967295, [⟨31, 0, .zero⟩], 0, 1⟩,
  /- RETRY -/ ⟨0xE000, 1, 20, 20, .u16, .wo, 0, false, .mast, .val 0, 65535, [], 0, 2⟩,
  /- FLASH_OFFSET -/ ⟨0xE001, 1, 1, 1, .u32, .rwn, 0, false, .mast, .val 0, 4294967295, [⟨31, 0, .rng 0 16777215⟩], 0, 2⟩,
  /- FLASH_CLOCK -/ ⟨0xE001, 1, 2, 2, .u8, .rwn, 0, false, .mast, .val 50, 255, [⟨7, 0, .rng 10 80⟩], 0, 2⟩,
  /- IMAGE_WAIT -/ ⟨0xE001, 1, 3, 3, .u16, .rws, 0, false, .mast, .val 1000, 65535, [⟨15, 0, .rng 100 60000⟩], 0, 2⟩,
  /- IMAGE_PUSH -/ ⟨0xE001, 1, 4, 4, .domain, .wo, 524448, true, .mast, .val 0, 0, [], 0, 2⟩,
  /- IMAGE_WANTED -/ ⟨0xE001, 1, 5, 5, .bool, .ro, 0, false, .mast, .val 0, 0, [], 0, 0⟩,
  /- LOADS -/ ⟨0xE001, 1, 6, 6, .u32, .ro, 0, false, .mast, .val 0, 0, [], 0, 0⟩,
  /- LOAD_FAILURES -/ ⟨0xE001, 1, 7, 7, .u32, .rw, 0, false, .mast, .val 0, 4294967295, [⟨31, 0, .zero⟩], 0, 1⟩,
  /- LAST_LOAD_US -/ ⟨0xE001, 1, 8, 8, .u32, .ro, 0, false, .mast, .val 0, 0, [], 0, 0⟩,
  /- PATCH_WRITE -/ ⟨0xE001, 1, 9, 9, .domain, .wo, 16384, true, .mast, .val 0, 0, [], 0, 2⟩,
  /- PATCH_SLOT -/ ⟨0xE001, 1, 10, 10, .u8, .ro, 0, false, .mast, .val 255, 0, [], 0, 0⟩]

/-- The rows that may define an index, found by its leading digit (12 R316). -/
def rowsOf (idx : Nat) : List Row :=
  match idx / 4096 with
  | 1 => rows1a ++ rows1b
  | 2 => rows2a ++ rows2b ++ rows2c
  | 3 => rows3a ++ rows3b ++ rows3c
  | 4 => rows4a ++ rows4b
  | 5 => rows5a ++ rows5b ++ rows5c
  | 6 => rows6a ++ rows6b ++ rows6c
  | 7 => rows7a
  | 8 => rows8a ++ rows8b
  | 9 => rows9a
  | 10 => rowsAa
  | 11 => rowsBa
  | 12 => rowsCa
  | 13 => rowsDa
  | 14 => rowsEa
  | _ => []

/-- Every row, in ascending index order. -/
def allRows : List Row :=
  rows1a ++ rows1b ++ rows2a ++ rows2b ++ rows2c ++ rows3a ++ rows3b ++ rows3c ++ rows4a ++ rows4b ++ rows5a ++ rows5b ++ rows5c ++ rows6a ++ rows6b ++ rows6c ++ rows7a ++ rows8a ++ rows8b ++ rows9a ++ rowsAa ++ rowsBa ++ rowsCa ++ rowsDa ++ rowsEa


/-- The row that defines a subindex (12 R316). -/
def rowOf (idx sub : Nat) : Option Row :=
  (rowsOf idx).find? (fun r => r.base ≤ idx && idx < r.base + r.n && r.s0 ≤ sub && sub ≤ r.s1)

/-- The type code of the wire (12 R309). -/
def Ty.code : Ty → Nat
  | .bool => 1 | .u8 => 2 | .i8 => 3 | .u16 => 4 | .i16 => 5 | .u32 => 6 | .i32 => 7 | .u64 => 8 | .i64 => 9
  | .u18 => 10 | .i18 => 11 | .q18 => 12 | .teb18 => 13 | .ts128 => 14 | .str => 15 | .domain => 16

/-- The bytes of a value of the type; 0 for the types of varying length (12 R309). -/
def Ty.bytes : Ty → Nat
  | .bool => 1 | .u8 => 1 | .i8 => 1 | .u16 => 2 | .i16 => 2 | .u32 => 4 | .i32 => 4 | .u64 => 8 | .i64 => 8
  | .u18 => 4 | .i18 => 4 | .q18 => 4 | .teb18 => 4 | .ts128 => 16 | .str => 0 | .domain => 0

/-- The significant bits of a value of the type. -/
def Ty.bits : Ty → Nat
  | .u18 => 18 | .i18 => 18 | .q18 => 18 | .teb18 => 18
  | t => 8 * t.bytes

/-- The bytes of the row's value. -/
def Row.bytes (r : Row) : Nat := if r.ty.bytes = 0 then r.len else r.ty.bytes

/-- The reset or default of a subindex. -/
def Row.default (r : Row) (idx sub : Nat) : Nat :=
  match r.dflt with
  | .val n => n
  | .byInst l => nth l (idx - r.base) 0
  | .bySub l => nth l (sub - r.s0) 0
  | .factory => Config.factory idx sub

/-- Whether a subindex is stored (12 R311). -/
def Acc.stored : Acc → Bool
  | .rws => true | .rwd => true | .rwn => true | _ => false

/-- The reset or default of any subindex: 0 where no row defines it. -/
def dfltOf (idx sub : Nat) : Nat :=
  match rowOf idx sub with
  | some r => r.default idx sub
  | none => 0

end Sys2Proof.Machine
end

