-- ==== Sys2Proof/Machine/Ops.lean ====
section
/-!
DEFINITION. Sys2Proof/Machine/Ops.lean: the named operations over the device every unit shares: the object store, the units
present in a grade, the time counter's reading, event posting, and the saturating counters.
-/

namespace Sys2Proof.Machine

/-! ### Sparse maps in canonical form: keys strictly rising -/

/-- The value at a key, if listed. -/
def mget (k : Nat) : List (Nat × Nat) → Option Nat
  | [] => none
  | p :: t => if p.1 = k then some p.2 else mget k t

/-- The map without a key. -/
def mdel (k : Nat) (l : List (Nat × Nat)) : List (Nat × Nat) := l.filter (fun p => p.1 != k)

/-- Insert before the first greater key. -/
def mins (k v : Nat) : List (Nat × Nat) → List (Nat × Nat)
  | [] => [(k, v)]
  | p :: t => if k < p.1 then (k, v) :: p :: t else p :: mins k v t

/-- The map with a key set. -/
def mset (k v : Nat) (l : List (Nat × Nat)) : List (Nat × Nat) := mins k v (mdel k l)

/-! ### The object store -/

/-- The key of a subindex. -/
def okey (idx sub : Nat) : Nat := idx * 256 + sub

/-- The value of a subindex: what is listed, else its reset or default (12 R311). -/
def Chip.rd (c : Chip) (idx sub : Nat) : Nat := (mget (okey idx sub) c.objs).getD (dfltOf idx sub)

/-- The device with a subindex set. A value equal to the reset or default is not listed. -/
def Chip.wr (c : Chip) (idx sub v : Nat) : Chip :=
  { c with objs := if v = dfltOf idx sub then mdel (okey idx sub) c.objs else mset (okey idx sub) v c.objs }

/-- A field of a subindex. -/
def Chip.rdf (c : Chip) (idx sub hi lo : Nat) : Nat := field hi lo (c.rd idx sub)

/-- The device with a field of a subindex set. -/
def Chip.wrf (c : Chip) (idx sub hi lo v : Nat) : Chip := c.wr idx sub (setField hi lo (c.rd idx sub) v)

/-- A flag of a subindex. -/
def Chip.rdb (c : Chip) (idx sub i : Nat) : Bool := bit i (c.rd idx sub)

/-- The device with a flag of a subindex set. -/
def Chip.wrb (c : Chip) (idx sub i : Nat) (b : Bool) : Chip := c.wr idx sub (setBit i (c.rd idx sub) b)

/-- A signed subindex of `w` bits. -/
def Chip.rdi (c : Chip) (idx sub w : Nat) : Int := sext w (c.rd idx sub)

/-- A signed value limited to `w` bits, as its raw bits ("saturates"). -/
def satInt (w : Nat) (v : Int) : Nat :=
  wrapInt w (max (-(2 ^ (w - 1) : Int)) (min v (2 ^ (w - 1) - 1)))

/-- A saturating 32-bit counter raised by `n` (12 "Saturates"). -/
def Chip.incBy (c : Chip) (idx sub n : Nat) : Chip := c.wr idx sub (satAdd 32 (c.rd idx sub) n)

/-- A saturating 32-bit counter raised by one. -/
def Chip.inc (c : Chip) (idx sub : Nat) : Chip := c.incBy idx sub 1

/-- Repeat an operation over the first `n` numbers. -/
def Chip.each (c : Chip) (n : Nat) (f : Nat → Chip → Chip) : Chip := (List.range n).foldl (fun c i => f i c) c

/-- Repeat an operation over a list of numbers. -/
def Chip.overAll (c : Chip) (l : List Nat) (f : Nat → Chip → Chip) : Chip := l.foldl (fun c i => f i c) c

/-- An operation made only under a condition. -/
def Chip.iff (c : Chip) (b : Bool) (f : Chip → Chip) : Chip := if b then f c else c

/-- One value the specification leaves open, drawn fresh. -/
def Chip.draw (c : Chip) : Nat × Chip := (Config.freeValue c.free, { c with free := c.free + 1 })

/-! ### Units present in the grade (00 R1) -/

/-- External references, ports, channels and engines present. -/
def Grade.refs : Grade → Nat
  | .e => 8 | _ => 16
def Grade.ports : Grade → Nat
  | .e => 4 | _ => 8
def Grade.chans : Grade → Nat
  | .e => 4 | _ => 8
def Grade.engines : Grade → Nat
  | .e => 8 | _ => 16
/-- Usable entries of the session table. -/
def Grade.sessions : Grade → Nat
  | .f => 65536 | .s => 32768 | .e => 8192
/-- Signature unit and launch-time unit present. -/
def Grade.sgn : Grade → Bool
  | .e => false | _ => true
def Grade.ltu : Grade → Bool
  | .f => true | _ => false
/-- GRADE of 0x1010:01 (00 R2). -/
def Grade.code : Grade → Nat
  | .f => 1 | .s => 2 | .e => 3
/-- PORT_RATE_MAX (00 R3). -/
def Grade.rateMax : Grade → Nat
  | .f => 3 | _ => 2

/-- The candidate is present in the grade (00 R1). -/
def Grade.hasCand (g : Grade) (n : Nat) : Bool :=
  if n < 16 then n < g.refs else if n < 24 then n - 16 < g.ports else n < 28

/-- The lane is present. -/
def Grade.hasLane (g : Grade) (l : Nat) : Bool := l < 24 && g.hasCand l

/-- UNIT_PRESENCE (00 R3). -/
def Grade.presence (g : Grade) (sub : Nat) : Nat :=
  match sub with
  | 1 => (2 ^ g.refs - 1) * 65536 + (2 ^ g.ports - 1) * 256 + (2 ^ g.chans - 1)
  | 2 => (2 ^ g.engines - 1) * 65536 + g.sgn.toNat * 2 + g.ltu.toNat
  | 3 => g.sessions
  | 4 => g.rateMax
  | _ => 0

/-! ### Domains (01 R17) -/

/-- Position of a domain in the list of domain states. -/
def domIdx : Dom → Nat
  | .mast => 0 | .sense => 1 | .loop => 2 | .enga => 3 | .engb => 4 | .fabric => 5 | .port => 6 | .synth => 7 | .syspll => 8

/-- Every switched domain, in the order of 01 R19. -/
def switched : List Dom := [.sense, .synth, .syspll, .loop, .fabric, .port, .enga, .engb]

/-- The state of a domain. -/
def Chip.dom (c : Chip) (d : Dom) : DomState := nth c.power.doms (domIdx d) .asleep

/-- The device with a domain in a state. -/
def Chip.setDom (c : Chip) (d : Dom) (s : DomState) : Chip :=
  { c with power := { c.power with doms := setNth c.power.doms (domIdx d) s } }

/-- Awake: supply closed and clock running (01 R17). -/
def Chip.awake (c : Chip) (d : Dom) : Bool := c.dom d == .awake

/-- A wake of the domain is in progress. -/
def Chip.waking (c : Chip) (d : Dom) : Bool :=
  match c.dom d with
  | .waking _ => true
  | _ => false

/-- VDDIO is good: the panel inputs (keys, plugs and TAMPER) are sampled, else they keep their last debounced states (14 R357). -/
def Chip.panelInputs (c : Chip) : Bool := c.rdb 0xA001 2 4

/-- The time counter runs on LO ticks. -/
def Chip.loPresent (c : Chip) : Bool := c.time.lo == .present

/-- The measurement clock is locked (03 R69). -/
def Chip.mclk (c : Chip) : Bool := c.rdb 0x2100 1 0

/-! ### Candidates, lanes, channels: access by number -/

def Chip.cand (c : Chip) (n : Nat) : Cand := nth c.cands n default
def Chip.modCand (c : Chip) (n : Nat) (f : Cand → Cand) : Chip := { c with cands := modNth c.cands n f }
def Chip.lane (c : Chip) (l : Nat) : Lane := nth c.tdc.lanes l default
def Chip.modLane (c : Chip) (l : Nat) (f : Lane → Lane) : Chip :=
  { c with tdc := { c.tdc with lanes := modNth c.tdc.lanes l f } }
def Chip.aux (c : Chip) (a : Nat) : Aux := nth c.tdc.aux a default
def Chip.modAux (c : Chip) (a : Nat) (f : Aux → Aux) : Chip :=
  { c with tdc := { c.tdc with aux := modNth c.tdc.aux a f } }
def Chip.chan (c : Chip) (n : Nat) : Chan := nth c.chans n default
def Chip.modChan (c : Chip) (n : Nat) (f : Chan → Chan) : Chip := { c with chans := modNth c.chans n f }
def Chip.modTime (c : Chip) (f : TimeUnit → TimeUnit) : Chip := { c with time := f c.time }
def Chip.modNv (c : Chip) (f : NvUnit → NvUnit) : Chip := { c with nv := f c.nv }
def Chip.modMinute (c : Chip) (f : Minute → Minute) : Chip := { c with nv := { c.nv with minute := f c.nv.minute } }

/-! ### The time counter's reading (07 R176) -/

/-- One nanosecond in the counter's unit. -/
def nsUnit : Nat := 4294967296

/-- The counter's reading as one number, in 2^−32 ns. -/
def TimeUnit.total (t : TimeUnit) : Nat := (t.seconds * 1000000000 + t.nanoseconds) * nsUnit + t.fraction

/-- The counter set to a reading given as one number. -/
def TimeUnit.ofTotal (t : TimeUnit) (n : Nat) : TimeUnit :=
  { t with
    fraction := n % nsUnit
    nanoseconds := n / nsUnit % 1000000000
    seconds := n / nsUnit / 1000000000 % 2 ^ 48 }

/-- Seconds since MAST power-up, of the model's clock for durations. -/
def Chip.monoSec (c : Chip) : Nat := c.time.mono / (nsUnit * 1000000000)

/-- TC0's published bound in ps, in MAST (01 R24, 05 R124); none while unknown. -/
def Chip.bound (c : Chip) : Option Nat :=
  let b := c.rd 0x3030 2
  if b = 2 ^ 64 - 1 then none else some b

/-- The TEB18 of a record made now by a unit of capture uncertainty `unc` ps (05 R142). -/
def Chip.tebNow (c : Chip) (unc : Nat) : Nat := encodeTeb (c.bound.map (· + unc))

/-- A TS128 of the present reading (00 R12). -/
def Chip.stamp (c : Chip) (unc tag : Nat) : Nat :=
  packTs c.time.seconds c.time.nanoseconds (c.time.fraction / 65536) (c.tebNow unc) tag

/-- The present reading as a TS128 with TAG 0. -/
def Chip.now (c : Chip) : Nat := c.stamp 0 0

/-! ### Events (01 R25, 11 R299, R300) -/

/-- The codes for which 8 entries of the queue are kept (11 R300). -/
def exempt (code : Nat) : Bool :=
  (0x01 ≤ code && code ≤ 0x06) || (0x30 ≤ code && code ≤ 0x34) || code == 0x50 || (0x60 ≤ code && code ≤ 0x83)

/-- The body of an event card (11 table "Event card body"). -/
def eventBody (code detail sec ns teb : Nat) : Nat :=
  code % 256 * 2 ^ 104 + detail % 2 ^ 24 * 2 ^ 80 + sec % 2 ^ 32 * 2 ^ 48 + ns % 2 ^ 30 * 2 ^ 18 + teb % 2 ^ 18

/-- Event cards waiting. -/
def Chip.eventsWaiting (c : Chip) : Nat := (c.nv.cards.filter (fun k => k.type == 2)).length

/-- An event with a given time and bound joins the Steward event queue, or is suppressed (11 R300). -/
def Chip.postAt (c : Chip) (code detail sec ns teb : Nat) : Chip :=
  let lim := !exempt code
  let full := if lim then decide (56 ≤ c.eventsWaiting) else decide (64 ≤ c.eventsWaiting)
  let past := lim && decide (c.rd 0x8102 2 ≤ c.nv.minute.limited)
  if full || past then c.modMinute (fun m => { m with suppressed := m.suppressed + 1 })
  else
    let c := c.modNv (fun n => { n with cards := n.cards ++ [⟨2, eventBody code detail sec ns teb⟩] })
    c.modMinute (fun m => { m with events := min 63 (m.events + 1), limited := m.limited + lim.toNat })

/-- An event posted with the TS128 of the present instant (01 R25). -/
def Chip.post (c : Chip) (code detail : Nat) : Chip :=
  c.postAt code detail c.time.seconds c.time.nanoseconds (c.tebNow 0)

/-- Candidate in DETAIL [23:19]. -/
def candDetail (n : Nat) : Nat := n * 2 ^ 19

/-- Channel or group in DETAIL [23:21]. -/
def chanDetail (n : Nat) : Nat := n * 2 ^ 21

/-! ### Refusals of a write (12 R323): the codes of checks 8, 9 and 10 of R314 -/

def gradeErr : Nat := 0x06030004
def rangeErr : Nat := 0x06030003
def stateErr : Nat := 0x06040001

/-! ### Lifecycle, phase and power state -/

/-- STATE of 0xB000 (15 R378). -/
def Chip.lifecycle (c : Chip) : Nat := c.rd 0xB000 1

/-- PHASE of 0x1030 (17 R411). -/
def Chip.phase (c : Chip) : Nat := c.rd 0x1030 1

/-- STATE of 0xA001: 0 ACTIVE, 1 KEEP, 2 SLEEP (14 R359). -/
def Chip.powerState (c : Chip) : Nat := c.rdf 0xA001 1 1 0

/-- Step 8 of the start-up has been reached: channels, groups, outputs and ports run as configured (17 R410). -/
def Chip.live (c : Chip) : Bool := decide (4 ≤ c.start.stage)

end Sys2Proof.Machine
end

