-- ==== Sys2Proof/Machine/Flags.lean ====
section
/-!
DEFINITION. Sys2Proof/Machine/Flags.lean: the fault collector (13): live bits, pennants, capture, escalation, reactions,
ERR_N and the interrupt flags.
-/

namespace Sys2Proof.Machine

/-- Class of a source: 0 reserved, 1 CE, 2 UC, 3 FA (13 R342). -/
def srcClass (s : Nat) : Nat :=
  nth ([2, 1, 2, 1, 2, 1, 3, 3, 2, 1, 1, 2, 1, 1, 1, 1, 2, 2, 2, 2, 2, 3, 1, 2, 1, 0, 0, 0, 0, 0, 0, 0,
        2, 2, 1, 0, 0, 0, 0, 0, 1, 1, 1, 1, 1, 1, 1, 1, 1, 1, 2, 0, 0, 0, 0, 0, 1, 2, 2, 2, 2, 1, 2, 1] ++
       [1, 1, 1, 1, 1, 1, 1, 1, 0, 0, 0, 0, 0, 0, 0, 0, 1, 1, 1, 1, 1, 1, 1, 1, 1, 1, 1, 0, 0, 0, 0, 0,
        1, 2, 1, 1, 1, 2, 0, 0, 2, 2, 2, 2, 2, 2, 2, 2, 2, 2, 2, 2, 2, 2, 2, 2, 0, 0, 0, 0, 0, 0, 0, 0]) s 0

/-- The source is a condition (13 R342). -/
def srcCond (s : Nat) : Bool :=
  [0, 2, 3, 4, 5, 13, 24, 32, 33, 57, 59, 63, 80, 81, 82, 83, 84, 85, 86, 87, 101].contains s

/-- Domain of a source (13 R342). -/
def srcDom (s : Nat) : Dom :=
  if s < 32 then .mast else if s < 40 then .sense else if s < 56 then .loop
  else if s < 59 then .syspll else if s < 80 then .synth else if s < 96 then .port
  else if s < 104 then .fabric else if s < 112 then .enga else .engb

/-- The source exists in the grade (13 R342). -/
def srcPresent (g : Grade) (s : Nat) : Bool :=
  srcClass s != 0 &&
    !(g == .e && ((44 ≤ s && s ≤ 47) || (68 ≤ s && s ≤ 71) || (84 ≤ s && s ≤ 87) || (112 ≤ s && s ≤ 119)))

def Chip.src (c : Chip) (s : Nat) : Src := nth c.faults.srcs s default
def Chip.modSrc (c : Chip) (s : Nat) (f : Src → Src) : Chip :=
  { c with faults := { c.faults with srcs := modNth c.faults.srcs s f } }

/-- The source's rails are driven: its domain is not isolated (13 R339). -/
def Chip.srcDriven (c : Chip) (s : Nat) : Bool :=
  srcDom s == .mast || !(c.dom (srcDom s) == .asleep)

/-- An error whose reaction includes E drives ERR_N low and restarts its minimum width (13 R349). -/
def Chip.errLow (c : Chip) : Chip :=
  let c := { c with faults := { c.faults with errLow := true, errWidth := true, errRelease := false } }
  c.inc 0x9000 0x0A

/-- The reactions of an error: its own and the escalation (13 R344, R345, R347, R349–R352). MAST has no block reset: B, which only
an escalation can give its sources, resets nothing there (DESIGN CHOICE, log 79). -/
def Chip.react (c : Chip) (s own esc : Nat) : Chip :=
  let mask := Nat.lor own esc
  let c := c.modSrc s (fun r => { r with applied := esc, trapWaits := r.trapWaits || bit 3 mask })
  let c := c.iff (bit 0 mask) Chip.errLow
  let c := c.iff (bit 2 mask && srcDom s != .mast) (fun c =>
    { c with power := { c.power with resetDoms := c.power.resetDoms ++ [srcDom s] } })
  let c := c.iff (bit 1 mask) (fun c => { c with faults := { c.faults with chipReset := true } })
  c.iff (2 ≤ srcClass s) (fun c => c.post 0x50 (s * 2 ^ 17 + (srcClass s - 1) * 2 ^ 15))

/-- The pennant is raised: counted and stamped (13 R341). The collector adds 400,000 ps for its latency (13 R346). -/
def Chip.pennantUp (c : Chip) (s : Nat) : Chip :=
  let c := c.modSrc s (fun r => { r with pennant := true })
  let c := { c with panel := { c.panel with unacked := setBit s c.panel.unacked true } }
  let c := c.inc (0x9100 + s) 6
  c.wr (0x9100 + s) 7 (c.stamp 400000 0)

/-- F001 "capture overflow": never captured and never a later error (13 R347). -/
def Chip.overflow (c : Chip) : Chip :=
  let c := c.inc 0x9101 5
  if (c.src 1).pennant then c else (c.pennantUp 1).react 1 (c.rdf 0x9101 3 4 0) 0

/-- The INFO word of a source for an instance and a detail (13 table "INFO contents"); a family's instance is its member's. -/
def infoWord (s inst detail : Nat) : Nat :=
  if s = 0 then Nat.land detail 0x17F
  else if s = 8 ∨ s = 9 then detail % 4096
  else
    let i := if 40 ≤ s ∧ s < 48 then s - 40 else if 64 ≤ s ∧ s < 72 then s - 64 else if 80 ≤ s ∧ s < 88 then s - 80
      else if 104 ≤ s ∧ s < 120 then s - 104 else inst % 256
    if s = 23 ∨ s = 33 ∨ s = 34 ∨ (40 ≤ s ∧ s ≤ 50) ∨ (61 ≤ s ∧ s ≤ 71) ∨ (80 ≤ s ∧ s ≤ 90) then i * 2 ^ 24
    else if 104 ≤ s ∧ s < 120 then i * 2 ^ 24 + detail % 256 else 0

/-- An error of a source takes the capture from the one captured: both arose in one LO cycle, and its class is higher, or the same
and its number lower (13 R346). -/
def Chip.outranks (c : Chip) (s : Nat) : Bool :=
  let cls := c.rdf 0x9010 1 8 7
  c.faults.capturedAt == some c.time.mono &&
    (decide (cls < srcClass s) || (cls == srcClass s && decide (s < c.rdf 0x9010 1 6 0)))

/-- The capture is filled with an error (13 R346). -/
def Chip.capture_ (c : Chip) (s inst detail : Nat) (access : Option Access) (forced : Bool) : Chip :=
  let cls := srcClass s
  let a := access.getD ⟨0, 0, 0⟩
  let c := c.wr 0x9010 1 (2 ^ 15 + forced.toNat * 2 ^ 14 + access.isSome.toNat * 2 ^ 13 + cls * 2 ^ 7 + s)
  let c := c.wr 0x9010 2 a.master
  let c := c.wr 0x9010 3 a.code
  let c := c.wr 0x9010 4 a.addr
  let c := c.wr 0x9010 5 (infoWord s inst detail)
  let c := c.wr 0x9010 6 (c.stamp 400000 0)
  let c := c.wrf 0x9010 8 1 0 cls
  { c with faults := { c.faults with capturedAt := some c.time.mono } }

/-- The escalation of a later error (13 R347). -/
def Chip.escalation (c : Chip) (s : Nat) : Nat :=
  let cls := srcClass s
  let high := c.rdf 0x9010 8 1 0
  if high < cls ∧ cls = 2 then c.rdf 0x9000 5 4 0 else if high < cls ∧ cls = 3 then c.rdf 0x9000 6 4 0 else 0

/-- One error: captured, or a later error; then its reactions (13 R341, R346, R347). -/
def Chip.error (c : Chip) (s inst detail : Nat) (access : Option Access) (forced : Bool) : Chip :=
  let c := c.pennantUp s
  let own := c.rdf (0x9100 + s) 3 4 0
  if !c.rdb 0x9010 1 15 then ((c.capture_ s inst detail access forced).wr 0x9010 7 0).react s own 0
  else if c.outranks s then (((c.capture_ s inst detail access forced).inc 0x9010 7).react s own 0).overflow
  else
    let esc := c.escalation s
    let c := (c.inc 0x9010 7).wrf 0x9010 8 1 0 (max (c.rdf 0x9010 8 1 0) (srcClass s))
    (c.react s own esc).overflow

/-- An assertion: each counts, and the one that finds the pennant lowered is an error (13 R341); F001 is never captured (13
R347). -/
def Chip.assertSrc (c : Chip) (s inst detail : Nat) (access : Option Access) (forced : Bool) : Chip :=
  if !srcPresent c.grade s then c
  else if s = 1 then c.overflow
  else
    let c := c.inc (0x9100 + s) 5
    if (c.src s).pennant then c else c.error s inst detail access forced

/-- A source's pair asserts it (13 R339–R341): an event for one cycle, a condition until it is dropped. -/
def Chip.raiseWith (c : Chip) (s inst detail : Nat) (access : Option Access) (forced : Bool) : Chip :=
  if !(srcPresent c.grade s && c.srcDriven s) then c
  else if srcCond s then
    let r := c.src s
    let c := c.modSrc s (fun r => { r with
      rail := true, cond := r.cond || !forced, live := r.live || !r.broken
      inst := if r.rail then r.inst else inst, detail := if r.rail then r.detail else detail })
    if r.broken || r.live then c else c.assertSrc s inst detail access forced
  else if (c.src s).broken then c
  else c.assertSrc s inst detail access forced

/-- A named source raises its pennant for an instance, with DETAIL (13 R338, R355). -/
def Chip.raise (c : Chip) (s inst detail : Nat) : Chip := c.raiseWith s inst detail none false

/-- The live bit of a condition source returns to 0 (13 R340); a broken pair holds its last value (13 R339), and a forced one
stays asserted (13 R354). -/
def Chip.drop (c : Chip) (s : Nat) : Chip :=
  let held := c.rd (0x9100 + s) 4 == 1
  c.modSrc s (fun r => { r with cond := false, rail := r.rail && held, live := r.live && (r.broken || held) })

/-- A condition source follows its condition (13 R340). -/
def Chip.follow (c : Chip) (s inst detail : Nat) (b : Bool) : Chip :=
  if b then c.raise s inst detail else c.drop s

/-- A sleeping domain's pairs are driven inactive (13 R339). -/
def Chip.isolate (c : Chip) (d : Dom) : Chip :=
  c.each 128 (fun s c => c.iff (srcDom s == d) (fun c =>
    c.modSrc s (fun r => { r with live := false, rail := false, cond := false, broken := false })))

/-- The F000 source follows whether any pair is broken (13 R339). -/
def Chip.brokenCheck (c : Chip) : Chip := c.iff (!c.faults.srcs.any (fun r => r.broken)) (fun c => c.drop 0)

/-- A pair breaks: the live bit holds, and F000 asserts with the source and the rail state (13 R339); by a force bit or not
(13 R354). -/
def Chip.breakPair (c : Chip) (s : Nat) (high forced : Bool) : Chip :=
  if !(srcPresent c.grade s && c.srcDriven s) then c
  else
    let was := (c.src s).broken
    let c := c.modSrc s (fun r => { r with broken := true, brokenHigh := high })
    if was then c
    else
      let live0 := (c.src 0).live
      let c := c.modSrc 0 (fun r => { r with live := r.live || !r.broken, rail := true })
      if live0 || (c.src 0).broken then c else c.assertSrc 0 0 (high.toNat * 256 + s) none forced

/-- A pair reads valid again: BROKEN clears and the live bit follows the pair (13 R339). -/
def Chip.restorePair (c : Chip) (s : Nat) : Chip :=
  let r := c.src s
  if !r.broken then c
  else
    let c := c.modSrc s (fun r => { r with broken := false, live := r.rail && srcCond s })
    let c := c.iff (srcCond s && r.rail && !r.live) (fun c => c.assertSrc s r.inst r.detail none (!r.cond))
    c.brokenCheck

/-- A pennant lowered by CLEAR; refused while the source is live (13 R353). -/
def Chip.lower (c : Chip) (s : Nat) : Chip :=
  if (c.src s).live then c else c.modSrc s (fun r => { r with pennant := false, applied := 0 })

/-- FAULT_IRQ (13 R350). -/
def Chip.faultIrq (c : Chip) : Bool :=
  (List.range 128).any (fun s =>
    let r := c.src s
    r.pennant && (bit 4 (c.rd (0x9100 + s) 3) || bit 4 r.applied))

/-- IRQ_N is driven low (12 R333). -/
def Chip.irqLow (c : Chip) : Bool :=
  c.faultIrq || (!c.tpp.outbox.isEmpty && c.rdb 0x1100 6 0)

/-- The 128-bit fields PENNANTS and LIVE of 0x9000 (13). -/
def Chip.srcBits (c : Chip) (f : Src → Bool) : Nat :=
  (List.range 128).foldl (fun a s => a + (f (c.src s)).toNat * 2 ^ s) 0

/-- The waiting trap the Steward takes: highest class, then lowest source (13 R345). -/
def Chip.nextTrap (c : Chip) : Option Nat :=
  let w := (List.range 128).filter (fun s => (c.src s).trapWaits)
  match w.find? (fun s => srcClass s == 3) with
  | some s => some s
  | none =>
    match w.find? (fun s => srcClass s == 2) with
    | some s => some s
    | none => w.head?

end Sys2Proof.Machine
end

