-- ==== Sys2Proof/Machine/Time.lean ====
section
/-!
DEFINITION. Sys2Proof/Machine/Time.lean: the time counter (07 R176–R188): counting, the reading at an instant, requests for
steps, whole seconds from the phase source, UTC offset and leaps.
-/

namespace Sys2Proof.Machine

/-- NOMINAL (02 0x4000). -/
def Chip.nominal (c : Chip) : Nat := c.rd 0x4000 1

/-- The increment on LO ticks: the last written, else 10^9 / NOMINAL ns (07 R177). -/
def Chip.loIncrement (c : Chip) : Nat := c.time.written.getD (1000000000 * nsUnit / c.nominal)

/-- The increment on RC edges: RC_PERIOD_PS (07 R178). -/
def Chip.rcIncrement (c : Chip) : Nat := c.rd 0x1201 0x0A * nsUnit / 1000

/-- The increment in force (07 R176, R178). -/
def Chip.increment (c : Chip) : Nat := if c.loPresent then c.loIncrement else c.rcIncrement

/-- The counter moved by a whole number of its units, an LO tick included in the model's clock (07 R176). -/
def Chip.advance (c : Chip) (n : Nat) : Chip :=
  c.modTime (fun t => { t.ofTotal (t.total + n) with mono := t.mono + n })

/-- One LO tick, or one RC edge while the LO is not present: the counter takes its increment, and the coarse counter counts
the measurement clock's cycles of that tick (07 R176, R178, 03 R70). -/
def Chip.tick (c : Chip) : Chip :=
  let run := c.loPresent && c.mclk
  let c := (c.advance c.increment).modTime (fun t => { t with ticks := if t.lo == .present then t.ticks + 1 else t.ticks })
  if run then
    let n := c.tdc.coarseRem + 312500000
    { c with tdc := { c.tdc with coarse := c.tdc.coarse + n / c.nominal, coarseRem := n % c.nominal } }
  else c

/-- The counter's reading in ps. -/
def Chip.readPs (c : Chip) : Rat := (c.time.total : Rat) * 1000 / nsUnit

/-- The lane instant of the present tick, in 3.125 ps steps. -/
def Chip.laneNow (c : Chip) : Rat := ((c.tdc.coarse : Rat) + (c.tdc.coarseRem : Rat) / c.nominal) * 1024

/-- The signed distance of a coarse count from the present one, modulo 2^32 (03 R70). -/
def Chip.coarseDist (c : Chip) (k : Nat) : Int := sext 32 (wrapInt 32 ((k : Int) - (c.tdc.coarse : Int)))

/-- The counter's reading, in ps, at an instant of the lane time base: the reading at the tick plus the interval scaled by the
increment in force (03 R83). -/
def Chip.readAt (c : Chip) (t : Rat) : Rat :=
  c.readPs + (t - c.laneNow) * (25 / 8) * ((c.increment : Rat) * c.nominal / (1000000000 * nsUnit))

/-- A TS128 of a reading in ps, with the bound of now and a capture uncertainty (03 R83). -/
def Chip.stampAt (c : Chip) (ps : Rat) (unc tag : Nat) : Nat :=
  let n := (ps * nsUnit / 1000).floor.toNat
  let t := c.time.ofTotal n
  packTs t.seconds t.nanoseconds (t.fraction / 65536) (c.tebNow unc) tag

/-- The bound of a channel becomes unknown with a reason (05 R132); TC0's is published. -/
def Chip.boundUnknown (c : Chip) (ch code : Nat) : Chip :=
  let c := c.wr (0x3030 + ch) 1 0x3FFFF
  let c := c.wr (0x3030 + ch) 2 (2 ^ 64 - 1)
  let c := c.wr (0x3030 + ch) 3 code
  if ch = 0 then c.modMinute (fun m => { m with unknown := true }) else c

/-! ### Requests for steps (07 R180–R182) -/

/-- STEP_PENDING (07 R181). -/
def Chip.stepPending (c : Chip) : Bool := c.time.pendingStep.isSome

/-- A step is requested: Δ is added to the one pending, or an absolute value is loaded. The published bound is unknown from
now (05 R141). -/
def Chip.requestStep (c : Chip) (delta : Int) (load : Option (Nat × Nat × Nat)) (who : Nat) (tc0 : Int) : Chip :=
  let p : StepReq := match c.time.pendingStep with
    | some p => { p with delta := p.delta + delta, tc0 := p.tc0 + tc0, aligned := p.aligned || who == 1 }
    | none => ⟨delta, load, who, tc0, who == 1⟩
  let c := { c with hand := { c.hand with stepOpen := c.stepPending && c.hand.stepOpen } }
  let c := c.modTime (fun t => { t with pendingStep := some p })
  let c := c.wrb 0x1201 1 2 true
  let c := c.modChan 0 (fun k => { k with stepLeft := some 16 })
  c.boundUnknown 0 (if c.rdb 0x3000 1 0 && (c.chan 0).on then 3 else 1)

/-- TIME_VALID is set (07 R179). -/
def Chip.timeValid (c : Chip) : Chip :=
  if c.rdb 0x1201 1 0 then c else (c.wrb 0x1201 1 0 true).post 0x34 0

/-- A sample of a seconds source: its seconds and its instant on the lane time base (07 R185). -/
def Chip.secondsCheck (c : Chip) (secs : Nat) (t : Rat) : Chip :=
  let r := c.readAt t / 1000000000000
  let d := (secs : Rat) - r
  let n := (d + 1 / 2).floor
  let frac := ratAbs (d - n)
  let c := c.wr 0x1201 9 (wrapInt 64 n)
  let c := if n = 0 then (c.wrb 0x1201 1 3 false).follow 24 0 0 false else c
  if (499 : Rat) / 1000 < frac then c
  else
    let run : Int × Nat := match c.time.run with
      | some (v, k) => if v = n then (v, k + 1) else (n, 1)
      | none => (n, 1)
    let c := c.modTime (fun u => { u with run := some run })
    if run.2 < c.rd 0x1201 8 then c
    else if n = 0 then c.timeValid
    else if (c.time.pendingStep.map (fun p => p.aligned)).getD false then c
    else
      let m := c.rd 0x1201 7
      if m = 2 ∨ (m = 1 ∧ (c.rdb 0x1201 1 0 = false ∨ c.rdf 0x3010 1 1 0 ≠ 2)) then
        let c := c.modTime (fun u => { u with run := none })
        c.requestStep (n * 1000000000) none 1 0
      else (c.wrb 0x1201 1 3 true).follow 24 0 0 true

/-! ### UTC offset and leaps (07 R186, R187) -/

/-- UTC_OFFSET and UTC_OFFSET_VALID. -/
def Chip.utcOffset (c : Chip) : Int := c.rdi 0x1210 1 16
def Chip.utcValid (c : Chip) : Bool := c.rdb 0x1210 2 0

/-- The instant of the change that the flags announce, in TAI seconds (07 R187): the start of the next UTC day under the
present offset, one later or earlier; a day later if it is less than 2 s ahead. -/
def Chip.leapInstant (c : Chip) : Nat :=
  let o := c.utcOffset
  let now : Int := c.time.seconds
  let past := (now - o) % 86400
  let whole := past = 0 ∧ c.time.nanoseconds = 0 ∧ c.time.fraction = 0
  let t : Int := if whole then now else now - past + 86400
  let at_ := if c.rdb 0x1210 2 2 then t + 1 else t - 1
  let near := decide (c.readPs / 1000000000000 > (at_ : Rat) - 2)
  (at_ + if near then 86400 else 0).toNat

/-- NEXT_LEAP follows the flags (07 R187). -/
def Chip.planLeap (c : Chip) : Chip :=
  if c.rdf 0x1210 2 2 1 = 0 then c.wr 0x1210 4 0
  else c.wr 0x1210 4 (packTs c.leapInstant 0 0 (c.tebNow 0) 0)

/-- UTC data received from the phase source while UTC_SOURCE is 1 (07 R186). -/
def Chip.utcReceived (c : Chip) (off : Nat) (valid leap59 leap61 : Bool) : Chip :=
  if c.rd 0x1210 3 ≠ 1 then c
  else
    let old := c.rd 0x1210 2
    let moved := c.rd 0x1210 1 != off % 65536 && c.rd 0x1210 4 != 0
    let c := (c.wr 0x1210 1 (off % 65536)).wrb 0x1210 2 0 valid
    let c := if leap59 && leap61 then c else (c.wrb 0x1210 2 1 leap59).wrb 0x1210 2 2 leap61
    if field 2 1 old = c.rdf 0x1210 2 2 1 ∧ !moved then c else c.planLeap

/-- The change of the UTC offset at the announced instant (07 R187). -/
def Chip.leapApply (c : Chip) : Chip :=
  if c.rd 0x1210 4 = 0 then c
  else
    let up := c.rdb 0x1210 2 2
    let o := c.utcOffset + if up then 1 else -1
    let c := c.wr 0x1210 1 (wrapInt 16 o)
    let c := (c.wrb 0x1210 2 1 false).wrb 0x1210 2 2 false
    let c := (c.wr 0x1210 4 0).inc 0x1210 5
    c.post 0x33 (up.toNat * 2 ^ 23 + wrapInt 16 o)

/-! ### The RC oscillator (07 R178) -/

/-- One measurement of the RC period against the LO; RC_PERIOD_PS is the mean of the last 16. -/
def Chip.rcMeasure (c : Chip) (ps : Nat) : Chip :=
  if !c.loPresent then c
  else
    let h := (ps :: c.time.rcHistory).take 16
    let c := c.modTime (fun t => { t with rcHistory := h })
    c.wr 0x1201 0x0A (h.foldl (· + ·) 0 / h.length % 2 ^ 32)

end Sys2Proof.Machine
end

