-- ==== Sys2Proof/Machine/Tdc.lean ====
section
/-!
DEFINITION. Sys2Proof/Machine/Tdc.lean: the measurement clock, the reference lanes with their calibration and conversions, the
auxiliary lanes, event capture and the cross-check (03 R68–R91).
-/

namespace Sys2Proof.Machine

/-! ### Candidates' detection (02 R45, R46) -/

/-- Candidate kinds: REF 0–15, PREF 16–23, PKT 24–27 (02 table "Candidate types"). -/
def isRef (n : Nat) : Bool := n < 16
def isPref (n : Nat) : Bool := 16 ≤ n && n < 24
def isPkt (n : Nat) : Bool := 24 ≤ n && n < 28

/-- Recovered clock in mHz and lane pre-divider by port rate 1G, 10G, 25G (02 table "PREF detection rates"). -/
def prefClock (rate : Nat) : Nat × Nat :=
  match rate with
  | 0 => (125000000000, 64) | 1 => (125000000000, 64) | 2 => (161132812500, 128) | _ => (644531250000, 512)

/-- Detection rate in Hz: edges passed to the lane, or samples of a PKT's seconds (02 R45, R46, 04 R93). -/
def Chip.detRate (c : Chip) (n : Nat) : Rat :=
  if isRef n then (c.rd (0x2000 + n) 2 : Rat) / 1000 / c.rd (0x2000 + n) 5
  else if isPref n then
    let p := prefClock (c.rd (0x5000 + (n - 16)) 2)
    (p.1 : Rat) / 1000 / p.2
  else 1

/-- Detection period in 3.125 ps steps. -/
def Chip.period (c : Chip) (n : Nat) : Rat := 320000000000 / c.detRate n

/-- LINK_UP and RX_LPI of a port (08 0x5010). -/
def Chip.linkUp (c : Chip) (p : Nat) : Bool := c.rdb (0x5010 + p) 1 0
def Chip.rxLpi (c : Chip) (p : Nat) : Bool := c.rdb (0x5010 + p) 1 6

/-- The candidate's ENABLE. -/
def Chip.candOn (c : Chip) (n : Nat) : Bool := c.grade.hasCand n && c.rdb (0x2000 + n) 1 0

/-- Receiver mode of a REF. -/
def Chip.refMode (c : Chip) (n : Nat) : Nat := c.rdf (0x2000 + n) 3 5 3

/-- The lane runs (02 R454). -/
def Chip.laneRuns (c : Chip) (l : Nat) : Bool :=
  c.live && c.candOn l && c.awake .sense && c.mclk &&
    (if isRef l then c.refMode l != 0 else c.linkUp (l - 16) && !c.rxLpi (l - 16))

/-- CAL_FAILED of a lane. -/
def Chip.calFailed (c : Chip) (l : Nat) : Bool := c.rdb (0x2130 + l) 1 1

/-- Differences of coarse counts, modulo 2^32 (03 R70). -/
def coarseSub (a b : Nat) : Nat := wrapInt 32 ((a : Int) - (b : Int))

/-! ### Conversions (03 R72–R76, R79, R80) -/

/-- The raw code of a conversion (03 R71). -/
def rawCode (m : RingCounts) : Nat := 32 * m.nc - m.nv

/-- A pair ended more than 64 cycles before an edge (03 R75). -/
def Pair.old (p : Pair) (cycle : Nat) : Bool := p.past || decide (64 < coarseSub cycle p.ended)

/-- What an edge that reaches a running lane does to it (03 R79, R80). The second component tells whether the edge counts. An armed
lane that has no valid pair yet and is not CAL_FAILED has no row in the table: the edge counts and gives no sample (DESIGN CHOICE,
log 66). -/
def Chip.laneEdge (c : Chip) (l cycle : Nat) : Chip × Bool :=
  let ln := c.lane l
  if c.calFailed l then (c, false)
  else if ln.lastEdge = some cycle then (c.inc (0x2130 + l) 4, false)
  else
    let c := c.modLane l (fun n => { n with
      interval := n.lastEdge.map (coarseSub cycle), lastEdge := some cycle })
    match ln.conv with
    | .busy => (c.inc (0x2130 + l) 4, true)
    | .calibrating => (c.inc (0x2130 + l) 5, true)
    | .armed =>
      match ln.pair with
      | none => (c, true)
      | some p =>
        let c := c.modLane l (fun n => { n with conv := .busy, stop := some (cycle + 2) })
        (c.iff (p.old cycle) (fun c => c.inc (0x2130 + l) 7), true)

/-- Factory TRIM of a lane for the present receiver mode (03 R77). -/
def Chip.trim (c : Chip) (l : Nat) : Int := Config.laneTrim l (if isRef l then c.refMode l else 0)

/-- PHASE and COARSE of a raw code before TRIM and USER_OFFSET, in steps from the reference stop's span (03 R76). -/
def rawPhase (r1 r2 rm : Nat) : Int :=
  let num : Int := 1024 * ((r2 : Int) - rm)
  let den : Int := (r2 : Int) - r1
  Int.fdiv (2 * num + den) (2 * den)

/-- The sample of a phase in steps and the coarse index of its reference stop (03 R76). -/
def sampleOf (ph : Int) (s : Nat) : Sample :=
  ⟨wrapInt 32 ((s : Int) - 2 + Int.fdiv ph 1024), (Int.fmod ph 1024).toNat⟩

/-! ### The schedule of calibration pairs (03 R75) -/

/-- Nominal detection period of a lane, in measurement-clock cycles. -/
def Chip.nominalCycles (c : Chip) (l : Nat) : Rat := 312500000 / c.detRate l

/-- The cycle of the last rising edge at or before the predicted time of the next edge: the last edge plus the last interval, or the
nominal detection period where there is none or it departs by more than 1 %. -/
def Chip.predicted (c : Chip) (l : Nat) : Option Nat :=
  let ln := c.lane l
  let t := c.nominalCycles l
  ln.lastEdge.map (fun e => e + (match ln.interval with
    | some i => if ratAbs ((i : Rat) - t) * 100 ≤ t then i else t.floor.toNat
    | none => t.floor.toNat))

/-- A pair of 8 cycles that starts at a cycle would overlap the predicted one, which starts 16 cycles before its edge. -/
def Chip.pairOverlaps (c : Chip) (l cycle : Nat) : Bool :=
  match c.predicted l with
  | some p => decide (cycle < p - 16 + 8) && decide (p - 16 < cycle + 8)
  | none => false

/-- A conversion completes: the lane forms its sample and is armed again, or starts a refresh pair that fell due meanwhile (03 R71,
R75, R76). The converter is armed at the second rising edge after its stop. -/
def Chip.convert (c : Chip) (l rm : Nat) : Chip :=
  let ln := c.lane l
  match ln.conv, ln.stop, ln.pair with
  | .busy, some s, some p =>
    let ph := rawPhase p.r1 p.r2 rm - c.trim l
    let smp := sampleOf (ph - c.rdi (0x2110 + l) 1 18) s
    let pair := ln.calDue && !c.pairOverlaps l (s + 2)
    c.modLane l (fun n => { n with
      conv := if pair then .calibrating else .armed, calDue := false, stop := none, formed := some smp,
      last := some (((s : Int) - 2) * 1024 + ph), lastCycle := some (s - 2) })
  | _, _, _ => c

/-! ### Calibration (03 R73–R75) -/

/-- The predicted pair starts, at its cycle, if the converter is armed. -/
def Chip.calPredicted (c : Chip) (l cycle : Nat) : Chip :=
  if !(c.awake .sense && c.mclk) || (c.lane l).conv != .armed || c.predicted l != some (cycle + 16) then c
  else c.modLane l (fun n => { n with conv := .calibrating, calDue := false })

/-- A refresh pair is due: it starts at this cycle if the converter is armed, waits for a busy one, and is skipped where it would
overlap the predicted pair. -/
def Chip.calRefresh (c : Chip) (l cycle : Nat) : Chip :=
  if !(c.awake .sense && c.mclk) || c.pairOverlaps l cycle then c
  else
    match (c.lane l).conv with
    | .armed => c.modLane l (fun n => { n with conv := .calibrating, calDue := false })
    | .busy => c.modLane l (fun n => { n with calDue := true })
    | .calibrating => c

/-- Valid codes of a pair (03 R74). -/
def validPair (r1 r2 : Nat) : Bool :=
  768 ≤ r1 && r1 ≤ 1280 && r1 + 896 ≤ r2 && r2 ≤ r1 + 1152

/-- F033 follows whether any lane shows CAL_FAILED (03 R74, 13 R340). -/
def Chip.calFault (c : Chip) : Chip := c.iff (!(List.range 24).any c.calFailed) (fun c => c.drop 33)

/-- A pair completes (03 R74). -/
def Chip.calDone (c : Chip) (l r1 r2 cycle : Nat) : Chip :=
  if (c.lane l).conv != .calibrating then c
  else
    let c := c.modLane l (fun n => { n with conv := .armed })
    if validPair r1 r2 then
      let c := c.modLane l (fun n => { n with pair := some ⟨r1, r2, cycle, false⟩ })
      let c := (c.wrb (0x2130 + l) 1 0 true).wrb (0x2130 + l) 1 1 false
      ((c.wr (0x2130 + l) 2 r1).wr (0x2130 + l) 3 r2).calFault
    else c.inc (0x2130 + l) 6

/-- 1 ms after the last valid pair the lane stops, the measurement clock locked or not (03 R74). A converter of an auxiliary lane
drops its pair: it has no CAL_FAILED, and F033 names lanes 0 to 23 only. -/
def Chip.calFail (c : Chip) (l : Nat) : Chip :=
  if !c.awake .sense then c
  else if 24 ≤ l then
    c.modAux ((l - 24) / 2) (fun x =>
      if l % 2 = 0 then { x with x := { x.x with pair := none } } else { x with y := { x.y with pair := none } })
  else if (c.lane l).pair.isNone || c.calFailed l then c
  else
    let c := c.modLane l (fun n => { n with formed := none })
    let c := c.wrb (0x2130 + l) 1 1 true
    c.raise 33 l 0

/-! ### Auxiliary lanes (03 R82–R91) -/

/-- ARM of a time-interval unit. -/
def Chip.armed (c : Chip) (a : Nat) : Nat := c.rd (0x2160 + a) 1

/-- Forget the events of the measurement in progress. -/
def Chip.auxClear (c : Chip) (a : Nat) : Chip := c.modAux a (fun x => { x with start := none, stop := none, held := [] })

/-- An armed measurement ends with ABORTED (03 R85). -/
def Chip.auxAbort (c : Chip) (a : Nat) : Chip :=
  if c.armed a = 0 then c
  else (((c.auxClear a).wr (0x2160 + a) 1 0).wrb (0x2168 + a) 1 4 false).wrb (0x2168 + a) 1 2 true

/-- A source code of table "Auxiliary edge sources" present in the grade. -/
def Grade.hasSrc (g : Grade) (s : Nat) : Bool :=
  if s < 0x10 then s < g.refs else if 0x20 ≤ s && s ≤ 0x2F then (s - 0x20) < 2 * g.chans else true

/-- ARM is written; a measurement that cannot run ends with ABORTED at once (03 R69, R84, R85, R91). -/
def Chip.tiaArm (c : Chip) (a v : Nat) : Chip :=
  let c := (c.auxClear a).wr (0x2160 + a) 1 v
  let c := c.iff (a == 1 && v != 0) (fun c => { c with tdc := { c.tdc with crossLane := none, crossBad := 0 } })
  if v ≠ 0 ∧ !(c.awake .sense && c.mclk && c.grade.hasSrc (c.rd (0x2160 + a) 2) && c.grade.hasSrc (c.rd (0x2160 + a) 3)) then
    c.auxAbort a
  else c

/-- Pairs that are due start: X's before Y's, and never both at once (03 R82). -/
def Aux.sched (x : Aux) : Aux :=
  if x.x.calibrating || x.y.calibrating then x
  else if x.x.due then { x with x := { x.x with calibrating := true, due := false } }
  else if x.y.due then { x with y := { x.y with calibrating := true, due := false } } else x

/-- A converter's pair falls due: after its conversion, or when the last is 1,280 cycles old (03 R82). -/
def Aux.pairDue (x : Aux) (y : Bool) : Aux :=
  (if y then { x with y := { x.y with due := true } } else { x with x := { x.x with due := true } }).sched

/-- A converter that is armed, with a valid pair; one that waits for the other's pair is armed (03 R71, R82). -/
def AuxConv.ready (k : AuxConv) : Bool := !k.calibrating && k.pair.isSome

/-- Which converter of an auxiliary lane measures: X before Y, only one armed with a valid pair (03 R82). -/
def Aux.free (x : Aux) : Option Bool := if x.x.ready then some false else if x.y.ready then some true else none

/-- An edge on an auxiliary lane: its instant in steps, whether coarse-only, whether its pair was aged; the converter that
measured it calibrates after it (03 R82). -/
def Chip.auxTake (c : Chip) (a cycle rm : Nat) : Rat × Bool × Bool × Chip :=
  let x := c.aux a
  match x.free with
  | none => ((cycle : Rat) * 1024 + 512, true, false, c)
  | some y =>
    let p := ((if y then x.y.pair else x.x.pair).getD ⟨0, 0, 0, false⟩)
    let t : Rat := (cycle : Rat) * 1024 + 1024 * (((p.r2 : Rat) - rm) / ((p.r2 : Rat) - p.r1)) -
      Config.laneTrim (24 + a) 0
    (t, false, p.old cycle, c.modAux a (fun x => x.pairDue y))

/-- A converter's calibration is due at 1,280 cycles (03 R82). -/
def Chip.auxCalDue (c : Chip) (a : Nat) (y : Bool) : Chip :=
  if !(c.awake .sense && c.mclk) then c else c.modAux a (fun x => x.pairDue y)

/-- A converter's pair is complete and judged (03 R74, R82). -/
def AuxConv.paired (k : AuxConv) (r1 r2 cycle : Nat) : AuxConv :=
  if !k.calibrating then k
  else { k with calibrating := false, pair := if validPair r1 r2 then some ⟨r1, r2, cycle, false⟩ else k.pair }

/-- A pair of an auxiliary converter completes; the other's may start (03 R74, R82). -/
def Chip.auxPair (c : Chip) (a : Nat) (y : Bool) (r1 r2 cycle : Nat) : Chip :=
  c.modAux a (fun x =>
    (if y then { x with y := x.y.paired r1 r2 cycle } else { x with x := x.x.paired r1 r2 cycle }).sched)

/-- A calibration pair completes: of a lane, or of a converter of AUX0 and AUX1 (lanes 24 to 27). -/
def Chip.pairDone (c : Chip) (l r1 r2 cycle : Nat) : Chip :=
  if l < 24 then c.calDone l r1 r2 cycle else c.auxPair ((l - 24) / 2) (l % 2 == 1) r1 r2 cycle

/-- A pair of events is complete (03 R85, R87). -/
def Chip.tiaComplete (c : Chip) (a : Nat) (s p : AuxEv) : Chip :=
  let d := p.t - s.t
  let rough := s.coarse || p.coarse
  let near := decide (ratAbs d < 1)
  let coin := !rough && near
  let res : Int := if near then 0 else (d + 1 / 2).floor
  let past := c.rdb (0x2168 + a) 1 7
  let c := c.wr (0x2168 + a) 1 (2 ^ 7 + coin.toNat * 2 ^ 6 + rough.toNat * 2 ^ 5 + past.toNat * 2 ^ 3)
  let c := c.wr (0x2168 + a) 2 (wrapInt 64 res)
  let c := (c.wr (0x2168 + a) 3 s.ts).wr (0x2168 + a) 4 p.ts
  let c := (c.inc (0x2168 + a) 5).auxClear a
  c.iff (c.armed a == 1) (fun c => c.wr (0x2160 + a) 1 0)

/-- A stop is judged against its start in unsigned mode (03 R85, R86). -/
def Chip.tiaUnsigned (c : Chip) (a : Nat) (s : AuxEv) : List AuxEv → Chip
  | [] => c.modAux a (fun x => { x with start := some s, held := [] })
  | p :: t => if p.t - s.t ≤ -1 then (c.inc (0x2168 + a) 6).tiaUnsigned a s t else c.tiaComplete a s p

/-- A start event (03 R85). -/
def Chip.tiaStart (c : Chip) (a : Nat) (e : AuxEv) : Chip :=
  let x := c.aux a
  if x.start.isSome then c.inc (0x2168 + a) 7
  else if c.rdb (0x2160 + a) 5 0 then
    match x.stop with
    | some p => c.tiaComplete a e p
    | none => c.modAux a (fun x => { x with start := some e })
  else c.tiaUnsigned a e x.held

/-- A stop event (03 R85, R86). -/
def Chip.tiaStop (c : Chip) (a : Nat) (e : AuxEv) : Chip :=
  let x := c.aux a
  if c.rdb (0x2160 + a) 5 0 then
    match x.start, x.stop with
    | some s, _ => c.tiaComplete a s e
    | none, none => c.modAux a (fun x => { x with stop := some e })
    | none, some _ => c
  else
    match x.start with
    | some s => if e.t - s.t ≤ -1 then c.inc (0x2168 + a) 6 else c.tiaComplete a s e
    | none => c.modAux a (fun x => { x with held := x.held ++ [e] })

/-- A failure of a self-test: counted and recorded (17 R418). -/
def Chip.testFail (c : Chip) (b : Nat) : Chip :=
  ((c.inc 0xD001 (0x0A + b)).wr 0xD001 0x11 (c.stamp 0 0)).wr 0xD001 0x12 b

/-- A completed pass of a self-test (17 R418). -/
def Chip.testPass (c : Chip) (b : Nat) : Chip := c.inc 0xD001 (3 + b)

/-- The code of a conditioned edge of a candidate at the auxiliary lanes: a REF's source code, and for a PREF, which no source code
names, 0x100 + n (log 67). -/
def crossSrc (n : Nat) : Nat := if isRef n then n else 0x100 + n

/-- The comparison of AUX1 with the lane under cross-check, of one edge: the lane's last instant is compared where the edge's cycle
is this one (03 R91). 32 ps is 10.24 steps. -/
def Chip.crossCompare (c : Chip) (l cycle : Nat) (t : Rat) : Chip :=
  match (c.lane l).last with
  | none => c
  | some s =>
    if (c.lane l).lastCycle ≠ some cycle then c
    else
      let bad := decide (256 / 25 < ratAbs (t - s))
      let k := if bad then c.tdc.crossBad + 1 else 0
      let c := { c with tdc := { c.tdc with crossBad := if k = 3 then 0 else k } }
      c.iff (k == 3) (fun c => (c.raise 34 l 0).testFail 3)

/-- An edge from an auxiliary source (03 R82, R83, R85, R91). -/
def Chip.auxEdge (c : Chip) (a src : Nat) (falling : Bool) (cycle rm : Nat) : Chip :=
  if !(c.awake .sense && c.mclk) then c
  else if c.armed a = 0 then
    match c.tdc.crossLane with
    | some l =>
      if a ≠ 1 ∨ src ≠ crossSrc l ∨ !c.laneRuns l then c
      else
        let r := c.auxTake a cycle rm
        if r.2.1 then r.2.2.2 else r.2.2.2.crossCompare l cycle r.1
    | none => c
  else if isRef src && c.refMode src == 0 then c
  else
    let asStart := src == c.rd (0x2160 + a) 2 && falling == c.rdb (0x2160 + a) 4 1
    let asStop := src == c.rd (0x2160 + a) 3 && falling == c.rdb (0x2160 + a) 4 0
    if !(asStart || asStop) then c
    else
      let r := c.auxTake a cycle rm
      let c := r.2.2.2
      let e : AuxEv := ⟨r.1, c.stampAt (c.readAt r.1) (if r.2.1 then 1620 else 20) 0, r.2.1⟩
      if asStart && asStop then if (c.aux a).start.isSome then c.tiaStop a e else c.tiaStart a e
      else if asStart then c.tiaStart a e else c.tiaStop a e

/-- A stop held for 8 cycles without a matching start is earlier than the start (03 R86). -/
def Chip.stopExpire (c : Chip) (a : Nat) : Chip :=
  match (c.aux a).held with
  | [] => c
  | _ :: t => (c.modAux a (fun x => { x with held := t })).inc (0x2168 + a) 6

/-- TIMEOUT after arming with the pair incomplete (03 R85). The spec does not say what ARM becomes: a single measurement's returns to
0, a continuous one starts afresh (DESIGN CHOICE, log 68). -/
def Chip.tiaTimeout (c : Chip) (a : Nat) : Chip :=
  if c.armed a = 0 || c.rd (0x2160 + a) 6 = 0 then c
  else
    let c := ((c.wrb (0x2168 + a) 1 4 true).wrb (0x2168 + a) 1 2 false).inc (0x2168 + a) 8
    let c := c.auxClear a
    c.iff (c.armed a == 1) (fun c => c.wr (0x2160 + a) 1 0)

/-- A read of RESULT clears VALID and OVERWRITTEN (03 R87). -/
def Chip.tiaRead (c : Chip) (a : Nat) : Chip := (c.wrb (0x2168 + a) 1 7 false).wrb (0x2168 + a) 1 3 false

/-! ### Event capture (03 R88–R90) -/

/-- An edge of a TRIG pin (03 R88, R89). -/
def Chip.capture (c : Chip) (pin : Nat) (falling : Bool) (cycle rm : Nat) : Chip :=
  let sel := c.rdf 0x2170 2 (2 * pin + 1) (2 * pin)
  if !(c.awake .sense && c.mclk) || !c.rdb 0x2170 1 pin || !bit falling.toNat sel then c
  else
    let r := c.auxTake 0 cycle rm
    let c := r.2.2.2
    let seq := c.rd 0x2170 6
    let c := c.wr 0x2170 6 ((seq + 1) % 256)
    if 64 ≤ c.tdc.fifo.length then
      let c := if c.rd 0x2170 4 = 0 then c.wr 0x2170 5 seq else c
      let c := c.inc 0x2170 4
      { c with tdc := { c.tdc with lossBefore := true } }
    else
      let tag := pin * 2 ^ 14 + falling.toNat * 2 ^ 13 + r.2.1.toNat * 2 ^ 12 + r.2.2.1.toNat * 2 ^ 11 +
        c.tdc.lossBefore.toNat * 2 ^ 10 + seq
      let ts := c.stampAt (c.readAt r.1) (if r.2.1 then 1620 else 20) tag
      { c with tdc := { c.tdc with fifo := c.tdc.fifo ++ [ts], lossBefore := false } }

/-- A read of CAPTURE_HEAD removes the oldest entry; an empty FIFO reads zeros (03 R88). -/
def Chip.captureRead (c : Chip) : Nat × Chip :=
  match c.tdc.fifo with
  | [] => (0, c)
  | t :: r => (t, { c with tdc := { c.tdc with fifo := r } })

/-! ### The measurement clock (03 R69, R70) -/

/-- Every lane and auxiliary lane idle, without pairs if the domain slept. -/
def Chip.lanesStop (c : Chip) (keepPairs : Bool) : Chip :=
  let kept (p : Option Pair) : Option Pair := if keepPairs then p.map (fun p => { p with past := true }) else none
  let lane (n : Lane) : Lane := { (default : Lane) with conv := .armed, pair := kept n.pair }
  let conv (x : AuxConv) : AuxConv := ⟨false, false, kept x.pair⟩
  let aux (x : Aux) : Aux := { x with x := conv x.x, y := conv x.y }
  let c := { c with tdc := { c.tdc with lanes := c.tdc.lanes.map lane, aux := c.tdc.aux.map aux } }
  let c := { c with cands := c.cands.map (fun (k : Cand) => { k with held := none }) }
  let c := c.iff (!keepPairs) (fun c => c.each 24 (fun l c => c.wrf (0x2130 + l) 1 1 0 0))
  (c.auxAbort 0).auxAbort 1

/-- Loss of lock (03 R69). -/
def Chip.mclkLoss (c : Chip) : Chip :=
  let c := ((c.wrb 0x2100 1 0 false).inc 0x2100 4).lanesStop true
  let c := { c with tdc := { c.tdc with goodWindows := 0 } }
  (c.post 0x06 0).raise 32 0 0

/-- The measurement clock stops without a loss: LO absent, or SENSE asleep (03 R69, 14 R363). -/
def Chip.mclkStop (c : Chip) (keepPairs : Bool) : Chip :=
  let c := (c.wrb 0x2100 1 0 false).lanesStop keepPairs
  { c with tdc := { c.tdc with goodWindows := 0 } }

/-- Lock is declared: the coarse counter starts at 0 (03 R69, R70). -/
def Chip.mclkLock (c : Chip) : Chip :=
  let c := (c.wrb 0x2100 1 0 true).drop 32
  { c with tdc := { c.tdc with goodWindows := 8, coarse := 0, coarseRem := 0 } }

/-- A lock window ends (03 R69, 17 R421). -/
def Chip.mclkWindow (c : Chip) (count : Nat) : Chip :=
  if !(c.awake .sense || c.waking .sense) || !c.loPresent then c
  else
    let e : Int := 1024 * 312500000 / c.nominal
    let d := ((count : Int) - e).natAbs
    if c.mclk then if 2 < d then c.mclkLoss else c
    else if c.start.untrusted.contains .mclk then c
    else
      let g := if d ≤ 1 then c.tdc.goodWindows + 1 else 0
      let c := { c with tdc := { c.tdc with goodWindows := g } }
      c.iff (8 ≤ g) Chip.mclkLock

/-- CROSS_DWELL ends: AUX1 moves to the next enabled REF or PREF lane in ascending order (17 table "Idle-time tests"). -/
def Chip.crossNext (c : Chip) : Chip :=
  let on := (List.range 24).filter c.laneRuns
  let nxt := match on.find? (fun l => c.tdc.crossFrom ≤ l) with
    | some l => some l
    | none => on.head?
  let idle := c.armed 1 == 0 && c.rdb 0xD000 1 3 && (c.phase == 3 || c.phase == 4)
  let done := c.tdc.crossLane.isSome && idle
  let c := c.iff done (fun c => c.testPass 3)
  let from_ := match nxt with
    | some l => if idle then l + 1 else c.tdc.crossFrom
    | none => c.tdc.crossFrom
  { c with tdc := { c.tdc with crossLane := if idle then nxt else none, crossFrom := from_, crossBad := 0 } }

end Sys2Proof.Machine
end

