-- ==== Sys2Proof/Machine/Candidates.lean ====
section
/-!
DEFINITION. Sys2Proof/Machine/Candidates.lean: conditioning, monitors and qualification of the 28 candidates, plug detect, and
the LO check (02 R41–R60, R65–R67, R454).
-/

namespace Sys2Proof.Machine

/-! ### Accessors of the candidate objects -/

/-- STATE: 0 ABSENT, 1 SOAK, 2 QUALIFIED, 3 DISQUALIFIED. -/
def Chip.qState (c : Chip) (n : Nat) : Nat := c.rdf (0x2020 + n) 1 1 0
/-- REASON. -/
def Chip.qReason (c : Chip) (n : Nat) : Nat := c.rd (0x2020 + n) 2
/-- A bit of FAIL_MAP. -/
def Chip.failBit (c : Chip) (n i : Nat) : Bool := c.rdb (0x2020 + n) 3 i
def Chip.setFail (c : Chip) (n i : Nat) (b : Bool) : Chip :=
  if c.failBit n i == b then c else c.wrb (0x2020 + n) 3 i b
/-- A subindex of the candidate's threshold profile (02 0x2200 + p). -/
def Chip.profile (c : Chip) (n sub : Nat) : Nat := c.rd (0x2200 + c.rd (0x2000 + n) 0x0C) sub
/-- PLUG_USE. -/
def Chip.plugUse (c : Chip) (n : Nat) : Bool := c.rdb (0x2000 + n) 6 1
/-- A servo is running toward a selected master (02 R56, 10 0x6228). -/
def Chip.servoRuns (c : Chip) (k : Nat) : Bool := c.rd (0x6228 + k) 1 == 3

/-! ### Quality (02 R55) -/

/-- Rank of an SSM and eSSM code (02 table "Quality-level ranks"). An eSSM of 0xFF, or none, leaves the SSM to decide. -/
def ssmRank (option2 : Bool) (ssm essm : Nat) : Nat :=
  if option2 then
    match ssm with
    | 0x1 => 3 | 0x7 => 4 | 0x4 => 4 | 0xD => 5 | 0xA => 7 | 0x0 => 8 | 0xE => 8 | 0xC => 9 | 0xF => 15 | _ => 14
  else
    match ssm, essm with
    | 0x2, 0x21 => 0 | 0x2, 0x20 => 1 | 0x2, 0x23 => 2 | 0x2, 0xFF => 3
    | 0x4, _ => 4 | 0x8, _ => 5 | 0xB, 0x22 => 6 | 0xB, 0xFF => 7 | 0xF, _ => 15 | _, _ => 14

/-- Rank of a clockClass (02 table "Quality-level ranks"). -/
def classRank (k : Nat) : Nat :=
  match k with
  | 6 => 1 | 7 => 4 | 135 => 4 | 140 => 5 | 150 => 6 | 160 => 7 | 165 => 8 | 248 => 12 | 255 => 15 | _ => 14

/-- QL_SOURCE, rank and raw code of a candidate (02 R55, R63). -/
def Chip.quality (c : Chip) (n : Nat) : Nat × Nat × Nat :=
  let own := c.rdf (0x2000 + n) 0x0A 3 0
  if c.rdb (0x2000 + n) 0x0A 7 then (0, own, 0)
  else if isRef n then
    if c.rdb 0x1240 1 0 && c.rd 0x1240 4 == n then
      match c.tod.source with
      | some (r, _) => (1, r, 0)
      | none => (0, own, 0)
    else (0, own, 0)
  else
    let src := if isPref n then 2 else 3
    match (c.cand n).ql with
    | some (r, raw) => (src, r, raw)
    | none => (src, if isPref n then 14 else 15, 0)

/-- QL_RANK_NOW. -/
def Chip.rank (c : Chip) (n : Nat) : Nat := c.rdf (0x2020 + n) 5 3 0

/-- The quality-level register is written (02 R55). -/
def Chip.setQuality (c : Chip) (n rank raw : Nat) : Chip := c.modCand n (fun k => { k with ql := some (rank, raw) })

/-! ### State changes (02 R56–R59) -/

/-- The entry of a channel's table that names a candidate, as a subindex (04 R104). -/
def Chip.entryOf (c : Chip) (ch n : Nat) : Option Nat :=
  (List.range 28).map (· + 1) |>.find? (fun k => c.rdf (0x3100 + ch) k 15 8 == n)

/-- A channel's shadow of an entry is discarded (04 R108). -/
def Chip.dropShadow (c : Chip) (ch k : Nat) : Chip :=
  let c := c.modChan ch (fun x => { x with shadows := setNth x.shadows (k - 1) ⟨[]⟩ })
  (c.wr (0x3110 + ch) k 0x80000000).wr (0x3118 + ch) k 0xFFFF0000

/-- The candidate's shadows are discarded in every channel. -/
def Chip.dropShadows (c : Chip) (n : Nat) : Chip :=
  c.each c.grade.chans (fun ch c =>
    match c.entryOf ch n with
    | some k => c.dropShadow ch k
    | none => c)

/-- The candidate leaves QUALIFIED: posted, and its class kept for a switch (02 R59, 04 R113). -/
def Chip.leftQualified (c : Chip) (n reason : Nat) : Chip :=
  let c := c.post 0x11 (candDetail n + reason * 2 ^ 10)
  c.each c.grade.chans (fun ch c =>
    let p := c.rd (0x3010 + ch) 3 == n
    let f := c.rd (0x3010 + ch) 2 == n
    c.iff (p || f) (fun c => c.modChan ch (fun x => { x with
      lostReason := if p then some reason else x.lostReason, lostFreq := if f then some reason else x.lostFreq
      epochBad := Nat.lor x.epochBad 2 })))

/-- STATE, REASON and LAST_CHANGE take new values. -/
def Chip.setQ (c : Chip) (n st reason : Nat) : Chip :=
  let was := c.qState n
  let c := c.wrf (0x2020 + n) 1 1 0 st
  let c := (c.wr (0x2020 + n) 2 reason).wr (0x2020 + n) 0x0A c.now
  c.iff (was == 2 && st != 2) (fun c => c.leftQualified n reason)

/-- Entry to ABSENT. The monitors that judge samples restart; activity, quality level, time of day and forced go on (02 R454). -/
def Chip.goAbsent (c : Chip) (n reason : Nat) : Chip :=
  let c := c.setQ n 0 reason
  let c := (c.wrb (0x2020 + n) 1 2 false).wr (0x2020 + n) 7 0
  let c := c.modCand n (fun k => { k with
    run := 0, actOk := false, fit := [], y := none, gross := false, whole := false, outlierRun := 0, uncRun := 0,
    soakFor := none, skip := 0 })
  let c := c.iff (n < 24) (fun c => c.modLane n (fun l => { l with lastEdge := none, interval := none, formed := none }))
  let c := c.wr (0x2020 + n) 3 (Nat.land (c.rd (0x2020 + n) 3) 0x59)
  c.dropShadows n

/-- Soak duration in s (02 R58). With PLUG_USE 0, an unplug bears on no qualification (02 R51). -/
def Chip.soakLen (c : Chip) (n : Nat) : Nat :=
  if isRef n && c.plugUse n && (c.cand n).replug then c.rd (0x2000 + n) 9 else c.rd (0x2000 + n) 8

/-- Entry to SOAK; REASON is kept. From ABSENT, everything measured restarts (02 R454). -/
def Chip.goSoak (c : Chip) (n : Nat) : Chip :=
  let fresh := c.qState n == 0
  let c := c.setQ n 1 (c.qReason n)
  let c := c.iff fresh (fun c => c.modCand n (fun k => { k with
    leftAt := c.time.mono, fit := [], whole := false, edges := 0, gross := false, outlierRun := 0, uncRun := 0,
    y := none, lastExt := none, samples := 0, windowed := false, skip := 0 }))
  let c := c.iff (fresh && n < 24) (fun c => c.modLane n (fun l => { l with lastEdge := none, interval := none }))
  let c := c.modCand n (fun k => { k with soakStart := c.time.mono, soakFor := none })
  c.wr (0x2020 + n) 7 (c.soakLen n)

/-- Entry to DISQUALIFIED with the lowest failing monitor (02 R56). -/
def Chip.goDisq (c : Chip) (n : Nat) : Chip :=
  let b := ((List.range 7).find? (c.failBit n)).getD 0
  let c := (c.setQ n 3 (0x10 + b)).inc (0x2040 + n) 5
  (c.wr (0x2020 + n) 7 0).dropShadows n

/-- Entry to QUALIFIED. -/
def Chip.goQualified (c : Chip) (n : Nat) : Chip :=
  let c := (c.setQ n 2 0).wr (0x2020 + n) 7 0
  let c := c.modCand n (fun k => { k with replug := false })
  c.post 0x11 (candDetail n + 2 ^ 18)

/-- The first frequency window after leaving ABSENT is complete (02 R52): its time has passed and it has had four samples. A jump
that restarts the fit later does not undo that. -/
def Chip.windowDone (c : Chip) (n : Nat) : Bool :=
  let k := c.cand n
  k.windowed || (decide (k.leftAt + c.profile n 3 * 1000000000 * nsUnit ≤ c.time.mono) && decide (4 ≤ k.samples))

/-- A cause of ABSENT that holds now, the lowest reason code first (02 R56, R57). -/
def Chip.absentCause (c : Chip) (n : Nat) : Option Nat :=
  if !c.candOn n then some 0x01
  else if isRef n && c.plugUse n && !(c.cand n).plugged then some 0x02
  else if isPref n && c.powerState != 0 then some 0x06
  else if isPref n && !c.linkUp (n - 16) then some 0x04
  else if isPkt n && (c.powerState != 0 || !c.servoRuns (n - 24)) then some 0x05
  else if !c.live || !c.awake .loop || (n < 24 && !c.awake .sense) then some 0x06
  else if !c.loPresent then some 0x07
  else if isPref n && c.rxLpi (n - 16) then some 0x09
  else none

/-- The monitors that follow configuration and received data: quality level, time of day, forced (02 table "Monitors"). A rank
of 15 is DNU or QL-FAILED and never passes. -/
def Chip.slowMonitors (c : Chip) (n : Nat) : Chip :=
  let q := c.quality n
  let c := c.wr (0x2020 + n) 5 (q.1 * 16 + q.2.1)
  let c := c.wr (0x2020 + n) 6 q.2.2
  let c := c.setFail n 3 (q.2.1 == 15 || decide (c.rd (0x2000 + n) 0x0B < q.2.1))
  let long := c.tod.missing || decide (c.tod.since + c.rd 0x1240 7 * 1000000000 * nsUnit ≤ c.time.mono)
  let tod := isRef n && c.rdb 0x1240 6 0 && c.rd 0x1240 4 == n && !c.tod.valid && long
  (c.setFail n 4 tod).setFail n 6 (c.rdb (0x2000 + n) 0x0D 0)

/-- The soak has ended and its conditions hold (02 R56, R58): the duration in force is not longer than the soak is known to have
lasted. -/
def Chip.soakOver (c : Chip) (n : Nat) : Bool :=
  let k := c.cand n
  let told := match k.soakFor with
    | some d => decide (c.soakLen n ≤ d)
    | none => false
  (told || decide (k.soakStart + c.soakLen n * 1000000000 * nsUnit ≤ c.time.mono)) && c.windowDone n

/-- The instant since which a candidate has failed only the frequency monitor (02 R67). -/
def Chip.freqOnlyWatch (c : Chip) (n : Nat) : Chip :=
  let only := c.qState n == 3 && c.rd (0x2020 + n) 3 == 2
  if only == (c.cand n).freqOnly.isSome then c
  else c.modCand n (fun k => { k with freqOnly := if only then some c.time.mono else none })

/-- A candidate that is ABSENT, or goes there, for a cause that holds: four further edges are needed once it ends (02 R454). -/
def Chip.holdAbsent (c : Chip) (n reason : Nat) (show_ : Bool) : Chip :=
  if c.qState n ≠ 0 then c.goAbsent n reason
  else
    let c := c.iff (show_ && c.qReason n != reason) (fun c => c.wr (0x2020 + n) 2 reason)
    let c := c.iff (reason == 1 && (c.cand n).skip != 0) (fun c => c.modCand n (fun k => { k with skip := 0 }))
    c.iff ((c.cand n).run != 0 || (c.cand n).actOk) (fun c =>
      c.modCand n (fun k => { k with run := 0, actOk := false }))

/-- The transitions of a candidate other than the timed ones (02 R56). While the LO is declared absent, every candidate shows
LO_ABSENT (02 R66). -/
def Chip.qualify (c : Chip) (n : Nat) : Chip :=
  let c := c.slowMonitors n
  let c :=
    if c.time.lo = .absent then c.holdAbsent n 7 true
    else
      match c.absentCause n with
      | some r => c.holdAbsent n r (r == 1)
      | none =>
        let map := c.rd (0x2020 + n) 3
        let c :=
          match c.qState n with
          | 0 => c.iff (c.cand n).actOk (fun c => c.goSoak n)
          | 1 => if map ≠ 0 then c.goDisq n else c
          | 2 => if map ≠ 0 then c.goDisq n else c
          | _ => if map = 0 then c.goSoak n else c
        let ok := c.qState n != 0 && !(c.failBit n 0 || c.failBit n 1 || c.failBit n 3 || c.failBit n 6)
        if c.rdb (0x2020 + n) 1 2 == ok then c else c.wrb (0x2020 + n) 1 2 ok
  c.freqOnlyWatch n

/-! ### Plug detect (02 R48–R51) -/

/-- The panel shows the candidate of the latest accepted plug event (16 R404). -/
def Chip.plugNote (c : Chip) (n : Nat) : Chip := { c with panel := { c.panel with plug := some (n, c.time.mono) } }

/-- An unplug is accepted. -/
def Chip.unplug (c : Chip) (n : Nat) : Chip :=
  if !(c.grade.hasCand n) || !(c.cand n).plugged || !c.panelInputs then c
  else
    let c := c.modCand n (fun k => { k with plugged := false, replug := true })
    let c := (c.inc (0x2040 + n) 6).plugNote n
    let c := c.post 0x10 (candDetail n)
    c.wrb (0x2020 + n) 1 3 (!c.plugUse n)

/-- A plug-in is accepted. -/
def Chip.plugIn (c : Chip) (n : Nat) : Chip :=
  if !(c.grade.hasCand n) || (c.cand n).plugged || !c.panelInputs then c
  else
    let c := c.modCand n (fun k => { k with plugged := true })
    let c := (c.inc (0x2040 + n) 7).plugNote n
    let c := c.post 0x10 (candDetail n + 2 ^ 18)
    c.wrb (0x2020 + n) 1 3 true

/-! ### Activity (02 table "Monitors", R454) -/

/-- The activity monitor sees a good edge or kept sample; `near` tells whether it is within the limit of the last. -/
def Chip.actSeen (c : Chip) (n : Nat) (near : Bool) : Chip :=
  if (c.absentCause n).isSome then c
  else
    let r := if near then (c.cand n).run + 1 else 1
    let ok := decide (4 ≤ r)
    let c := c.modCand n (fun k => { k with run := r, actOk := k.actOk || ok })
    c.iff ok (fun c => c.setFail n 0 false)

/-- The activity monitor fails (02 R56). A loss while the candidate is ABSENT is not counted in ACTIVITY_LOSSES: the spec does not
say (DESIGN CHOICE, log 63). -/
def Chip.actFail (c : Chip) (n : Nat) : Chip :=
  if !c.candOn n then c
  else
    let c := c.modCand n (fun k => { k with run := 0, actOk := false })
    if c.failBit n 0 then c
    else (c.setFail n 0 true).iff (c.qState n != 0) (fun c => c.inc (0x2040 + n) 8)

/-! ### Hold-off and pre-divider (02 R43–R46) -/

/-- What becomes of an edge at the receiver: rejected by the hold-off; of the polarity that is not accepted; accepted and dropped by
the pre-divider; or passed to the lane. -/
inductive EdgeFate where
  | rejected | ignored | dropped | passed
  deriving DecidableEq, Repr

/-- The hold-off runs for HOLDOFF cycles of 3.2 ns from the last accepted edge of a REF, against edges of either polarity; EDGE picks
the polarity (02 R43, R44). A PREF has neither: each period of the recovered clock is counted at its rising edge. -/
def Chip.edgeFate (c : Chip) (l at_ : Nat) (falling : Bool) : EdgeFate :=
  let k := c.cand l
  let held := match k.held with
    | some h => decide (at_ < h + c.rd (0x2000 + l) 4 * 1024)
    | none => false
  if isRef l && held then .rejected
  else if falling != (isRef l && c.rdb (0x2000 + l) 3 6) then .ignored
  else if 0 < k.skip then .dropped else .passed

/-- The ratio of the pre-divider: PRE_DIV, or that of the port rate (02 R45, R46). -/
def Chip.preDiv (c : Chip) (l : Nat) : Nat :=
  if isRef l then c.rd (0x2000 + l) 5 else (prefClock (c.rd (0x5000 + (l - 16)) 2)).2

/-- The edge is accepted: the hold-off starts anew and the pre-divider counts it. -/
def Chip.edgeAccept (c : Chip) (l at_ : Nat) : Chip :=
  c.modCand l (fun k => { k with held := some at_, skip := if k.skip = 0 then c.preDiv l - 1 else k.skip - 1 })

/-- A pre-divided edge at its lane: counted, and measured if the converter can (02 R454, 03 R79). The second component tells whether
it counts. -/
def Chip.lanePass (c : Chip) (l cycle : Nat) : Chip × Bool :=
  let r := c.laneEdge l cycle
  if !r.2 then r
  else
    let c := r.1.inc (0x2040 + l) 1
    let c := c.modCand l (fun k => { k with edges := k.edges + 1 })
    let near := match (c.lane l).interval with
      | some i => decide ((i : Rat) * 8 ≤ (c.profile l 1 : Rat) * (312500000 / c.detRate l))
      | none => true
    (c.actSeen l near, true)

/-! ### Frequency and phase-jump monitors (02 R52, R53) -/

/-- Index of an instant in detection periods from another. -/
def periodsFrom (t0 t : Int) (p : Rat) : Int := (((t - t0 : Int) : Rat) / p + 1 / 2).floor

/-- Least-squares line of instants (newest first) against their period index from the oldest: slope, mean index, mean instant,
sum of squared index deviations, residual sum of squares. -/
def fitLine (ts : List Int) (p : Rat) : Rat × Rat × Rat × Rat × Rat :=
  let t0 := ts.getLastD 0
  let ks := ts.map (fun t => ((periodsFrom t0 t p : Int) : Rat))
  let n : Rat := ts.length
  let mk := ks.foldl (· + ·) 0 / n
  let mt := (ts.map (fun t => ((t - t0 : Int) : Rat))).foldl (· + ·) 0 / n
  let ps := ks.zip ts
  let sxx := ps.foldl (fun a q => a + (q.1 - mk) * (q.1 - mk)) 0
  let sxy := ps.foldl (fun a q => a + (q.1 - mk) * (((q.2 - t0 : Int) : Rat) - mt)) 0
  let m := if sxx = 0 then p else sxy / sxx
  let sse := ps.foldl (fun a q =>
    let e := ((q.2 - t0 : Int) : Rat) - mt - m * (q.1 - mk)
    a + e * e) 0
  (m, mk, mt, sxx, sse)

/-- The samples, newest first, of the frequency window of `w` seconds that ends at an instant, extended to four (02 R52). -/
def windowOf (w : Nat) (now : Int) (ts : List Int) : List Int :=
  ts.take (max 4 (ts.takeWhile (fun u => now - u < (w : Int) * 320000000000)).length)

/-- Residual of a new instant against the line, in steps. -/
def residual (ts : List Int) (p : Rat) (t : Int) : Rat :=
  let f := fitLine ts p
  let t0 := ts.getLastD 0
  ratAbs (((t - t0 : Int) : Rat) - (f.2.2.1 + f.1 * ((periodsFrom t0 t p : Rat) - f.2.1)))

/-- A sample judged by the phase-jump monitor (02 R53); answers whether it is delivered. `t` is its instant in steps. -/
def Chip.judge (c : Chip) (n : Nat) (t : Int) (phase coarse : Nat) : Chip × Bool :=
  if c.qState n = 0 then (c, false)
  else
    let k := c.cand n
    let p := c.period n
    let out := c.windowDone n && decide (2 ≤ k.fit.length) &&
      decide ((c.profile n 6 : Rat) < residual (windowOf (c.profile n 3) t k.fit) p t * 25 / 8)
    if out then
      let c := c.inc (0x2040 + n) 3
      let r := k.outlierRun + 1
      if c.profile n 7 ≤ r then
        let c := (c.setFail n 2 true).inc (0x2040 + n) 4
        let c := c.modCand n (fun k => { k with outlierRun := 0, fit := [] })
        (c.dropShadows n, false)
      else (c.modCand n (fun k => { k with outlierRun := r }), false)
    else
      let c := c.modCand n (fun k => { k with
        outlierRun := 0, fit := windowOf 64 t (t :: k.fit), samples := min 4 (k.samples + 1) })
      let c := c.setFail n 2 false
      ((c.wr (0x2020 + n) 8 (phase % 2 ^ 18)).wr (0x2020 + n) 9 (coarse % 2 ^ 32), true)

/-- y in ppt of a window, and its standard error in ppt (02 R52, 05 R139). -/
def Chip.slopeOf (c : Chip) (n : Nat) (ts : List Int) : Int × Nat :=
  let p := c.period n
  let f := fitLine ts p
  let trim : Rat := (c.rdi 0x4000 3 32 : Rat) / 1000000000000
  let y := (p / f.1 * (1 + trim) - 1) * 1000000000000
  let v := f.2.2.2.2 / ((ts.length : Rat) - 2) / f.2.2.2.1 / (p * p) * 1000000000000 * 1000000000000
  ((y + 1 / 2).floor, ceilSqrt (ratCeil v))

/-- The gross check of the whole second that ends (02 R52). -/
def Chip.grossFails (c : Chip) (n : Nat) : Bool :=
  let e := c.detRate n
  let d := ratAbs (((c.cand n).edges : Rat) - e)
  decide (max (e / 100) 1 < d)

/-- The evaluation of one candidate at a whole second of the time counter (02 R52, R58, R60, R67). -/
def Chip.freqEval (c : Chip) (n : Nat) : Chip :=
  if c.qState n = 0 then c.modCand n (fun k => { k with edges := 0 })
  else
    let k := c.cand n
    let ts := windowOf (c.profile n 3) c.laneNow.floor k.fit
    let y := if 4 ≤ ts.length then some (c.slopeOf n ts) else none
    let gross := n < 24 && (if k.whole then c.grossFails n else k.gross)
    let done := c.windowDone n
    let yv : Int := (y.map Prod.fst).getD 0
    let lim := if c.failBit n 1 then c.profile n 5 else c.profile n 4
    let bad := gross || (done && (if y.isSome then decide (lim < yv.natAbs) else c.failBit n 1))
    let c := c.modCand n (fun k => { k with
      y := y.map Prod.fst, yErr := (y.map Prod.snd).getD 0, edges := 0, whole := true, gross := gross, windowed := done })
    let c := c.iff y.isSome (fun c => c.wr (0x2020 + n) 4 (wrapInt 32 (max (-2000000000) (min yv 2000000000))))
    let c := c.setFail n 1 bad
    let c := c.qualify n
    let c := c.iff (c.qState n == 1 && c.soakOver n) (fun c => c.goQualified n)
    let gone := (c.time.mono - (c.cand n).soakStart) / (1000000000 * nsUnit)
    let c := c.iff (c.qState n == 1) (fun c => c.wr (0x2020 + n) 7 (c.soakLen n - gone))
    c.iff (c.qState n == 2) (fun c => c.inc (0x2040 + n) 0x0B)

/-- The largest agreeing set of candidates that fail only the frequency monitor: its lowest-indexed member (02 R67). -/
def Chip.agreeing (c : Chip) : Option Nat :=
  let ns := (List.range 24).filter (fun n => c.qState n == 3 && (c.cand n).y.isSome && (match (c.cand n).freqOnly with
    | some t => decide (t + 64 * 1000000000 * nsUnit ≤ c.time.mono)
    | none => false))
  let y (n : Nat) : Int := (c.cand n).y.getD 0
  let sets := ns.map (fun lo => ns.filter (fun n => y lo ≤ y n && y n ≤ y lo + 1000000))
  let best := sets.foldl (fun (a : List Nat) s =>
    if a.length < s.length ∨ (a.length = s.length ∧ s.headD 99 < a.headD 99) then s else a) []
  if 2 ≤ best.length then best.head? else none

/-- MEASURED_OFFSET and OFF_NOMINAL (02 R67). -/
def Chip.loCheck (c : Chip) : Chip :=
  let qs := (List.range 24).filter (fun n => c.qState n == 2)
  let best := qs.foldl (fun (a : Option Nat) n =>
    match a with
    | some m => if c.rank n < c.rank m then some n else a
    | none => some n) none
  let pick := match best with
    | some n => some n
    | none => c.agreeing
  match pick with
  | none =>
    let c := (c.wr 0x4000 5 0x80000000).wrb 0x4000 4 0 false
    c.drop 3
  | some n =>
    let off := c.rdi 0x4000 3 32 - c.rdi (0x2020 + n) 4 32
    let c := c.wr 0x4000 5 (satInt 32 off)
    let bad := decide (c.rd 0x4000 6 < off.natAbs)
    (c.wrb 0x4000 4 0 bad).follow 3 0 0 bad

/-- The whole-second evaluation of every candidate (02 R52). -/
def Chip.freqEvalAll (c : Chip) : Chip := (c.each 28 (fun n c => c.freqEval n)).loCheck

/-- The soak duration has elapsed (02 R56, R58). -/
def Chip.soakEnd (c : Chip) (n : Nat) : Chip :=
  if c.qState n ≠ 1 then c
  else
    let c := c.modCand n (fun k => { k with soakFor := some (max (k.soakFor.getD 0) (c.soakLen n)) })
    c.iff (c.windowDone n) (fun c => c.goQualified n)

/-- ABSENT_AFTER without signal (02 R56). -/
def Chip.noSignal (c : Chip) (n : Nat) : Chip :=
  if c.qState n = 3 ∧ c.qReason n = 0x10 then c.goAbsent n 0x03 else c

/-- A write to :02 to :07 or USER_OFFSET, or a change of port rate (02 R46, R56, 03 R77). -/
def Chip.reconfigured (c : Chip) (n : Nat) : Chip :=
  if !c.candOn n then c
  else if c.qState n ≠ 0 then c.goAbsent n 0x08
  else
    let c := c.modCand n (fun k => { k with run := 0, actOk := false, skip := 0 })
    c.iff (n < 24) (fun c => c.modLane n (fun l => { l with lastEdge := none, interval := none, formed := none }))

/-! ### The LO (02 R65, R66) -/

/-- The LO is declared absent: the counting, the event and F002 (02 R65). -/
def Chip.loAbsentNote (c : Chip) : Chip :=
  let c := (c.modTime (fun t => { t with lo := .absent })).wrb 0x4000 4 1 false
  ((c.inc 0x4000 7).post 0x05 0).raise 2 0 0

end Sys2Proof.Machine
end

