-- ==== Sys2Proof/Machine/TimeOfDay.lean ====
section
/-!
DEFINITION. Sys2Proof/Machine/TimeOfDay.lean: the receiver of the time-of-day port: binary messages, NMEA sentences and the
judgement of the edges they describe (02 R61–R63, R455, R456).
-/

namespace Sys2Proof.Machine

def Chip.modTod (c : Chip) (f : TodUnit → TodUnit) : Chip := { c with tod := f c.tod }

/-- PPS_REF. -/
def Chip.ppsRef (c : Chip) : Nat := c.rd 0x1240 4

/-! ### Binary messages (02 R455) -/

/-- What becomes of a message: discarded under a counter of 0x1241, or parsed. -/
inductive TodResult where
  | ignored
  | discard (sub : Nat) (resume : Bool)
  | good (m : TodMsg)
  deriving DecidableEq, Repr

/-- TAI seconds of a binary message (02 R455). -/
def Chip.todSeconds (c : Chip) (secs scale flags utc : Nat) : Option Nat :=
  match scale with
  | 0 => some secs
  | 2 => some (secs + 19)
  | _ =>
    if bit 4 flags then some ((secs : Int) + sext 16 utc).toNat
    else if c.utcValid then some ((secs : Int) + c.utcOffset).toNat else none

/-- The time that a number of characters takes on the UART: 10 bits each (02 "Time of day"), in the units of mono. -/
def Chip.uartTime (c : Chip) (n : Nat) : Nat := n * 10 * 1000000000 * nsUnit / c.rd 0x1240 2

/-- The checks of a binary message but its window, in their order (02 R455). A QL_RANK above 15 is a code the spec does not list, and
counts as rank 14 (DEDUCED from R55, log 64). The
list begins with the message's first byte and ends with the byte received last. -/
def Chip.todParse (c : Chip) (bs : List Nat) : TodResult :=
  let at_ (i : Nat) : Nat := nth bs i 0
  let w (i n : Nat) : Nat := ofBytes ((bs.drop i).take n)
  if at_ 0 ≠ 0x49 ∨ at_ 1 ≠ 0x54 then .ignored
  else if bs.length < 4 then .ignored
  else if at_ 3 ≠ 18 then .discard 4 true
  else if bs.length < 24 then .ignored
  else if crc16 ((bs.drop 2).take 20) ≠ w 22 2 then .discard 3 true
  else if at_ 2 ≠ 1 ∨ 2 < at_ 10 then .discard 4 false
  else
    let secs := c.todSeconds (w 4 6) (at_ 10) (at_ 11) (w 12 2)
    let acc := if field 31 18 (w 16 4) = 0 then w 16 4 else 0x3FFFF
    let rank := if at_ 14 = 2 then 15 else if at_ 15 ≤ 15 then at_ 15 else 14
    .good ⟨secs, true, bit 7 (at_ 11) && decide (at_ 14 ≤ 1) && secs.isSome, rank, acc, w 12 2, at_ 11,
      c.time.mono - c.uartTime bs.length, c.time.mono - c.uartTime (bs.length - 24)⟩

/-- The bytes from the next SYNC on. -/
def nextSync : List Nat → List Nat
  | 0x49 :: 0x54 :: t => 0x49 :: 0x54 :: t
  | _ :: t => nextSync t
  | [] => []

/-- An accepted message joins those that describe the edge not yet judged. With FORMAT 0 a message follows its edge and the first
one judges it: a further one changes nothing but the counts (02 R456). A binary message carries UTC data (07 R186). -/
def Chip.todAccept (c : Chip) (m : TodMsg) : Chip :=
  let c := c.inc 0x1241 2
  let c := c.iff (m.binary && c.rd 0x3010 3 == c.ppsRef) (fun c =>
    c.utcReceived m.utc (bit 4 m.flags) (bit 6 m.flags) (bit 5 m.flags))
  let first : Option (Option Nat) :=
    if c.rd 0x1240 3 = 0 ∧ c.rd 0x1240 5 = 0 then
      match c.tod.waiting with
      | x :: _ => some x.secs
      | [] => c.tod.judged
    else none
  match first with
  | some s => if m.secs = s then c else c.inc 0x1241 7
  | none => c.modTod (fun t => { t with waiting := t.waiting ++ [m] })

/-- 100 ms and 900 ms in the units of mono (02 R61). -/
def todNear : Nat := 100000000 * nsUnit
def todFar : Nat := 900000000 * nsUnit

/-- The edge that precedes a message's first byte (02 R61, EDGE_REL 0). -/
def Chip.edgeBefore (c : Chip) (m : TodMsg) : Option Nat :=
  match c.tod.edge with
  | some e => if e ≤ m.began then some e else c.tod.prev
  | none => none

/-- The window of a message is judged last (02 R61, R455): with EDGE_REL 0 now, with EDGE_REL 1 at the edge to come. -/
def Chip.todArrive (c : Chip) (m : TodMsg) : Chip :=
  if c.rd 0x1240 5 ≠ 0 then c.modTod (fun t => { t with early := t.early ++ [m] })
  else
    match c.edgeBefore m with
    | some e => if e + todNear ≤ m.began ∧ m.ended ≤ e + todFar then c.todAccept m else c.inc 0x1241 6
    | none => c.inc 0x1241 6

/-- Messages that no edge has followed within 900 ms (02 R61, EDGE_REL 1). -/
def Chip.todLate (c : Chip) : Chip :=
  let gone := c.tod.early.filter (fun m => decide (m.began + todFar < c.time.mono))
  if gone.isEmpty then c
  else (c.incBy 0x1241 6 gone.length).modTod (fun t => { t with
    early := t.early.filter (fun m => decide (c.time.mono ≤ m.began + todFar)) })

/-- A received byte string, searched again from byte 2 of a message discarded under checks 1 and 2 (02 R455). -/
def Chip.todBytes (c : Chip) : Nat → List Nat → Chip
  | 0, _ => c
  | fuel + 1, bs =>
    match c.todParse bs with
    | .ignored => c
    | .good m => c.todArrive m
    | .discard sub again =>
      let c := c.inc 0x1241 sub
      if again then c.todBytes fuel (nextSync (bs.drop 2)) else c

/-- A binary time message is received (02 R61, R455). -/
def Chip.todBinary (c : Chip) (bs : List Nat) : Chip :=
  if !c.rdb 0x1240 1 0 || c.rd 0x1240 3 == 1 then c else c.todBytes bs.length bs

/-! ### NMEA sentences (02 R62); characters are given as their ASCII codes -/

/-- The fields of a sentence between commas. -/
def splitComma : List Nat → List Nat → List (List Nat)
  | acc, [] => [acc.reverse]
  | acc, ch :: t => if ch = 44 then acc.reverse :: splitComma [] t else splitComma (ch :: acc) t

/-- A string of digits as a number. -/
def digits (l : List Nat) : Option Nat :=
  if l = [] then none
  else l.foldl (fun a ch => a.bind (fun n => if 48 ≤ ch ∧ ch ≤ 57 then some (n * 10 + (ch - 48)) else none)) (some 0)

/-- A hexadecimal digit. -/
def hexDigit (ch : Nat) : Option Nat :=
  if 48 ≤ ch ∧ ch ≤ 57 then some (ch - 48)
  else if 65 ≤ ch ∧ ch ≤ 70 then some (ch - 55)
  else if 97 ≤ ch ∧ ch ≤ 102 then some (ch - 87) else none

/-- Days from 1970-01-01 to a date of the civil calendar. -/
def daysCivil (y m d : Nat) : Int :=
  let y' : Int := if m ≤ 2 then (y : Int) - 1 else y
  let era := y' / 400
  let yoe := y' - era * 400
  let mp : Int := ((m + 9) % 12 : Nat)
  let doy := (153 * mp + 2) / 5 + (d : Int) - 1
  era * 146097 + (yoe * 365 + yoe / 4 - yoe / 100 + doy) - 719468

/-- Seconds of the day of a time field; none when malformed or with a fraction that is not zero. -/
def nmeaTime (f : List Nat) : Option Nat :=
  match digits (f.take 2), digits ((f.drop 2).take 2), digits ((f.drop 4).take 2) with
  | some h, some m, some s =>
    let frac := f.drop 6
    if frac = [] ∨ (frac.headD 0 = 46 ∧ frac.tail.all (· == 48)) then
      if h ≤ 23 ∧ m ≤ 59 ∧ s ≤ 60 then some (h * 3600 + m * 60 + s) else none
    else none
  | _, _, _ => none

/-- UTC seconds of a date and a time. -/
def utcSeconds (y m d tod : Nat) : Option Nat :=
  if 1 ≤ m ∧ m ≤ 12 ∧ 1 ≤ d ∧ d ≤ 31 then some (daysCivil y m d * 86400 + tod).toNat else none

/-- The UTC seconds of an RMC or ZDA sentence from its fields. -/
def nmeaUtc (rmc : Bool) (fs : List (List Nat)) : Option Nat :=
  let f (i : Nat) : List Nat := nth fs i []
  match nmeaTime (f 1) with
  | none => none
  | some t =>
    if rmc then
      if f 2 = [86] ∨ f 12 = [78] then none
      else
        match digits ((f 9).take 2), digits (((f 9).drop 2).take 2), digits (((f 9).drop 4).take 2) with
        | some d, some m, some y => utcSeconds (if 80 ≤ y then 1900 + y else 2000 + y) m d t
        | _, _, _ => none
    else
      match digits (f 2), digits (f 3), digits (f 4) with
      | some d, some m, some y => utcSeconds y m d t
      | _, _, _ => none

/-- A letter, of either case. -/
def isLetter (ch : Nat) : Bool := (decide (65 ≤ ch) && decide (ch ≤ 90)) || (decide (97 ≤ ch) && decide (ch ≤ 122))

/-- The type of a sentence behind a two-letter talker: RMC, ZDA or none. -/
def nmeaKind (cs : List Nat) : Option Bool :=
  match cs with
  | 36 :: a :: b :: 82 :: 77 :: 67 :: 44 :: _ => if isLetter a && isLetter b then some true else none
  | 36 :: a :: b :: 90 :: 68 :: 65 :: 44 :: _ => if isLetter a && isLetter b then some false else none
  | _ => none

/-- The checksum of a sentence is present and right. -/
def nmeaSumOk (cs : List Nat) : Bool :=
  let body := (cs.drop 1).takeWhile (· != 42)
  match (cs.drop (1 + body.length)) with
  | 42 :: h :: l :: _ =>
    (do let a ← hexDigit h; let b ← hexDigit l; pure (a * 16 + b)) == some (body.foldl Nat.xor 0)
  | _ => false

/-- An NMEA sentence is received (02 R62). One whose time or date field is empty or malformed counts as BAD_SENTENCE, which the spec
does not list (DESIGN CHOICE, log 65). -/
def Chip.todNmea (c : Chip) (cs : List Nat) : Chip :=
  if !c.rdb 0x1240 1 0 || c.rd 0x1240 3 == 0 then c
  else
    match nmeaKind cs with
    | none => c
    | some rmc =>
      let body := (cs.drop 1).takeWhile (· != 42)
      match decide (cs.length ≤ 82) && nmeaSumOk cs, nmeaUtc rmc (splitComma [] body) with
      | true, some u =>
        let s := if c.utcValid then some ((u : Int) + c.utcOffset).toNat else none
        c.todArrive ⟨s, false, s.isSome, 0, 0, 0, 0, c.time.mono - c.uartTime cs.length, c.time.mono⟩
      | _, _ => c.inc 0x1241 5

/-! ### Judgement of an edge (02 R62, R63, R456) -/

/-- TOD_VALID follows in the status of PPS_REF. -/
def Chip.setTodValid (c : Chip) (b : Bool) : Chip :=
  let c := c.modTod (fun t => { t with
    valid := b, missing := t.missing && !b, since := if t.valid && !b then c.time.mono else t.since })
  c.wrb (0x2020 + c.ppsRef) 1 4 b

/-- The seconds of an edge extend, break or end the succession (02 R63). -/
def Chip.todSucceed (c : Chip) (s : Option Nat) : Chip :=
  match s with
  | none => (c.modTod (fun t => { t with last := none, run := 0 })).setTodValid false
  | some v =>
    match c.tod.last with
    | none => c.modTod (fun t => { t with last := some v, run := 1 })
    | some l =>
      if v = l + 1 then (c.modTod (fun t => { t with last := some v, run := t.run + 1 })).setTodValid true
      else ((c.modTod (fun t => { t with last := some v, run := 1 })).inc 0x1241 8).setTodValid false

/-- Instant of the last edge of a lane, in steps: as measured, or the middle of its cycle where it was not. -/
def Chip.lastInstant (c : Chip) (l : Nat) : Int :=
  let ln := c.lane l
  let e := ln.lastEdge.getD 0
  match ln.last with
  | some t => if ln.lastCycle = some e then t - c.rdi (0x2110 + l) 1 18 else (e : Int) * 1024 + 512
  | none => (e : Int) * 1024 + 512

/-- The last edge of PPS_REF is judged, once, from the accepted messages that describe it (02 R456). An edge with no message, or with
a conflict, leaves PPS_REF without a binary source, so that the configured rank holds (DESIGN CHOICE, log 63). -/
def Chip.todJudge (c : Chip) : Chip :=
  if c.tod.edge.isNone || c.tod.judged.isSome then c
  else
    let ms := c.tod.waiting
    let bins := ms.filter (fun m => m.binary)
    let good := ms.filter (fun m => m.describes)
    let agree := match good with
      | [] => true
      | m :: t => t.all (fun x => x.secs == m.secs)
    let bin := if c.rd 0x1240 3 = 0 then bins.getLast? else (bins.filter (fun m => m.describes)).getLast?
    let used : Option TodMsg :=
      if !agree then none
      else match bin with
        | some m => some m
        | none => match good.head? with
          | some m => some m
          | none => bins.getLast?
    let c := c.iff (!agree) (fun c => c.inc 0x1241 7)
    let secs := used.bind (fun m => if m.describes then m.secs else none)
    let n := c.ppsRef
    let src : Option (Nat × Nat) := used.bind (fun m => if m.binary then some (m.rank, m.acc) else none)
    let c := c.modTod (fun t => { t with
      waiting := [], judged := some (used.bind (fun m => m.secs)), source := src })
    let c := c.todSucceed secs
    match secs with
    | none => c
    | some s =>
      let t := c.lastInstant n
      let edge := c.stampAt (c.readAt t) 0 0
      let c := c.wr 0x1241 1 (packTs s 0 (field 49 34 edge) (tsTeb edge) 0)
      if c.tod.valid && c.rd 0x3010 3 == n && c.candOn n && c.qState n != 0 then c.secondsCheck s t else c

/-- TOD_VALID has been 0 for TOD_TIMEOUT (02 R63). -/
def Chip.todTimeout (c : Chip) : Chip :=
  if c.tod.valid || !c.rdb 0x1240 6 0 then c else c.modTod (fun t => { t with missing := true })

/-- PPS_REF is written: the edges and messages of another REF describe none of the new one's, and TOD_VALID falls (02 R63). -/
def Chip.todPair (c : Chip) (v : Nat) : Chip :=
  if v = c.ppsRef then c
  else
    let c := c.setTodValid false
    let c := c.modTod (fun t => { t with
      waiting := [], early := [], edge := none, prev := none, last := none, run := 0, judged := none, source := none })
    c.wr 0x1240 4 v

/-- An edge of PPS_REF: the one before it has been judged at the latest when its window closed; the messages that precede this one
with EDGE_REL 1 meet their window now (02 R61, R456). -/
def Chip.todEdge (c : Chip) : Chip :=
  let c := c.todJudge
  let e := c.time.mono
  let ms := c.tod.early
  let c := c.modTod (fun t => { t with edge := some e, prev := t.edge, judged := none, early := [] })
  ms.foldl (fun c m => if m.ended + todNear ≤ e ∧ e ≤ m.began + todFar then c.todAccept m else c.inc 0x1241 6) c

/-- An edge at the receiver of a running lane (02 R43–R46, R454, 03 R79). -/
def Chip.refEdge (c : Chip) (l at_ : Nat) (falling : Bool) : Chip :=
  if !c.laneRuns l then c
  else
    match c.edgeFate l at_ falling with
    | .rejected => c.inc (0x2040 + l) 2
    | .ignored => c
    | .dropped => c.edgeAccept l at_
    | .passed =>
      let r := (c.edgeAccept l at_).lanePass l (at_ / 1024)
      r.1.iff (r.2 && isRef l && l == c.ppsRef) Chip.todEdge

end Sys2Proof.Machine
end

