-- ==== Sys2Proof/Machine/Bound.lean ====
section
/-!
DEFINITION. Sys2Proof/Machine/Bound.lean: the oscillator model, the ensemble and the time-error bound of every channel (05
R124–R145). Uncertainties are in ppt, times in s, bounds in ps; square roots are rounded up, so that a bound never falls short.
-/

namespace Sys2Proof.Machine

/-- STATE of a channel: 0 FREERUN, 1 ACQUIRE, 2 LOCKED, 3 HOLDOVER (04 0x3010). -/
def Chip.tcState (c : Chip) (ch : Nat) : Nat := c.rdf (0x3010 + ch) 1 1 0
/-- SELECTED and SELECTED_PHASE. -/
def Chip.sel (c : Chip) (ch : Nat) : Nat := c.rd (0x3010 + ch) 2
def Chip.selPhase (c : Chip) (ch : Nat) : Nat := c.rd (0x3010 + ch) 3
/-- A channel is enabled: ENABLE is 1 and the start has reached step 8 since (17 R410). A later start leaves it enabled, its datapath
suspended. -/
def Chip.tcOn (c : Chip) (ch : Nat) : Bool := decide (ch < c.grade.chans) && c.rdb (0x3000 + ch) 1 0 && (c.chan ch).on
/-- HYBRID in effect (04 R118). -/
def Chip.hybrid (c : Chip) (ch : Nat) : Bool := ch == 0 && c.rdb 0x3000 4 3
/-- The candidate that drives the loop filter: SELECTED, or in hybrid operation without it the phase selection (04 table "Hybrid
cases on TC0"). -/
def Chip.driver (c : Chip) (ch : Nat) : Nat := if c.sel ch = 0xFF then c.selPhase ch else c.sel ch
/-- Two selections act apart (04 R119). -/
def Chip.both (c : Chip) (ch : Nat) : Bool :=
  c.hybrid ch && c.selPhase ch != 0xFF && c.sel ch != 0xFF && c.sel ch != c.selPhase ch
/-- An entry of a selection table: CANDIDATE, LOCKOUT, ROLE, PRIORITY (04 0x3100). -/
def Chip.entryCand (c : Chip) (ch k : Nat) : Nat := c.rdf (0x3100 + ch) k 15 8
def Chip.entryLocked (c : Chip) (ch k : Nat) : Bool := c.rdb (0x3100 + ch) k 7
def Chip.entryRole (c : Chip) (ch k : Nat) : Nat := c.rdf (0x3100 + ch) k 6 5
def Chip.entryPrio (c : Chip) (ch k : Nat) : Nat := c.rdf (0x3100 + ch) k 3 0

/-- The datapath of a channel is not running: LOOP asleep, LO absent, or a channel that KEEP suspends (04 R100, 14 R361). -/
def Chip.suspended (c : Chip) (ch : Nat) : Bool :=
  !c.awake .loop || !c.loPresent || (ch != 0 && c.powerState == 1)

/-- LO_TRIM as a fraction. -/
def Chip.loTrim (c : Chip) : Rat := (c.rdi 0x4000 3 32 : Rat) / 1000000000000

/-- Square root of a rational, rounded up to 10^−6. -/
def ratSqrt (q : Rat) : Rat := (ceilSqrt (ratCeil (q * 1000000000000)) : Rat) / 1000000

/-! ### The oscillator model (05 R133–R136) -/

/-- TEB_K as a number. -/
def Chip.tebK (c : Chip) (ch : Nat) : Rat := (c.rd (0x3030 + ch) 0x0D : Rat) / 1000

/-- The temperature under TEMP_SOURCE, in 0.01 °C (05 R134). -/
def Chip.temp (c : Chip) (ch : Nat) : Option Int :=
  if c.rd (0x3020 + ch) 0x23 = 0 then some (if c.awake .loop then c.time.dieTemp else c.time.mastTemp)
  else if (c.chan ch).hostTempValid then some (c.rdi (0x3020 + ch) 0x24 32) else none

/-- The temperature the model is evaluated at: the last valid one, else T0 (05 R135). -/
def Chip.evalTemp (c : Chip) (ch : Nat) : Int :=
  match c.temp ch with
  | some t => t
  | none => (c.chan ch).lastTemp.getD (c.rdi (0x3020 + ch) 6 32)

/-- MODEL_READY (05 R136). -/
def Chip.modelReady (c : Chip) (ch : Nat) : Bool :=
  decide (225 ≤ c.rd (0x3020 + ch) 0x0C) && decide (c.rd (0x3020 + ch) 8 ≤ c.rd (0x3020 + ch) 0x27 * 1000)

/-- Seconds since the last admitted epoch, T_REF. -/
def Chip.sinceRef (c : Chip) (ch : Nat) : Nat :=
  match (c.chan ch).epochs with
  | [] => 0
  | e :: _ => c.monoSec - e.at_

/-- y_m at the present time and temperature, in ppt (05 "The oscillator model"). -/
def Chip.yModel (c : Chip) (ch : Nat) : Rat :=
  let dt : Rat := ((c.evalTemp ch - c.rdi (0x3020 + ch) 6 32 : Int) : Rat) / 100
  (c.rdi (0x3020 + ch) 2 64 : Rat) / 1000 + (c.rdi (0x3020 + ch) 3 32 : Rat) / 1000 * c.sinceRef ch / 86400 +
    (c.rdi (0x3020 + ch) 4 32 : Rat) / 1000 * dt + (c.rdi (0x3020 + ch) 5 32 : Rat) / 1000 * dt * dt

/-- The span of the learned temperatures, in 0.01 °C. -/
def Chip.tempSpan (c : Chip) (ch : Nat) : Int := c.rdi (0x3020 + ch) 0x0E 32 - c.rdi (0x3020 + ch) 0x0D 32

/-- U_T in ppt: the prior times the distance from T0 while C1 is held at its prior, else the uncertainty of the two terms in the
temperature at the present one (05 R135, log 9). -/
def Chip.uT (c : Chip) (ch : Nat) : Rat :=
  let o := 0x3020 + ch
  let dt : Rat := ((c.evalTemp ch - c.rdi o 6 32 : Int) : Rat) / 100
  let k := (c.chan ch).tempCov
  if c.tempSpan ch < 200 then (c.rd o 0x22 : Rat) / 1000 * ratAbs dt
  else ratSqrt (dt * dt * max 0 (k.v1 + 2 * k.v12 * dt + k.v2 * dt * dt))

/-- U_T as its object shows it, in 0.001 ppt: all ones until a model is fitted. -/
def Chip.uTShown (c : Chip) (ch : Nat) : Nat :=
  if c.rd (0x3020 + ch) 8 = 0xFFFFFFFF then 0xFFFFFFFF else min (ratCeil (c.uT ch * 1000)) 0xFFFFFFFE

/-- u_y(t)² at `t` seconds after t_s, in ppt² (05 R135). -/
def Chip.uy2 (c : Chip) (ch t : Nat) : Rat :=
  let o := 0x3020 + ch
  let uF : Rat := (c.rd o 8 : Rat) / 1000
  let uD : Rat := (c.rd o 9 : Rat) / 1000 * t / 86400
  let tp := c.evalTemp ch
  let prior : Rat := (c.rd o 0x22 : Rat) / 1000
  let uT : Rat := c.uT ch
  let low := c.rdi o 0x0D 32 - 200
  let high := c.rdi o 0x0E 32 + 200
  let uX : Rat := if (c.temp ch).isNone then (c.rd o 0x2A : Rat)
    else if tp < low then prior * ((low - tp : Int) : Rat) / 100
    else if high < tp then prior * ((tp - high : Int) : Rat) / 100 else 0
  uF * uF + uD * uD + uT * uT + uX * uX

/-- Every epoch and coefficient is discarded (05 R136). -/
def Chip.modelReset (c : Chip) (ch : Nat) : Chip :=
  let o := 0x3020 + ch
  let c := c.modChan ch (fun k => { k with
    epochs := [], tempCov := default, epochW := 0, epochN := 0, epochT := 0, epochTN := 0 })
  let c := ((((c.wr o 2 0).wr o 3 0).wr o 4 0).wr o 5 0).wr o 6 0
  let c := ((c.wr o 7 0).wr o 8 0xFFFFFFFF).wr o 9 0xFFFFFFFF
  let c := (((c.wr o 0x0A 0xFFFFFFFF).wr o 0x0B 0).wr o 0x0C 0).wr o 0x0D 0
  c.wr o 0x0E 0

/-- The nearest whole number. -/
def nearest (x : Rat) : Int := (x + 1 / 2).floor

/-- The coefficients that the data support (05 table "Coefficients and when they are fitted"). -/
def Chip.supported (c : Chip) (ch span : Nat) : List Nat :=
  [0] ++ (if 86400 ≤ span then [1] else []) ++ (if 200 ≤ c.tempSpan ch then [2] else []) ++
    (if 500 ≤ c.tempSpan ch then [3] else [])

/-- The model fitted to the admitted epochs (05 R135); coefficients the data do not support stay at their priors. -/
def Chip.refit (c : Chip) (ch : Nat) : Chip :=
  let o := 0x3020 + ch
  let es := (c.chan ch).epochs.map (fun e => (e.weight (c.rd o 0x26) c.monoSec, e))
  let ref := (es.head?.map (fun e => e.2.at_)).getD 0
  let oldest := (es.getLast?.map (fun e => e.2.at_)).getD 0
  let lo := es.foldl (fun (a : Option Rat) e => some (match a with | some v => min v e.2.temp | none => e.2.temp)) none
  let hi := es.foldl (fun (a : Option Rat) e => some (match a with | some v => max v e.2.temp | none => e.2.temp)) none
  let c := (c.wr o 0x0D (satInt 32 (lo.getD 0).floor)).wr o 0x0E (satInt 32 (hi.getD 0).ceil)
  let t0 := nearest (sumBy es Epoch.temp / sumBy es (fun _ => 1))
  let c := c.wr o 6 (satInt 32 t0)
  if es.length < 4 then c
  else
    let prior : List Rat := [0, (c.rdi o 0x20 32 : Rat) / 1000, 0, 0]
    let r := fitModel es ref t0 prior 4 (c.supported ch (ref + 16 - oldest))
    let fitted (i : Nat) : Bool := r.which.contains i
    let milli (i : Nat) : Int := nearest (r.at_ i * 1000)
    let sd (i : Nat) : Nat := ratCeil (ratSqrt (r.covOf i i) * 1000)
    let c := (c.wr o 2 (satInt 64 (milli 0))).wr o 8 (min (sd 0) 0xFFFFFFFE)
    let c := (c.wr o 3 (if fitted 1 then satInt 32 (milli 1) else c.rd o 0x20)).wr o 9
      (if fitted 1 then min (max (sd 1) (ceilDiv (c.rd o 0x21) 100)) 0xFFFFFFFE else c.rd o 0x21)
    let c := (c.wr o 4 (if fitted 2 then satInt 32 (milli 2) else 0)).wr o 5 (if fitted 3 then satInt 32 (milli 3) else 0)
    let u : Rat := (c.rd o 0x22 : Rat) / 1000
    let v (i : Nat) (p : Rat) : Rat := if fitted i then max (r.covOf i i) (p * p / 10000) else p * p
    let c := c.modChan ch (fun k => { k with tempCov := ⟨v 2 u, r.covOf 2 3, v 3 (u / 5)⟩ })
    let q := ratCeil (randomWalk (es.map (fun e => (e.2.at_, r.left ref t0 e.2))) * 1000000)
    c.wr o 0x0B (min (max q (c.rd o 0x29)) 0xFFFFFFFF)

/-- FREQ_ACC of a candidate's rank, in ppt; none when unknown (05 0x2211). -/
def Chip.freqAcc (c : Chip) (n : Nat) : Option Nat :=
  let a := c.rd 0x2211 (c.rank n + 1)
  if a = 0xFFFFFFFF then none else some a

/-- The conditions of 05 R133 that fail now, as LEARN_PAUSE shows them. -/
def Chip.learnFails (c : Chip) (ch : Nat) : Nat :=
  let n := c.driver ch
  let locked := c.tcOn ch && c.tcState ch == 2 && !c.rdb (0x3010 + ch) 1 7 && !c.suspended ch
  let acc := n < 28 && c.qState n == 2 && (match c.freqAcc n with
    | some a => decide (a ≤ c.rd (0x3020 + ch) 0x28)
    | none => false)
  (!locked).toNat + 2 * (!acc).toNat + 4 * ((c.temp ch).isNone).toNat + 8 * (c.rdb (0x3010 + ch) 1 5).toNat

/-- The conditions are watched continuously (05 R133). -/
def Chip.learnWatch (c : Chip) (ch : Nat) : Chip :=
  let m := c.learnFails ch
  if Nat.lor (c.chan ch).epochBad m = (c.chan ch).epochBad then c
  else c.modChan ch (fun k => { k with epochBad := Nat.lor k.epochBad m })

/-- A 16 s epoch ends (05 R133). -/
def Chip.epochEnd (c : Chip) (ch : Nat) : Chip :=
  if !c.tcOn ch then c
  else
    let k := c.chan ch
    let bad := Nat.lor k.epochBad (c.learnFails ch)
    let c := c.wrf (0x3020 + ch) 1 3 0 bad
    let fresh (k : Chan) : Chan := { k with epochBad := 0, epochW := 0, epochN := 0, epochT := 0, epochTN := 0 }
    if bad ≠ 0 ∨ k.epochN = 0 then c.modChan ch fresh
    else
      let w : Rat := (k.epochW : Rat) / k.epochN / 281474976710656
      let y := (1 / (1 + w) - 1) * 1000000000000
      let t : Rat := if k.epochTN = 0 then (c.evalTemp ch : Rat) else (k.epochT : Rat) / k.epochTN
      let e : Epoch := ⟨y, c.monoSec, t, (c.freqAcc (c.driver ch)).getD 1⟩
      let c := c.modChan ch (fun k => { fresh k with epochs := e :: k.epochs })
      let c := (c.inc (0x3020 + ch) 0x0C).wr (0x3020 + ch) 7 c.now
      c.refit ch

/-! ### The ensemble (05 R139) -/

/-- ŷ_i and u_i² of a candidate, in ppt and ppt². -/
def Chip.contribution (c : Chip) (n : Nat) : Rat × Rat :=
  let a : Rat := (((c.freqAcc n).getD 0 : Nat) : Rat) / 3
  let s : Rat := (c.cand n).yErr
  (((c.rdi 0x4000 3 32 - c.rdi (0x2020 + n) 4 32 : Int) : Rat), a * a + s * s)

/-- The contributors of a channel (05 R139). -/
def Chip.contributors (c : Chip) (ch : Nat) : List Nat :=
  (List.range 28).filterMap (fun i =>
    let k := i + 1
    let n := c.entryCand ch k
    if n < 28 && !c.entryLocked ch k && c.rdb (0x2020 + n) 1 2 && (c.freqAcc n).isSome && c.windowDone n &&
        (!c.hybrid ch || c.entryRole ch k != 2) then some n else none)

/-- The contributors that are not excluded (05 R139), `t` seconds after t_s. -/
def Chip.admitted (c : Chip) (ch t : Nat) : List Nat :=
  (c.contributors ch).filter (fun n =>
    let q := c.contribution n
    let k := c.tebK ch
    let d := q.1 - c.yModel ch
    d * d ≤ k * k * (q.2 + c.uy2 ch t))

/-- The estimate of holdover and its uncertainty squared (05 R138, R139). -/
def Chip.estimate (c : Chip) (ch t : Nat) : Rat × Rat :=
  let ns := if c.rdb (0x3020 + ch) 0x2B 0 then c.admitted ch t else []
  let u2 := c.uy2 ch t
  if ns = [] then (c.yModel ch, u2)
  else
    let all := (c.yModel ch, u2) :: ns.map c.contribution
    let sw := all.foldl (fun a q => a + 1 / q.2) 0
    let sy := all.foldl (fun a q => a + q.1 / q.2) 0
    (sy / sw, 1 / sw)

/-! ### The terms of the bound (05 R125–R130) -/

/-- D: the declared accuracy of a candidate (05 R126). -/
def Chip.declared (c : Chip) (n : Nat) : Option Nat :=
  let o := c.rd 0x2212 (n + 1)
  if 28 ≤ n then none
  else if o ≠ 0 then some o
  else
    let byRank := let a := c.rd 0x2210 (c.rank n + 1)
      if a = 0xFFFFFFFF then none else some a
    if isPkt n then
      match (c.cand n).declared with
      | some teb => decodeTeb teb
      | none => byRank
    else if isRef n && c.ppsRef == n && c.tod.valid then
      match c.tod.source with
      | some (_, acc) => decodeTeb acc
      | none => byRank
    else byRank

/-- M: TDC_SYS or the largest PKT uncertainty of the last 16 s, plus PATH_UNC (05 R125). Until a sample of a PKT is applied, its
delivered samples stand for them (DESIGN CHOICE, log 69). -/
def Chip.measTerm (c : Chip) (ch n : Nat) : Nat :=
  let path := c.rd 0x2213 (n + 1)
  if isPkt n then
    let got := (c.chan ch).pktUnc.filterMap (fun q => if q.1 = n ∧ c.monoSec ≤ q.2.2 + 16 then some q.2.1 else none)
    let all := if got.isEmpty then (c.cand n).uncs.filterMap (fun q => if c.monoSec ≤ q.2 + 16 then some q.1 else none) else got
    all.foldl max 0 + path
  else c.rd (0x3030 + ch) 0x0E + path

/-- |mean| + k × standard deviation of the last updates that applied a sample, if there are 16 (05 R125). -/
def Chip.servoNow (c : Chip) (ch : Nat) : Option Nat :=
  let l := (c.chan ch).perr
  if l.length < 16 then none
  else
    let n : Rat := l.length
    let m := (l.map (fun (x : Int) => (x : Rat))).foldl (· + ·) 0 / n
    let v := l.foldl (fun a (x : Int) => a + ((x : Rat) - m) * ((x : Rat) - m)) 0 / (n - 1)
    some (ratCeil (ratAbs m + c.tebK ch * ratSqrt v))

/-- S, kept over a decision until 16 samples of the new source (05 R128). -/
def Chip.servoTerm (c : Chip) (ch : Nat) : Option Nat :=
  if (c.chan ch).applied < 16 then (c.chan ch).sKept else c.servoNow ch

/-- P (05 R125). -/
def Chip.offsetTerm (c : Chip) (ch : Nat) : Nat := ratCeil (ratAbs (c.chan ch).buildOut + ratAbs (c.chan ch).slew)

/-- Nominal sample interval of a candidate, in s (04 R101). PKT: the servo's exchange rate (10 R278). -/
def Chip.sampleRate (c : Chip) (n : Nat) : Rat :=
  if n < 24 then c.detRate n
  else if n < 28 then
    let r (s : Nat) : Rat :=
      let v := c.rdi (0x6220 + (n - 24)) s 8
      if 0 ≤ v then 1 / (2 ^ v.toNat : Nat) else ((2 ^ (-v).toNat : Nat) : Rat)
    min (min (r 4) (r 5)) (1000000000 / (c.rd 0x6000 1 : Rat))
  else 1

/-- Growth in the second that begins `t - 1` seconds after t_s, in ps (05 R130). -/
def Chip.growRate (c : Chip) (ch t : Nat) : Rat :=
  let k := c.tebK ch
  let q : Rat := (c.rd (0x3020 + ch) 0x0B : Rat) / 1000000
  let rw (s : Nat) : Rat := ratSqrt (q * s * s * s / 3)
  let model := k * ratSqrt (if c.tcState ch = 3 then (c.estimate ch t).2 else c.uy2 ch t) + k * (rw t - rw (t - 1))
  if c.time.lo == .absent then 5000000
  else if c.tcState ch = 0 then (c.rd (0x3020 + ch) 0x2E : Rat)
  else if c.tcState ch = 3 ∧ c.hybrid ch ∧ c.sel ch < 28 then
    match c.freqAcc (c.sel ch) with
    | some _ => k * ratSqrt (c.contribution (c.sel ch)).2
    | none => model
  else if c.tcState ch = 3 ∨ c.modelReady ch ∨ (c.chan ch).gKept then model
  else (c.rd (0x3020 + ch) 0x2E : Rat)

/-- G starts from the last applied sample: every whole second since counts, at the rate of the present condition (05 R130). -/
def Chip.growStart (c : Chip) (ch : Nat) : Chip :=
  if (c.chan ch).growSince.isSome then c
  else
    let ts := (c.chan ch).lastApplied / (1000000000 * nsUnit)
    let g := (List.range (c.monoSec - ts)).foldl (fun a i => a + c.growRate ch (i + 1)) 0
    c.modChan ch (fun k => { k with growSince := some ts, growth := g })

/-- G starts when samples are late by more than twice their interval (05 R130). -/
def Chip.growWatch (c : Chip) (ch : Nat) : Chip :=
  let k := c.chan ch
  let late := (k.lastApplied : Rat) + 2 / c.sampleRate (c.selPhase ch) * (1000000000 * nsUnit) < c.time.mono
  c.iff (k.growSince.isNone && (c.tcState ch == 1 || c.tcState ch == 2) && k.everLocked && decide late) (fun c => c.growStart ch)

/-- G at a whole second, while it runs: the second that ends counts at the rate of the present condition (05 R130). -/
def Chip.growSecond (c : Chip) (ch : Nat) : Chip :=
  match (c.chan ch).growSince with
  | some ts =>
    let g := c.growRate ch (c.monoSec - ts)
    c.modChan ch (fun k => { k with growth := k.growth + g })
  | none => c

/-- G at the next whole second, as an evaluation takes it (05 R131). -/
def Chip.growNext (c : Chip) (ch : Nat) : Nat :=
  match (c.chan ch).growSince with
  | some ts => ratCeil ((c.chan ch).growth + c.growRate ch (c.monoSec - ts + 1))
  | none => 0

/-! ### Composition and publication (05 R131, R132, R137) -/

/-- The bound published with its terms; a decrease waits for a whole second (05 R131). -/
def Chip.publish (c : Chip) (ch : Nat) (whole : Bool) (d m s p w g : Nat) : Chip :=
  let o := 0x3030 + ch
  let c := (((((c.wr o 4 d).wr o 5 m).wr o 6 s).wr o 7 p).wr o 8 w).wr o 9 g
  let b := d + m + s + p + w + g
  if 8191 * 2 ^ 30 < b then c.boundUnknown ch 5
  else if !whole && decide (b < c.rd o 2) then c
  else
    let c := ((c.wr o 1 (encodeTeb (some b))).wr o 2 b).wr o 3 0
    c.iff (ch == 0) (fun c => c.modMinute (fun x => { x with worst := some (max b (x.worst.getD 0)) }))

/-- The terms at an evaluation in ACQUIRE or LOCKED are kept if a sample was applied since the last one (05 R137). -/
def Chip.freeze (c : Chip) (ch : Nat) (terms : Option (Nat × Nat × Nat × Nat × Nat)) : Chip :=
  if (c.chan ch).fresh then c.modChan ch (fun k => { k with fresh := false, frozen := terms }) else c

/-- B is evaluated from its terms (05 R125, R132, R137). -/
def Chip.composeBound (c : Chip) (ch : Nat) (whole : Bool) : Chip :=
  let o := 0x3030 + ch
  let k := c.chan ch
  let g := c.growNext ch
  let why := if c.rd o 3 = 0 then 1 else c.rd o 3
  if (c.tcState ch == 1 || c.tcState ch == 2) && !c.suspended ch && !k.gKept then
    let n := c.selPhase ch
    match c.declared n, c.servoTerm ch with
    | some d, some s =>
      let m := c.measTerm ch n
      let p := c.offsetTerm ch
      (c.freeze ch (some (d, m, s, p, k.wTerm))).publish ch whole d m s p k.wTerm g
    | none, s => (((c.freeze ch none).wr o 4 0).wr o 6 (s.getD 0)).boundUnknown ch 2
    | some d, none => (((c.freeze ch none).wr o 4 d).wr o 6 0).boundUnknown ch why
  else
    match k.frozen with
    | some (d, m, s, p, w) => if k.unknownHeld then c.boundUnknown ch why else c.publish ch whole d m s p w g
    | none => c.boundUnknown ch why

/-- B is evaluated (05 R124, R131, R132, R137, R141). -/
def Chip.evalBound (c : Chip) (ch : Nat) (whole : Bool) : Chip :=
  let c := c.growWatch ch
  let k := c.chan ch
  if !c.tcOn ch then c.boundUnknown ch 1
  else if k.stepLeft.isSome then (c.freeze ch none).boundUnknown ch 3
  else if !k.everLocked then (c.freeze ch none).boundUnknown ch 1
  else if ch != 0 && c.suspended ch then c.boundUnknown ch 4
  else
    let live := (c.tcState ch == 1 || c.tcState ch == 2) && !c.suspended ch
    let c := c.iff (live && k.gKept && decide (16 ≤ k.sampled)) (fun c =>
      c.modChan ch (fun k => { k with gKept := false, unknownHeld := false, growth := 0, growSince := none }))
    c.composeBound ch whole

/-- An increase of D or M of the phase source is an evaluation point (05 R127). -/
def Chip.boundWatch (c : Chip) (ch : Nat) : Chip :=
  let o := 0x3030 + ch
  let live := (c.tcState ch == 1 || c.tcState ch == 2) && !c.suspended ch && !(c.chan ch).gKept
  if !(c.tcOn ch && live && c.rd o 3 == 0) then c
  else
    let n := c.selPhase ch
    let more := match c.declared n with
      | some d => decide (c.rd o 4 < d)
      | none => true
    c.iff (more || decide (c.rd o 5 < c.measTerm ch n)) (fun c => c.evalBound ch false)

/-! ### Whole seconds (05 R131, R138, R140) -/

/-- Limit of the steering word, ±300 ppm in 2^−48 (04 R92). -/
def wMax : Int := 84442493013

/-- The word within its limit. -/
def limitWord (w : Int) : Int := max (-wMax) (min w wMax)

/-- A steering word as a fraction. -/
def wordRatio (w : Int) : Rat := (w : Rat) / 281474976710656

/-- The steering word for an LO offset in ppt, in 2^−48, not limited (05 R138). -/
def wordFor (y : Rat) : Int := ((1 / (1 + y / 1000000000000) - 1) * 281474976710656).floor

/-- The LO offset in ppt that a steering word corrects (05 R133). -/
def offsetOf (w : Int) : Rat := (1 / (1 + wordRatio w) - 1) * 1000000000000

/-- A channel steers: the word limited; STEER_CLAMPED and F048 follow (04 R92). -/
def Chip.steer (c : Chip) (ch : Nat) (raw : Int) : Chip :=
  let out := decide (wMax < raw.natAbs)
  let first := out && !(c.chan ch).clamped
  let c := c.modChan ch (fun k => { k with w := limitWord raw, clamped := out, steered := true })
  (c.wrb (0x3010 + ch) 1 5 out).iff first (fun c => c.raise 48 ch 0)

/-- The estimate of holdover takes its value of this second, no faster than FREQ_RAMP (05 R138). -/
def Chip.estimateStep (c : Chip) (ch : Nat) : Chip :=
  let t := c.monoSec - ((c.chan ch).growSince).getD c.monoSec + 1
  let want := (c.estimate ch t).1
  let ramp : Rat := c.rd (0x3000 + ch) 6
  let cur := (c.chan ch).yHat.getD want
  let y := if ramp = 0 then want else max (cur - ramp) (min want (cur + ramp))
  c.modChan ch (fun k => { k with yHat := some y })

/-- The estimate of holdover starts from the word in force, and the loop filter's integral with it: no step in frequency (04 R98). -/
def Chip.holdFrom (c : Chip) (ch : Nat) : Chip :=
  c.modChan ch (fun k => { k with yHat := some (offsetOf k.w), integ := k.w, hybrid := 0 })

/-- In HOLDOVER the steering word follows the estimate (05 R138). -/
def Chip.holdSteer (c : Chip) (ch : Nat) : Chip :=
  let c := c.estimateStep ch
  let c := c.steer ch (wordFor ((c.chan ch).yHat.getD 0))
  c.modChan ch (fun k => { k with integ := k.w })

/-- While TC0 is suspended, its word is held and the Steward moves the increment along the estimate (01 R20, 04 R100). -/
def Chip.stewardSteer (c : Chip) : Chip :=
  let c := c.estimateStep 0
  let w := wordRatio (limitWord (wordFor ((c.chan 0).yHat.getD 0)))
  let inc := nearest ((1000000000 * nsUnit : Nat) / (c.nominal : Rat) * (1 + w))
  c.modTime (fun u => { u with written := some inc.toNat })

/-- Ensemble counts of a channel in HOLDOVER (05 R139). -/
def Chip.ensembleCount (c : Chip) (ch : Nat) : Chip :=
  let on := c.tcState ch == 3 && c.rdb (0x3020 + ch) 0x2B 0
  let t := c.monoSec - ((c.chan ch).growSince).getD c.monoSec + 1
  let all := if on then c.contributors ch else []
  let ok := if on then c.admitted ch t else []
  let out := all.filter (fun n => !ok.contains n)
  let new := (out.filter (fun n => !(c.chan ch).excluded.contains n)).length
  let c := (c.wr (0x3020 + ch) 0x11 ok.length).incBy (0x3020 + ch) 0x12 new
  c.modChan ch (fun k => { k with excluded := out })

end Sys2Proof.Machine
end

