-- ==== Sys2Proof/Machine/Loop.lean ====
section
/-!
DEFINITION. Sys2Proof/Machine/Loop.lean: the timing channels: samples and shadows, selection, states, switching, the loop
filter, slews, and the time-counter increment (04 R92–R123, 05 R133–R141).
-/

namespace Sys2Proof.Machine

/-! ### Phases (04 R93, R108) -/

/-- A phase reduced modulo a period into [−P/2, +P/2), in ps (04 R93). -/
def reduce (x p : Rat) : Rat := x - p * ((x / p + 1 / 2).floor : Rat)

/-- The sample instant minus the channel's expected instant, unreduced, in ps: for TC0 against the time counter, for the
others against the channel's accumulated phase. `t` is the instant in steps. -/
def Chip.against (c : Chip) (ch : Nat) (t : Int) : Rat :=
  if ch = 0 then c.readAt t else (t : Rat) * 25 / 8 + (c.chan ch).acc

/-- Detection period in ps (04 R93). -/
def Chip.periodPs (c : Chip) (n : Nat) : Rat := 1000000000000 / c.detRate n

/-- The shadow: the mean of its differences. -/
def Shadow.mean (s : Shadow) : Rat := s.diffs.foldl (· + ·) 0 / (s.diffs.length : Rat)

/-- SHADOW_SE in ps; none below two samples (04 R108). -/
def Shadow.se (s : Shadow) : Option Rat :=
  let n : Rat := s.diffs.length
  if s.diffs.length < 2 then none
  else
    let m := s.mean
    some (ratSqrt (s.diffs.foldl (fun a d => a + (d - m) * (d - m)) 0 / (n - 1) / n))

/-- The shadow of an entry. -/
def Chip.shadow (c : Chip) (ch k : Nat) : Shadow := nth (c.chan ch).shadows (k - 1) ⟨[]⟩

/-- The shadow of a candidate in a channel's table. -/
def Chip.shadowOf (c : Chip) (ch n : Nat) : Shadow :=
  match c.entryOf ch n with
  | some k => c.shadow ch k
  | none => ⟨[]⟩

/-- The objects that show a shadow (04 0x3110, 0x3118). -/
def Chip.showShadow (c : Chip) (ch k : Nat) : Chip :=
  let s := c.shadow ch k
  let m := (s.mean + 1 / 2).floor
  let se := match s.se with
    | some e => let h := ratCeil (e * 100)
      if h < 0xFFFF then h else 0xFFFF
    | none => 0xFFFF
  let c := c.wr (0x3110 + ch) k (wrapInt 32 (max (-0x7FFFFFFF) (min m 0x7FFFFFFF)))
  c.wr (0x3118 + ch) k (se * 65536 + s.diffs.length)

/-- A delivered sample reaches a channel: its shadow, and the phase errors of the selections (04 R93, R108). A slew that remains is
no error (04 R110), and a frequency selection apart from the phase selection is measured against an offset of its own (04 R119). -/
def Chip.chanSample (c : Chip) (n : Nat) (t : Int) (ch : Nat) : Chip :=
  if c.suspended ch then c
  else
    match c.entryOf ch n with
    | none => c
    | some k =>
      let x := c.against ch t
      let p := c.periodPs n
      let d := match (c.shadow ch k).diffs with
        | [] => reduce x p
        | e :: _ => e + reduce (x - e) p
      let c := c.iff (c.qState n == 1 || c.qState n == 2) (fun c =>
        (c.modChan ch (fun h => { h with
          shadows := modNth h.shadows (k - 1) (fun s => ⟨(d :: s.diffs).take 64⟩) })).showShadow ch k)
      let h := c.chan ch
      let off := h.buildOut + h.slew
      let c := c.iff (c.driver ch == n) (fun c =>
        let o := if c.hybrid ch && c.selPhase ch != n then h.freqOff else off
        c.modChan ch (fun h => { h with errs := reduce (x - o) p :: h.errs }))
      c.iff (c.both ch && c.selPhase ch == n) (fun c =>
        c.modChan ch (fun h => { h with errsP := reduce (x - off) p :: h.errsP }))

/-- A sample judged and delivered to every channel (03 R78, 02 R53); the uncertainty of a PKT sample is kept (05 R125). -/
def Chip.deliver (c : Chip) (n : Nat) (t : Int) (phase coarse unc : Nat) : Chip :=
  let r := c.judge n t phase coarse
  let c := if r.2 then
      let c := r.1.iff (isPkt n) (fun c => c.modCand n (fun k => { k with uncs := ((unc, c.monoSec) :: k.uncs).take 64 }))
      c.each c.grade.chans (fun ch c => c.chanSample n t ch)
    else r.1
  c.qualify n

/-- A lane's formed sample is delivered (03 R78). -/
def Chip.sampleDelivery (c : Chip) (l : Nat) : Chip :=
  match (c.lane l).formed with
  | none => c
  | some s =>
    let c := c.modLane l (fun n => { n with formed := none })
    if (c.absentCause l).isSome || c.calFailed l then c
    else c.deliver l (((c.tdc.coarse : Int) + c.coarseDist s.coarse) * 1024 + s.phase) s.phase s.coarse 0

/-- A servo writes a sample to the mailbox (02 R47, 01 R26, 07 R184). `onLo`: the exchange overlapped a period on the LO. -/
def Chip.pktSample (c : Chip) (k : Nat) (phase : Int) (coarse unc secs : Nat) (onLo : Bool) : Chip :=
  let n := 24 + k
  if onLo then c.inc (0x2040 + n) 0x0A
  else if (c.absentCause n).isSome then c
  else if c.rd (0x2000 + n) 0x0E < unc then
    let c := c.inc (0x2040 + n) 9
    let r := (c.cand n).uncRun + 1
    let c := c.modCand n (fun x => { x with uncRun := r })
    (c.iff (c.profile n 7 ≤ r) (fun c => c.setFail n 5 true)).qualify n
  else
    let near := match (c.cand n).lastExt with
      | some e => decide (coarseSub coarse e ≤ c.profile n 8 * 312500)
      | none => true
    let c := (c.modCand n (fun x => { x with uncRun := 0, lastExt := some coarse })).setFail n 5 false
    let c := (c.actSeen n near).qualify n
    let t := ((c.tdc.coarse : Int) + c.coarseDist coarse) * 1024 + phase
    let c := c.deliver n t (wrapInt 18 phase) coarse unc
    c.iff (c.selPhase 0 == n && c.qState n != 0) (fun c => c.secondsCheck secs t)

/-! ### Selection (04 R96, R104–R107, R118) -/

/-- The entry's role allows the use: 0 any, 1 frequency, 2 phase (04 R118). -/
def Chip.roleOk (c : Chip) (ch k use : Nat) : Bool :=
  !c.hybrid ch || use == 0 || c.entryRole ch k == 0 || c.entryRole ch k == use

/-- A selectable entry (04 "Channel states"). -/
def Chip.selectable (c : Chip) (ch use k : Nat) : Bool :=
  let n := c.entryCand ch k
  n < 28 && !c.entryLocked ch k && c.qState n == 2 && decide (4 ≤ (c.shadow ch k).diffs.length) && c.roleOk ch k use

/-- The least of a list under a measure, the first among equals. -/
def leastBy (f : Nat → Nat) : List Nat → Option Nat
  | [] => none
  | k :: t =>
    match leastBy f t with
    | some m => if f m < f k then some m else some k
    | none => some k

/-- The candidate chosen for a use (04 R105). -/
def Chip.choose (c : Chip) (ch use cur : Nat) : Option Nat :=
  let ks := ((List.range 28).map (· + 1)).filter (c.selectable ch use)
  let trump := c.rd (0x3000 + ch) 0x0C
  match ks.find? (fun k => trump != 0xFF && c.entryCand ch k == trump) with
  | some k => some (c.entryCand ch k)
  | none =>
    let rk (k : Nat) : Nat := c.rank (c.entryCand ch k)
    let ks := if c.rdb (0x3000 + ch) 4 6 then
        match leastBy rk ks with
        | some b => ks.filter (fun k => rk k == rk b)
        | none => []
      else ks
    let has (l : List Nat) : Bool := l.any (fun k => c.entryCand ch k == cur)
    if !c.rdb (0x3000 + ch) 4 7 && has ks then some cur
    else
      match leastBy (c.entryPrio ch) ks with
      | none => none
      | some b =>
        let ks := ks.filter (fun k => c.entryPrio ch k == c.entryPrio ch b)
        if has ks then some cur else (leastBy (fun n => n) (ks.map (c.entryCand ch)))

/-! ### States (04 R96–R100) -/

/-- The effective bandwidth in 0.1 mHz (04 R101). -/
def Chip.effBw (c : Chip) (ch : Nat) : Nat :=
  let b := c.rd (0x3000 + ch) 2
  let n := c.driver ch
  if 28 ≤ n then b else min b (c.sampleRate n * 500).floor.toNat

/-- Loop updates per second (04 R95). -/
def Chip.updateRate (c : Chip) (ch : Nat) : Nat := if 10000000 < c.effBw ch then 256000 else 16000

/-- A channel changes state: posted, counted, captured, and an evaluation point (04 R96, 05 R131). -/
def Chip.setTc (c : Chip) (ch st : Nat) : Chip :=
  let old := c.tcState ch
  if old = st then c
  else
    let c := c.wrf (0x3010 + ch) 1 1 0 st
    let c := (c.inc (0x3010 + ch) 0x0E).wr (0x3010 + ch) 0x0A c.now
    let c := c.post 0x20 (chanDetail ch + old * 2 ^ 19 + st * 2 ^ 17)
    let c := c.iff (st == 2) (fun c => c.modChan ch (fun k => { k with everLocked := true }))
    (c.learnWatch ch).evalBound ch false

/-- SELECTED and SELECTED_PHASE. -/
def Chip.setSel (c : Chip) (ch f p : Nat) : Chip := (c.wr (0x3010 + ch) 2 f).wr (0x3010 + ch) 3 p

/-- The offset from which a frequency selection is followed: its own shadow, so that no phase is absorbed (04 R119). -/
def Chip.freqFrom (c : Chip) (ch f : Nat) : Chip := c.modChan ch (fun k => { k with freqOff := (c.shadowOf ch f).mean })

/-- The channel leaves ACQUIRE or LOCKED for HOLDOVER or FREERUN: the word stays, the bound is frozen and G runs (04 R96–R98, 05
R137). `f`: the frequency selection of hybrid operation that goes on, or none. -/
def Chip.leaveLoop (c : Chip) (ch st f : Nat) : Chip :=
  let same := f != 0xFF && c.both ch && f == c.sel ch
  let follow (k : Chan) : Int := if same then k.integ + k.hybrid else k.w
  let c := c.iff (!same) (fun c => c.freqFrom ch f)
  let c := c.modChan ch (fun k => { k with
    slew := 0, preset := none, decided := none, lockSince := none, errs := [], errsP := [], integ := follow k, hybrid := 0,
    holdStart := c.time.mono, yHat := some (offsetOf k.w), gKept := false, excluded := [] })
  let c := (c.wrb (0x3010 + ch) 1 7 false).setSel ch f 0xFF
  let c := c.iff (st == 3) (fun c => c.wr (0x3020 + ch) 0x10 0)
  (c.growStart ch).setTc ch st

/-- The W term: 4 ps + k × SHADOW_SE of the new source (05 R129). -/
def Chip.switchTerm (c : Chip) (ch n : Nat) : Nat :=
  ratCeil (4 + c.tebK ch * ((c.shadowOf ch n).se.getD 0))

/-- TC0 asks for a time step in place of a slew (04 R115): on entry to ACQUIRE from a state that STEP_ALLOW permits, and not during
SWITCHING. -/
def Chip.mayStep (c : Chip) (ch : Nat) (s : Rat) : Bool :=
  let allow := c.rd 0x3000 0x0E
  let from_ := (c.chan 0).acqFrom
  ch == 0 && !c.rdb 0x3010 1 7 && ((allow == 1 && from_ == 0) || (allow == 2 && (from_ == 0 || from_ == 3))) &&
    decide (((c.rd 0x3000 0x0F * 1000 : Nat) : Rat) < ratAbs s)

/-- A switch mode applied with the shadow of now (04 R109, R110, R115): 0 BUILD_OUT, 1 ALIGN. The whole shadow stands in SLEW_REMAIN
until a step that is asked for has been made. -/
def Chip.applyMode (c : Chip) (ch n mode : Nat) (acq : Bool) : Chip :=
  let s := (c.shadowOf ch n).mean
  if mode = 0 then c.modChan ch (fun k => { k with buildOut := s, slew := 0, decided := none })
  else
    let c := c.modChan ch (fun k => { k with buildOut := 0, slew := s, decided := none })
    if acq && c.mayStep ch s then
      let ns : Int := if s < 0 then -((-s / 1000).floor) else (s / 1000).floor
      c.requestStep (-ns) none 0 (-ns)
    else c

/-- SWITCH_MODE. -/
def Chip.switchMode (c : Chip) (ch : Nat) : Nat := c.rdf (0x3000 + ch) 4 5 4

/-- The switch mode of an acquisition, after its preset (04 R114). From HOLDOVER or FREERUN, SWITCHING is set with it (log 51). -/
def Chip.acquired (c : Chip) (ch mode : Nat) : Chip :=
  let c := c.applyMode ch (c.selPhase ch) mode true
  c.iff ((c.chan ch).acqFrom == 0 || (c.chan ch).acqFrom == 3) (fun c => c.wrb (0x3010 + ch) 1 7 true)

/-- The word at which the channel's frequency matches a candidate's FREQ_OFFSET, in 2^−48, not limited (04 R114). -/
def Chip.presetWord (c : Chip) (n : Nat) : Int :=
  let y : Rat := (c.rdi (0x2020 + n) 4 32 : Rat) / 1000000000000
  let w := ((1 + y) / (1 + c.loTrim) - 1) * 281474976710656
  nearest w

/-- Entry to ACQUIRE: consistency check, W, the frequency preset, and after it the switch mode (04 R114, 05 R128, R129, R137). -/
def Chip.enterAcquire (c : Chip) (ch n f : Nat) : Chip :=
  let from_ := c.tcState ch
  let o := 0x3030 + ch
  let known := c.rd o 3 = 0
  let sh := c.shadowOf ch n
  let miss : Rat := ratAbs sh.mean - c.tebK ch * (sh.se.getD 0) - (((c.declared n).getD 0 + c.measTerm ch n : Nat) : Rat)
  let viol := (from_ = 0 ∨ from_ = 3) ∧ known ∧ (c.declared n).isSome ∧ (c.rd o 2 : Rat) < miss
  let c := c.iff (decide viol) (fun c =>
    (((c.inc o 0x0B).wr o 0x0C c.now).raise (40 + ch) ch 0).post 0x24 (chanDetail ch))
  let keep := c.servoTerm ch
  let w := c.switchTerm ch n
  let c := c.modChan ch (fun k => { k with
    acqFrom := from_, acqSince := c.time.mono, acqTimedOut := false, preset := some (c.presetWord n), presetFrac := 0
    decided := some (c.switchMode ch), sKept := keep, applied := 0, sampled := 0, perr := [], wTerm := w, errs := [], errsP := [], lockSince := none,
    lostReason := none, lostFreq := none, gKept := from_ == 0 || from_ == 3, unknownHeld := decide (from_ = 0 ∧ ¬ known) })
  let c := c.iff (!c.both ch || f != c.sel ch) (fun c => c.freqFrom ch f)
  (c.setSel ch f n).setTc ch 1

/-- Reasons that make a switch planned (04 R113). -/
def plannedReason (r : Nat) : Bool := [0x02, 0x11, 0x12, 0x13, 0x14, 0x15, 0x16, 0x01, 0x08].contains r

/-- The stated bound of a switch in ps; none for unknown (04 R116, R117). -/
def Chip.switchBound (c : Chip) (ch old new : Nat) (planned : Bool) : Option Nat :=
  let se := (c.shadowOf ch new).se.getD 0
  if planned then some (ratCeil (4 + 3 * se))
  else if se ≤ 2 ∧ old < 24 ∧ 1000 ≤ c.detRate old ∧ c.profile old 1 ≤ 16 ∧ c.effBw ch ≤ 10000000 then
    some (ratCeil (44 + 3 * se))
  else none

/-- A switch is counted and posted (04 R113, R117). `lost`: the reason with which the old selection left QUALIFIED, if it has. -/
def Chip.noteSwitch (c : Chip) (ch old new : Nat) (lost : Option Nat) : Chip :=
  let planned := (old < 28 && c.qState old == 2) || (match lost with
    | some r => plannedReason r
    | none => true)
  let b := c.switchBound ch old new planned
  let c := c.wr (0x3010 + ch) 9 (b.getD 0xFFFFFFFF)
  let c := c.inc (0x3010 + ch) (if planned then 0x0B else 0x0C)
  let c := c.iff (ch == 0) (fun c => c.modMinute (fun m => { m with switched := true }))
  c.post 0x21 (chanDetail ch + (if old < 28 then old else 31) * 2 ^ 16 + new * 2 ^ 11 + (!planned).toNat * 2 ^ 10 +
    min (b.getD 1023) 1023)

/-- The frequency selection of hybrid operation changes (04 R119, R113): a change from or to none is no switch (log 51). -/
def Chip.freqSwitch (c : Chip) (ch old new : Nat) : Chip :=
  let c := c.iff (decide (old < 28 ∧ new < 28)) (fun c => c.noteSwitch ch old new (c.chan ch).lostFreq)
  (c.freqFrom ch new).modChan ch (fun k => { k with errs := [], lostFreq := none })

/-- A switch decision of the phase source (04 R109–R114, R123, 05 R128, R129). -/
def Chip.switchTo (c : Chip) (ch n f : Nat) : Chip :=
  let old := c.selPhase ch
  let oldF := c.sel ch
  let c := c.noteSwitch ch old n (c.chan ch).lostReason
  let together := oldF == old && f == n
  let c := if together then c
    else if f = oldF then c.iff (oldF == old) (fun c => c.freqFrom ch f)
    else c.freqSwitch ch oldF f
  let keep := c.servoTerm ch
  let w := c.switchTerm ch n
  let mode := c.switchMode ch
  let running := (c.chan ch).preset.isSome
  let c := c.modChan ch (fun k => { k with
    acqFrom := 1, acqSince := c.time.mono, acqTimedOut := false, sKept := keep, applied := 0, sampled := 0, perr := [], wTerm := w, errs := [],
    errsP := [], lockSince := none, lostReason := none, preset := if running then some (c.presetWord n) else none
    presetFrac := 0, decided := if running then some mode else none })
  let c := (c.setSel ch f n).wrb (0x3010 + ch) 1 7 true
  let c := c.iff (!running) (fun c => c.applyMode ch n mode false)
  c.evalBound ch false

/-! ### The filter (04 R92–R95, R102, R112, R119) -/

/-- Mean of a list. -/
def meanOf (l : List Rat) : Rat := l.foldl (· + ·) 0 / (l.length : Rat)

/-- The mean shown in PHASE_ERROR: of the samples delivered since the last update, outside a preset (04 R93, R114). -/
def Chip.showError (c : Chip) (ch : Nat) : Chip :=
  let k := c.chan ch
  let es := if c.both ch then k.errsP else k.errs
  c.iff (!es.isEmpty && k.preset.isNone && c.selPhase ch != 0xFF) (fun c =>
    c.wr (0x3010 + ch) 4 (satInt 32 (nearest (meanOf es))))

/-- The lock criteria hold now (04 R102). -/
def Chip.lockCriteria (c : Chip) (ch : Nat) : Bool :=
  let k := c.chan ch
  let n := c.selPhase ch
  n < 28 && k.slew == 0 && k.preset.isNone && !k.perr.isEmpty &&
    decide ((k.perr.headD 0).natAbs ≤ c.rd (0x3000 + ch) 7) &&
    decide ((c.rdi (0x3010 + ch) 5 32 - c.rdi (0x2020 + n) 4 32).natAbs ≤ c.rd (0x3000 + ch) 8)

/-- The PKT samples that an update applies, with their uncertainties, beside those of the last 16 s (05 R125). -/
def Chip.pktApplied (c : Chip) (ch count : Nat) : Chip :=
  let n := c.selPhase ch
  let new := ((c.cand n).uncs.take count).map (fun q => (n, q.1, c.monoSec))
  c.iff (isPkt n) (fun c => c.modChan ch (fun k => { k with
    pktUnc := new ++ k.pktUnc.filter (fun q => decide (c.monoSec ≤ q.2.2 + 16)) }))

/-- A mean phase error is applied: shown, kept for S, and the bound's clocks restart (04 R93, 05 R125, R129, R130, R141). -/
def Chip.noteError (c : Chip) (ch : Nat) (e : Rat) (count : Nat) : Chip :=
  let pe := nearest e
  let s := c.servoTerm ch
  let c := (c.wr (0x3010 + ch) 4 (satInt 32 pe)).pktApplied ch count
  let c := c.modChan ch (fun k => { k with
    perr := (pe :: k.perr).take 64, applied := min 64 (k.applied + 1), sampled := min 64 (k.sampled + count), lastApplied := c.time.mono
    fresh := true, growSince := if k.gKept then k.growSince else none
    stepLeft := if c.stepPending then k.stepLeft else (match k.stepLeft with
      | some n => if n ≤ count then none else some (n - count)
      | none => none) })
  let c := c.iff (ch == 0) (fun c => c.modMinute (fun m => { m with worstPhase := some (max pe.natAbs (m.worstPhase.getD 0)) }))
  let c := c.iff ((c.chan ch).slew == 0 && (c.chan ch).preset.isNone && decide (pe.natAbs ≤ c.rd (0x3000 + ch) 7)) (fun c =>
    c.wrb (0x3010 + ch) 1 7 false)
  let c := c.iff (64 ≤ (c.chan ch).sampled && !c.rdb (0x3010 + ch) 1 7) (fun c =>
    c.modChan ch (fun k => { k with wTerm := 0 }))
  match s with
  | some v => c.iff (decide (v < pe.natAbs)) (fun c => c.evalBound ch false)
  | none => c

/-- One step of the proportional-integral filter on an error (04 R92, "Loop filter"): the hybrid correction is added to its word, and
at a clamped update the integral moves only where the word moves back towards the range. -/
def Chip.piStep (c : Chip) (ch : Nat) (e : Rat) : Chip :=
  let bw := c.effBw ch
  let z := c.rd (0x3000 + ch) 3
  let old := (c.chan ch).integ
  let integ := old - nearest (Config.loopKi bw z * e)
  let raw := integ - nearest (Config.loopKp bw z * e) + (c.chan ch).hybrid
  let back := decide (raw.natAbs ≤ wMax) || (if raw < 0 then decide (old < integ) else decide (integ < old))
  (c.steer ch raw).modChan ch (fun k => { k with integ := if back then integ else old })

/-- The type-1 correction of hybrid operation takes a new value (04 R119). -/
def Chip.hybridStep (c : Chip) (ch : Nat) (e : Rat) : Chip :=
  let bw := min (c.rd 0x3000 0x10) (c.effBw ch / 10)
  let h := -(nearest (Config.hybridGain bw * e))
  let k := c.chan ch
  (c.steer ch (k.w - k.hybrid + h)).modChan ch (fun k => { k with hybrid := h })

/-- The filter of an update: samples applied, or a coast (04 R93, R94, R119). Where the two selections no longer act apart, the
integral takes the hybrid correction. -/
def Chip.filter (c : Chip) (ch : Nat) : Chip :=
  let both := c.both ch
  let c := c.iff (!both && (c.chan ch).hybrid != 0) (fun c =>
    c.modChan ch (fun k => { k with integ := k.integ + k.hybrid, hybrid := 0 }))
  let k := c.chan ch
  let c := if k.errs.isEmpty then c
    else
      let e := meanOf k.errs
      let c := c.iff (!both && c.selPhase ch != 0xFF) (fun c => c.noteError ch e k.errs.length)
      (c.piStep ch e).modChan ch (fun k => { k with errs := [] })
  let es := (c.chan ch).errsP
  let c := c.iff (both && !es.isEmpty) (fun c => (c.noteError ch (meanOf es) es.length).hybridStep ch (meanOf es))
  c.modChan ch (fun k => { k with errsP := [] })

/-- The frequency preset: the word moves at FREQ_RAMP; at its end the integral takes the word and the switch mode is applied
(04 R114). -/
def Chip.presetStep (c : Chip) (ch : Nat) (target : Int) : Chip :=
  let ramp : Rat := (c.rd (0x3000 + ch) 6 : Rat) / 1000000000000 * 281474976710656 / (c.updateRate ch : Rat)
  let w := (c.chan ch).w
  let room : Rat := ramp + (c.chan ch).presetFrac
  let step : Int := room.floor
  let raw := if c.rd (0x3000 + ch) 6 = 0 then target else max (w - step) (min target (w + step))
  let c := (c.steer ch raw).modChan ch (fun k => { k with presetFrac := room - step, errs := [], errsP := [] })
  if raw = target ∨ (c.chan ch).clamped then
    let mode := (c.chan ch).decided
    let c := c.modChan ch (fun k => { k with preset := none, integ := k.w, hybrid := 0 })
    match mode with
    | some m => c.acquired ch m
    | none => c
  else c

/-- TC0's increment of an update (04 R121): the ideal one with the remainder carried, rounded to 2^−32 ns. -/
def Chip.writeIncrement (c : Chip) (eff : Rat) : Chip :=
  let ticks : Rat := (c.nominal : Rat) / (c.updateRate 0 : Rat)
  let ideal : Rat := (1000000000 * nsUnit : Nat) / (c.nominal : Rat) * (1 + eff) + (c.chan 0).carry / ticks
  let put := (nearest ideal).toNat
  (c.modTime (fun t => { t with written := some put })).modChan 0 (fun k => { k with carry := (ideal - put) * ticks })

/-- The slew's Δ of an update (04 R110); none while a step that TC0 asked for is pending (04 R122). -/
def Chip.slewNow (c : Chip) (ch : Nat) : Rat :=
  let k := c.chan ch
  let lim : Rat := (c.rd (0x3000 + ch) 5 : Rat) / (c.updateRate ch : Rat)
  let own := match c.time.pendingStep with
    | some r => r.tc0 != 0
    | none => false
  if ch == 0 && own then 0
  else if c.rd (0x3000 + ch) 5 = 0 then k.slew else max (-lim) (min k.slew lim)

/-- The motion of an update: the slew's Δ, the channel's phase, FREQ_OFFSET, and TC0's increment (04 R110, R121, R122). -/
def Chip.motion (c : Chip) (ch : Nat) : Chip :=
  let rate : Rat := c.updateRate ch
  let d := c.slewNow ch
  let w := wordRatio (c.chan ch).w
  let eff := w - d * rate / 1000000000000
  let c := c.modChan ch (fun k => { k with
    slew := k.slew - d, acc := k.acc + w * 1000000000000 / rate - d, feed := d * rate / 1000000000000
    freqOff := k.freqOff + wordRatio k.hybrid * 1000000000000 / rate - d
    epochW := k.epochW + k.w, epochN := k.epochN + 1 })
  let c := c.wr (0x3010 + ch) 5 (satInt 32 (nearest (((1 + eff) * (1 + c.loTrim) - 1) * 1000000000000)))
  let c := (c.wr (0x3010 + ch) 8 (c.effBw ch)).wrb (0x3010 + ch) 1 6 (decide (c.effBw ch < c.rd (0x3000 + ch) 2))
  if ch = 0 then c.writeIncrement eff else c

/-- A disabled channel's phase goes on at its held word (04 R108: shadows are kept of every entry). -/
def Chip.drift (c : Chip) (ch : Nat) : Chip :=
  c.modChan ch (fun k => { k with acc := k.acc + wordRatio k.w * 1000000000000 / (c.updateRate ch : Rat), feed := 0 })

/-- The channel's phase accumulator now, in ps ahead of the LO's nominal time: while the datapath is suspended, what it steers runs on
at the held word (01 R20, 06 R152). -/
def Chip.accNow (c : Chip) (ch : Nat) : Rat :=
  let k := c.chan ch
  match k.heldAt with
  | some t => k.acc + wordRatio k.w * ((c.time.ticks - t : Nat) : Rat) * 1000000000000 / c.nominal
  | none => k.acc

/-! ### The update (04 R96) -/

/-- TRUMP_WAITING, followed at all times (04 R106). -/
def Chip.trumpWait (c : Chip) (ch : Nat) : Chip :=
  let t := c.rd (0x3000 + ch) 0x0C
  let w := t != 0xFF && !(t < 28 && c.qState t == 2)
  let c := c.iff (c.rdb (0x3010 + ch) 1 4 != w) (fun c => c.wrb (0x3010 + ch) 1 4 w)
  c.iff (w && (c.chan ch).trumpTaken) (fun c => c.modChan ch (fun k => { k with trumpTaken := false }))

/-- The event of a trump taken (04 R106). -/
def Chip.trumpWatch (c : Chip) (ch : Nat) : Chip :=
  let c := c.trumpWait ch
  let t := c.rd (0x3000 + ch) 0x0C
  c.iff (t < 28 && c.qState t == 2 && !(c.chan ch).trumpTaken && (c.selPhase ch == t || c.sel ch == t)) (fun c =>
    (c.modChan ch (fun k => { k with trumpTaken := true })).post 0x22 (chanDetail ch + t * 2 ^ 16 + 1 * 2 ^ 13))

/-- The selections of an update: phase, and frequency where hybrid operation makes it apart; none is 0xFF (04 R105, R118). -/
def Chip.choices (c : Chip) (ch : Nat) : Nat × Nat :=
  let hyb := c.hybrid ch
  let p := c.choose ch (if hyb then 2 else 0) (c.selPhase ch)
  let f := if hyb then c.choose ch 1 (c.sel ch) else p
  (p.getD 0xFF, f.getD 0xFF)

/-- In HOLDOVER or FREERUN, the selections are none but for a frequency selection without a phase selection (04 R119). -/
def Chip.holdWith (c : Chip) (ch f : Nat) : Chip :=
  if c.sel ch = f then c
  else
    let c := (c.freqSwitch ch (c.sel ch) f).holdFrom ch
    (c.setSel ch f 0xFF).evalBound ch false

/-- The frequency selection changes beside an unchanged phase selection (04 R105, R112, R119, 05 R131). -/
def Chip.freqTo (c : Chip) (ch f n : Nat) : Chip :=
  let c := c.freqSwitch ch (c.sel ch) f
  let c := c.setSel ch f n
  let c := c.iff (f != 0xFF) (fun c => (c.wrb (0x3010 + ch) 1 7 true).modChan ch (fun k => { k with
    acqSince := c.time.mono, acqTimedOut := false }))
  c.evalBound ch false

/-- The rows of ACQUIRE and LOCKED that stay in the loop: lock, and unlock (04 R96, R102). -/
def Chip.lockRows (c : Chip) (ch n f : Nat) (errs : List Rat) : Chip :=
  let ok := c.lockCriteria ch
  let since := (c.chan ch).lockSince
  let held := match since with
    | some s => decide (s + c.rd (0x3000 + ch) 9 * 1000000000 * nsUnit ≤ c.time.mono)
    | none => false
  if c.tcState ch = 1 then
    if ok && held then c.setTc ch 2
    else c.modChan ch (fun k => { k with lockSince := if ok then some (since.getD c.time.mono) else none })
  else if !c.rdb (0x3010 + ch) 1 7 && !errs.isEmpty && decide ((c.rd (0x3000 + ch) 0x0A : Rat) < ratAbs (meanOf errs)) then
    (c.inc (0x3010 + ch) 0x0D).enterAcquire ch n f
  else c

/-- The transitions and decisions of an update, the first that applies (04 R96, R105, R118–R120). -/
def Chip.decide_ (c : Chip) (ch : Nat) : Chip :=
  let force := c.rd (0x3000 + ch) 0x0D
  let st := c.tcState ch
  let hyb := c.hybrid ch
  let (p, f) := c.choices ch
  let c := c.iff (ch == 0) (fun c => (c.wrb 0x3010 1 3 (hyb && f == 0xFF)).wrb 0x3010 1 2 (hyb && p == 0xFF))
  let keepF := if hyb && p == 0xFF then f else 0xFF
  let errs := if c.both ch then (c.chan ch).errsP else (c.chan ch).errs
  if force = 2 ∧ st ≠ 0 then c.leaveLoop ch 0 0xFF
  else if (st = 1 ∨ st = 2) ∧ (force = 1 ∨ p = 0xFF) then c.leaveLoop ch (if c.modelReady ch then 3 else 0) keepF
  else if p = 0xFF then c.holdWith ch keepF
  else if st = 0 ∨ st = 3 then (if force = 0 then c.enterAcquire ch p f else c.holdWith ch keepF)
  else
    let c := if p ≠ c.selPhase ch then c.switchTo ch p f else if f ≠ c.sel ch then c.freqTo ch f p else c
    c.lockRows ch p f errs

/-- The steering of an update, from the samples applied (04 R92–R94, R114, R119). -/
def Chip.steerUpdate (c : Chip) (ch : Nat) : Chip :=
  if c.tcState ch = 1 ∨ c.tcState ch = 2 then
    match (c.chan ch).preset with
    | some w => c.presetStep ch w
    | none => c.filter ch
  else c.iff (c.hybrid ch && c.sel ch != 0xFF) (fun c => c.filter ch)

/-- One loop update of a channel (04 R94, R96). While a step is pending, TC0 holds its steering word (04 R122). -/
def Chip.loopUpdate (c : Chip) (ch : Nat) : Chip :=
  if c.suspended ch || c.grade.chans ≤ ch then c
  else if !c.tcOn ch then c.drift ch
  else
    let c := (((c.showError ch).decide_ ch).trumpWatch ch)
    let c := c.iff (!(ch == 0 && c.stepPending)) (fun c => c.steerUpdate ch)
    c.motion ch

/-! ### Enabling, suspension, the LO (04 R97, R100, 05 R141) -/

/-- A channel is enabled: without earlier steering it starts at nominal (04 R97). -/
def Chip.tcEnable (c : Chip) (ch : Nat) : Chip :=
  let w := nearest (-(c.loTrim) / (1 + c.loTrim) * 281474976710656)
  c.modChan ch (fun k => { k with
    on := true, w := if k.steered then k.w else w, integ := if k.steered then k.w else w })

/-- TRUMP is cleared with an event's cause (04 R106). -/
def Chip.trumpClear (c : Chip) (ch why : Nat) : Chip :=
  let t := c.rd (0x3000 + ch) 0x0C
  if t = 0xFF then c
  else
    let c := (c.wr (0x3000 + ch) 0x0C 0xFF).modChan ch (fun k => { k with trumpTaken := false })
    (c.wrb (0x3010 + ch) 1 4 false).post 0x22 (chanDetail ch + t * 2 ^ 16 + why * 2 ^ 13)

/-- ENABLE is written 0 (04 R96, R106, 05 R141): FREERUN at the word it had. -/
def Chip.tcDisable (c : Chip) (ch : Nat) : Chip :=
  let c := c.trumpClear ch 5
  let c := (c.wrb (0x3010 + ch) 1 7 false).setSel ch 0xFF 0xFF
  let c := (c.wrb (0x3010 + ch) 1 3 false).wrb (0x3010 + ch) 1 2 false
  let c := c.modChan ch (fun k => { k with
    on := false, slew := 0, preset := none, decided := none, lockSince := none, errs := [], errsP := [], integ := k.w, hybrid := 0
    gKept := false, growth := 0, growSince := none, frozen := none, fresh := false })
  (c.setTc ch 0).boundUnknown ch 1

/-- A start has reached step 8, or has applied stored values: channels run as ENABLE says (17 R410). -/
def Chip.tcFollow (c : Chip) (ch : Nat) (enable : Bool) : Chip :=
  if c.rdb (0x3000 + ch) 1 0 then c.iff enable (fun c => c.tcEnable ch)
  else c.iff (c.chan ch).on (fun c => c.tcDisable ch)

/-- The state a suspended channel reads (04 R100): FREERUN where it is disabled (04 R96). -/
def Chip.heldState (c : Chip) (ch : Nat) : Nat := if c.tcOn ch && c.modelReady ch then 3 else 0

/-- A channel's datapath stops: its word is held, shadows and what the loop was doing go, and G runs (04 R100, 05 R141). -/
def Chip.suspend (c : Chip) (ch : Nat) : Chip :=
  let c := c.each 28 (fun i c => c.iff ((c.shadow ch (i + 1)).diffs != []) (fun c => c.dropShadow ch (i + 1)))
  let s := c.servoTerm ch
  let c := (c.holdFrom ch).modChan ch (fun k => { k with
    errs := [], errsP := [], preset := none, decided := none, slew := 0, lockSince := none, perr := [], applied := 0
    sampled := 0, sKept := s, holdStart := c.time.mono, feed := 0, heldAt := some c.time.ticks })
  let c := ((c.wrb (0x3010 + ch) 1 8 true).wrb (0x3010 + ch) 1 7 false).setSel ch 0xFF 0xFF
  c.iff (c.tcOn ch) (fun c =>
    let c := c.growStart ch
    (c.wrf (0x3010 + ch) 1 1 0 (c.heldState ch)).evalBound ch false)

/-- Every channel follows whether its datapath runs: suspended without an event, it reads HOLDOVER or FREERUN, and it resumes in that
state from the word it held (04 R100). -/
def Chip.suspendWatch (c : Chip) (ch : Nat) : Chip :=
  let s := c.suspended ch
  let lo := s && c.time.lo == .absent
  let was := c.rdb (0x3010 + ch) 1 8
  let c := c.iff (c.rdb (0x3010 + ch) 1 9 != lo) (fun c => c.wrb (0x3010 + ch) 1 9 lo)
  if s then
    let c := c.iff (!was) (fun c => c.suspend ch)
    c.iff (c.tcState ch != c.heldState ch) (fun c => c.wrf (0x3010 + ch) 1 1 0 (c.heldState ch))
  else c.iff was (fun c =>
    ((c.wrb (0x3010 + ch) 1 8 false).modChan ch (fun k => { k with acc := c.accNow ch, heldAt := none })).holdFrom ch)

/-- BUILD_OUT_OFFSET and SLEW_REMAIN show the channel's offsets (04 0x3010:06, :07), and its last phase selection is kept (02 R64). -/
def Chip.offsetsWatch (c : Chip) (ch : Nat) : Chip :=
  let b := satInt 64 (nearest (c.chan ch).buildOut)
  let s := satInt 64 (nearest (c.chan ch).slew)
  let c := c.iff (c.rd (0x3010 + ch) 6 != b) (fun c => c.wr (0x3010 + ch) 6 b)
  let c := c.iff (c.rd (0x3010 + ch) 7 != s) (fun c => c.wr (0x3010 + ch) 7 s)
  let p := c.selPhase ch
  c.iff (decide (p < 28) && (c.chan ch).lastPick != some p) (fun c => c.modChan ch (fun k => { k with lastPick := some p }))

/-- The LO is declared absent: every model is reset, and every bound takes the LO-absent row (05 R136, R141). -/
def Chip.loLost (c : Chip) (ch : Nat) : Chip :=
  let c := c.modelReset ch
  let ts := (c.chan ch).lastApplied / (1000000000 * nsUnit)
  let g : Rat := 5000000 * (c.monoSec - ts : Nat) + 31250000
  let c := c.modChan ch (fun k => { k with growSince := some ts, growth := g })
  c.evalBound ch false

/-- The whole-second work of a channel: temperature, growth, holdover steering and the bound (05 R131, R134, R138). -/
def Chip.second (c : Chip) (ch : Nat) : Chip :=
  let t := c.temp ch
  let c := c.wr (0x3020 + ch) 0x0F (match t with
    | some v => satInt 32 v
    | none => 0x80000000)
  let c := match t with
    | some v => c.modChan ch (fun k => { k with epochT := k.epochT + v, epochTN := k.epochTN + 1 })
    | none => c
  if !c.tcOn ch then c.boundUnknown ch 1
  else
    let c := c.growSecond ch
    let hold := c.tcState ch == 3
    let held := c.suspended ch
    let c := c.iff hold (fun c => c.inc (0x3020 + ch) 0x10)
    let c := c.iff (hold && !held && !(c.hybrid ch && c.sel ch != 0xFF)) (fun c => c.holdSteer ch)
    let c := c.iff (hold && ch == 0 && held && c.loPresent) Chip.stewardSteer
    (c.ensembleCount ch).evalBound ch true

/-- A whole second of the time counter: temperatures sampled, every channel evaluated, the minute's counts (05 R131, R145, 11
R298). -/
def Chip.wholeSecond (c : Chip) (die mast : Int) : Chip :=
  let c := c.modTime (fun t => { t with dieTemp := die, mastTemp := mast })
  let c := c.each c.grade.chans (fun ch c => c.second ch)
  let st := if c.tcOn 0 then c.tcState 0 else 0
  let tp := c.temp 0
  c.modMinute (fun m => { m with
    locked := m.locked + (st == 2).toNat, acquire := m.acquire + (st == 1).toNat,
    holdover := m.holdover + (st == 3).toNat, freerun := m.freerun + (st == 0).toNat,
    tMin := (match tp, m.tMin with
      | some v, some a => some (min v a)
      | some v, none => some v
      | none, a => a),
    tMax := (match tp, m.tMax with
      | some v, some a => some (max v a)
      | some v, none => some v
      | none, a => a) })

/-! ### Expiries and requests -/

/-- ACQUIRE_TIMEOUT (04 R99). -/
def Chip.acquireTimeout (c : Chip) (ch : Nat) : Chip :=
  if !c.tcOn ch || c.tcState ch != 1 || c.rd (0x3000 + ch) 0x0B = 0 || (c.chan ch).acqTimedOut then c
  else
    let c := c.modChan ch (fun k => { k with acqTimedOut := true })
    (c.inc (0x3010 + ch) 0x0F).raise 49 ch 0

/-- Holdover expires: HOLDOVER_MAX, or HOLDOVER_TEB_LIMIT exceeded by B (05 R140). -/
def Chip.holdoverExpire (c : Chip) (ch : Nat) (byLimit : Bool) : Chip :=
  let lim := c.rd (0x3020 + ch) 0x2D
  let b := c.rd (0x3030 + ch) 3
  let past := if byLimit then lim ≠ 0 ∧ (b = 5 ∨ (b = 0 ∧ lim * 1000 < c.rd (0x3030 + ch) 2))
    else c.rd (0x3020 + ch) 0x2C ≠ 0
  if !c.tcOn ch || c.tcState ch != 3 || c.suspended ch || !decide past then c
  else (c.post 0x23 (chanDetail ch + byLimit.toNat * 2 ^ 20)).setTc ch 0

/-- REALIGN (04 R111, R112). -/
def Chip.realign (c : Chip) (ch : Nat) : Chip :=
  let c := c.modChan ch (fun k => { k with slew := k.slew + k.buildOut, buildOut := 0 })
  (c.wrb (0x3010 + ch) 1 7 true).evalBound ch false

/-- A software slew of TC0 (07 R183): a software setting of the counter (05 R141). -/
def Chip.timeSlew (c : Chip) (s : Int) : Chip :=
  let c := c.modChan 0 (fun k => { k with slew := k.slew + s, stepLeft := some 16 })
  (c.post 0x32 ((if s < 0 then 2 ^ 23 else 0) + encodeTeb (some s.natAbs))).evalBound 0 false

end Sys2Proof.Machine
end

