-- ==== Sys2Proof/Machine/Nv.lean ====
section
/-!
DEFINITION. Sys2Proof/Machine/Nv.lean: the NV array and its programs, records, the parameter store's write, the Scorecard ring,
minute cards, seals, the power-fail flush and acknowledgement (11 R283–R306).
-/

namespace Sys2Proof.Machine

/-! ### The array (11 R283). Addresses run from 0; a byte never programmed reads 0x00 (log 12). -/

/-- A byte of the array. -/
def memRead (a : Nat) : List Host.Cell → Byte
  | [] => 0
  | p :: t => if p.1 = a then p.2 else memRead a t

/-- The array without a byte. -/
def memDrop (a : Nat) (m : List Host.Cell) : List Host.Cell := m.filter (fun p => p.1 != a)

/-- Insert before the first greater address. -/
def memPut (a : Nat) (b : Byte) : List Host.Cell → List Host.Cell
  | [] => [(a, b)]
  | p :: t => if a < p.1 then (a, b) :: p :: t else p :: memPut a b t

/-- The array with a byte written. A byte equal to an unprogrammed one is not listed. -/
def memWrite (a : Nat) (b : Byte) (m : List Host.Cell) : List Host.Cell :=
  if b = 0 then memDrop a m else memPut a b (memDrop a m)

/-- The canonical form: addresses strictly rising, no byte equal to an unprogrammed one. -/
def Memory.wf : List Host.Cell → Bool
  | [] => true
  | [p] => p.2 != 0
  | p :: q :: t => p.2 != 0 && decide (p.1 < q.1) && Memory.wf (q :: t)

/-- A byte of the NV array, as a number. -/
def Chip.nvByte (c : Chip) (a : Nat) : Nat := (memRead a c.nv.cells).toNat

/-- A run of bytes of the NV array. -/
def Chip.nvBytes (c : Chip) (a n : Nat) : List Nat := (List.range n).map (fun i => c.nvByte (a + i))

/-- A byte of the NV array written. -/
def Chip.nvPut (c : Chip) (a v : Nat) : Chip := c.modNv (fun n => { n with cells := memWrite a (BitVec.ofNat 8 v) n.cells })

/-- The loaded bytes of a program take effect. -/
def Chip.nvLoad (c : Chip) (p : NvProg) : Chip := p.bytes.foldl (fun c b => c.nvPut (p.page * 256 + b.1) b.2) c

/-- A loaded byte of a group in progress at a failure: each bit independently old or new (11 R285). -/
def Chip.nvTorn (c : Chip) (a v : Nat) : Chip :=
  let r := c.draw
  let mask := r.1 % 256
  r.2.nvPut a (Nat.lor (Nat.land (c.nvByte a) mask) (Nat.land v (Nat.xor mask 255)))

/-- Power fails during the running program, when `done` of its loaded column groups are complete (11 R285). -/
def Chip.nvFail (c : Chip) (done : Nat) : Chip :=
  match c.nv.prog with
  | none => c
  | some p =>
    let groups := (List.range 4).filter (fun g => p.bytes.any (fun b => b.1 / 64 == g))
    let c := p.bytes.foldl (fun c b =>
      let pos := (groups.takeWhile (· != b.1 / 64)).length
      let a := p.page * 256 + b.1
      if pos < done then c.nvPut a b.2 else if pos = done then c.nvTorn a b.2 else c) c
    c.modNv (fun n => { n with prog := none })

/-! ### Records (11 R288–R290) -/

/-- Size of a record with a payload of `n` bytes. -/
def recordSize (n : Nat) : Nat := (n + 13 + 31) / 32 * 32

/-- The bytes of a record, COMMIT 0x00. -/
def recordImage (magic seq : Nat) (payload : List Nat) : List Nat :=
  let n := recordSize payload.length
  let body := toBytes 2 magic ++ toBytes 2 payload.length ++ toBytes 4 seq ++ payload
  let body := body ++ List.replicate (n - 5 - body.length) 0
  body ++ toBytes 4 (crc32 body) ++ [0]

/-- SEQ and payload of the record at an address, if valid for its region and slot size (11 R289). -/
def Chip.recordAt (c : Chip) (a magic slotSize : Nat) : Option (Nat × List Nat) :=
  let h := c.nvBytes a 8
  let l := ofBytes ((h.drop 2).take 2)
  let n := recordSize l
  if ofBytes (h.take 2) ≠ magic ∨ slotSize < n then none
  else
    let b := c.nvBytes a n
    if b.getLastD 0 = 0xA5 ∧ ofBytes ((b.drop (n - 5)).take 4) = crc32 (b.take (n - 5)) then
      some (ofBytes ((h.drop 4).take 4), (b.drop 8).take l)
    else none

/-- The record in use of a two-slot layout: slot, SEQ, payload, and whether equal SEQ conflict (11 R290). -/
def Chip.twoSlot (c : Chip) (a0 a1 magic slotSize : Nat) : Option (Nat × Nat × List Nat) × Bool :=
  match c.recordAt a0 magic slotSize, c.recordAt a1 magic slotSize with
  | some (s, p), some (t, q) => if s < t then (some (1, t, q), false) else (some (0, s, p), decide (s = t ∧ p ≠ q))
  | some (s, p), none => (some (0, s, p), false)
  | none, some (t, q) => (some (1, t, q), false)
  | none, none => (none, false)

/-- A record conflict is counted and raised (11 R290). -/
def Chip.recordConflict (c : Chip) (b : Bool) : Chip := c.iff b (fun c => (c.inc 0x8000 7).raise 10 0 0)

/-- The body programs of an image at an address, a page each, from a fuel. -/
def bodyPages (tag : Nat) : Nat → Nat → List Nat → List NvProg
  | 0, _, _ => []
  | fuel + 1, a, bs =>
    if bs = [] then []
    else
      let room := 256 - a % 256
      let now := bs.take room
      ⟨a / 256, (List.range now.length).zip now |>.map (fun p => (a % 256 + p.1, p.2)), 1, .recBody tag⟩ ::
        bodyPages tag fuel (a + room) (bs.drop room)

/-- The programs of a record: its body, page by page, then its commit (11 R289). -/
def recordPrograms (tag a : Nat) (image : List Nat) : List NvProg :=
  let e := a + image.length - 1
  bodyPages tag (image.length / 256 + 2) a image ++ [⟨e / 256, [(e % 256, 0xA5)], 1, .recCommit tag⟩]

/-! ### Serial numbers and the ring's status (11 R294, R304, R305) -/

/-- a is newer than b in serial arithmetic (11 R294). -/
def newer (a b : Nat) : Bool :=
  let d := wrapInt 32 ((a : Int) - (b : Int))
  1 ≤ d && d < 2 ^ 31

/-- ACK_SEQ. -/
def Chip.ackSeq (c : Chip) : Nat := c.rd 0x8102 1

/-- Base of the Scorecard ring in the array, and its slots (11 R287). -/
def ringBase : Nat := 0x1E000
def ringSlots : Nat := 28928

/-- Why seals are not signed now: no SGN, RETIRED, no identity key (11 R303). -/
def Chip.unsignedWhy (c : Chip) : Nat :=
  if !c.grade.sgn then 1 else if c.lifecycle = 3 then 2 else if c.sec.identity.isNone then 3 else 0

/-- The objects that show the ring, and F013 (11 R305). -/
def Chip.ringShow (c : Chip) : Chip :=
  let r := c.nv.ring
  let un := (r.filter (fun k => newer k.2.1 c.ackSeq)).length
  let near := decide (ringSlots < un + c.rd 0x8102 3)
  let c := (c.wr 0x8100 2 (((r.getLast?.map (fun k => k.2.1))).getD (c.rd 0x8100 2)))
  let c := c.wr 0x8100 3 ((r.head?.map (fun k => k.2.1)).getD 0)
  let c := (c.wr 0x8100 4 un).wr 0x8100 0x0B c.nv.slot
  let c := c.wr 0x8100 1 (2 * near.toNat + (c.unsignedWhy == 0).toNat)
  c.follow 13 0 0 near

/-! ### Cards (11 R294–R297) -/

/-- Bytes 0–30 of a card (11 R296). A seal card's TYPE above 7 carries the UNSIGNED marker. -/
def cardImage (k : Card) (seq : Nat) (head : Option (List Nat)) : List Nat :=
  let pay := if k.type ≤ 2 then
      (match head with
       | some h => (sha256 h).take 8
       | none => List.replicate 8 0) ++ toBytes 14 k.body
    else toBytes 22 k.body
  let b := [0xA0 + k.type % 16] ++ toBytes 4 seq ++ pay
  b ++ toBytes 4 (crc32 b)

/-- The images of a run of cards, and the chain head after them. -/
def cardImages : List Card → Nat → Option (List Nat) → List (List Nat) × Option (List Nat)
  | [], _, h => ([], h)
  | k :: t, seq, h =>
    let b := cardImage k seq h
    let r := cardImages t ((seq + 1) % 2 ^ 32) (if k.type ≤ 2 then some b else h)
    (b :: r.1, r.2)

/-- The body or commit program of a batch: the bytes it loads into its page (11 R289, R300). -/
def batchBytes (b : Batch) (commit : Bool) : List (Nat × Nat) :=
  ((List.range b.images.length).zip b.images).flatMap (fun p =>
    let o := (b.slot + p.1) % 8 * 32
    if commit then [(o + 31, 0xA5)]
    else ((List.range 32).zip (p.2 ++ [0])).map (fun q => (o + q.1, q.2)))

/-- The slots of a batch. -/
def Batch.slots (b : Batch) : List Nat := (List.range b.cards.length).map (fun i => (b.slot + i) % ringSlots)

/-- Starting a program. -/
def Chip.nvStart (c : Chip) (p : NvProg) : Chip :=
  let c := c.modNv (fun n => { n with prog := some p })
  (c.inc 0x8000 2).wrb 0x8000 1 0 true

/-- The page of a ring slot. -/
def slotPage (s : Nat) : Nat := (ringBase + 32 * s) / 256

/-- Unacknowledged valid cards of the page that the write pointer enters (11 R305). -/
def Chip.overwritten (c : Chip) : List Nat :=
  if c.nv.slot % 8 ≠ 0 ∨ c.nv.entered = some (c.nv.slot / 8) then []
  else (c.nv.ring.filter (fun k => k.1 / 8 == c.nv.slot / 8 && newer k.2.1 c.ackSeq)).map (fun k => k.2.1)

/-- Cards are composed for the page of the write pointer and their body program starts (11 R294, R300). -/
def Chip.batchStart (c : Chip) (ks : List Card) : Chip :=
  let n := c.nv
  let im := cardImages ks n.seq n.head
  let b : Batch := ⟨n.slot, n.seq, n.head, ks, im.1⟩
  let c := c.modNv (fun n => { n with
    batch := some b, slot := (n.slot + ks.length) % ringSlots, seq := (n.seq + ks.length) % 2 ^ 32, head := im.2 })
  c.nvStart ⟨slotPage b.slot, batchBytes b false, 1, .cardBody⟩

/-- Event cards composed by the record layer itself count in EVENTS of the minute (11 table "Minute card body"). -/
def Chip.cardsNoted (c : Chip) (n : Nat) : Chip := c.modMinute (fun m => { m with events := min 63 (m.events + n) })

/-- Room for cards in the page of the write pointer. -/
def Chip.pageRoom (c : Chip) : Nat := 8 - c.nv.slot % 8

/-- The write pointer enters a page with unacknowledged cards: they are counted, and an OVERWRITE card states their number
(11 R305). -/
def Chip.pageEnter (c : Chip) : List Card × Chip :=
  let lost := c.overwritten
  let c := c.modNv (fun n => { n with entered := some (n.slot / 8) })
  if lost.isEmpty then ([], c)
  else
    let c := c.iff (c.rd 0x8100 7 == 0) (fun c => c.wr 0x8100 8 (lost.headD 0))
    let c := ((c.incBy 0x8100 7 lost.length).raise 14 0 0).cardsNoted 1
    ([⟨2, eventBody 0x80 (lost.length * 2 ^ 20) c.time.seconds c.time.nanoseconds (c.tebNow 0)⟩], c)

/-- The queued cards that go into the next page program, with an OVERWRITE card first where the pointer enters a page with
unacknowledged cards (11 R305). A POWER_UP card stays the first after a start (11 R295). No card goes past the one after which a seal
falls due (11 R301, log 54). -/
def Chip.cardsStart (c : Chip) : Chip :=
  let isUp := match c.nv.cards with
    | k :: _ => k.type == 2 && field 111 104 k.body == 1
    | [] => false
  let (past, c) := c.pageEnter
  let all := if isUp then c.nv.cards.take 1 ++ past ++ c.nv.cards.drop 1 else past ++ c.nv.cards
  let ks := all.take (min c.pageRoom (max 1 (64 - c.rd 0x8100 6)))
  (c.modNv (fun n => { n with cards := all.drop ks.length })).batchStart ks

/-- The cards of a due seal that go into the next page program. They stand ahead of an OVERWRITE card for their page, since
their SEQ are consecutive (11 R301, R305). -/
def Chip.sealStart (c : Chip) : Chip :=
  let (past, c) := c.pageEnter
  let ks := c.nv.sealCards.take c.pageRoom
  (c.modNv (fun n => { n with sealCards := n.sealCards.drop ks.length, cards := past ++ n.cards })).batchStart ks

/-! ### Seals (11 R301–R303) -/

/-- The message a seal signs (11 R302). -/
def sealMessage (seqA seqS : Nat) (card : List Nat) : List Nat :=
  [0x53, 0x43, 0x53, 0x31] ++ toBytes 4 seqA ++ toBytes 4 seqS ++ sha256 card

/-- The three seal cards (11 table "Seal payloads"). -/
def sealTriple (why keyGen : Nat) (sig : List Nat) : List Card :=
  let m := if why = 0 then 0 else 8
  let f := if why = 0 then keyGen % 256 else why * 2 ^ 13
  [⟨3 + m, ofBytes (toBytes 2 f ++ sig.take 20)⟩, ⟨4 + m, ofBytes ((sig.drop 20).take 22)⟩, ⟨5 + m, ofBytes (sig.drop 42)⟩]

/-- A seal falls due: unsigned it is composed at once, signed it waits for the SGN (11 R301, R303). -/
def Chip.sealDue (c : Chip) : Chip :=
  if c.rd 0x8100 6 < 64 || c.nv.sealing || !c.nv.sealCards.isEmpty then c
  else
    let why := c.unsignedWhy
    if why ≠ 0 then c.modNv (fun n => { n with sealCards := sealTriple why 0 (List.replicate 64 0) })
    else c.modNv (fun n => { n with sealing := true })

/-- The SGN's signature arrives (11 R302). -/
def Chip.sealSigned (c : Chip) : Chip :=
  if !c.nv.sealing then c
  else
    match c.nv.head, c.sec.identity with
    | some h, some key =>
      let seqS := ofBytes ((h.drop 1).take 4)
      let sig := toBytes 64 (Config.ecdsaSign key (sealMessage c.nv.seq seqS h))
      c.modNv (fun n => { n with sealing := false, sealCards := sealTriple 0 (c.rd 0xB001 1) sig })
    | _, _ => c.modNv (fun n => { n with sealing := false })

/-- No signature within 20 ms (11 R303 reason 4). -/
def Chip.sealTimeout (c : Chip) : Chip :=
  if !c.nv.sealing then c
  else (c.modNv (fun n => { n with sealing := false, sealCards := sealTriple 4 0 (List.replicate 64 0) })).raise 15 0 0

/-! ### What runs next -/

/-- The next program when none runs: the flush alone while it lasts; then a due seal, queued cards, and record programs
(11 R291, R292, R301). Cards are held while a seal waits for its signature. -/
def Chip.nvNext (c : Chip) (cards : Bool) : Chip :=
  if c.nv.prog.isSome then c
  else if c.nv.flushing then
    if c.nv.flushCards.isEmpty then c
    else
      let (past, c) := c.pageEnter
      let ks := past ++ c.nv.flushCards
      (c.modNv (fun n => { n with flushCards := [], flushBegun := true })).batchStart ks
  else if !c.nv.sealCards.isEmpty then c.sealStart
  else if cards && !c.nv.sealing && !c.nv.cards.isEmpty && c.nv.scanned then c.cardsStart
  else
    match c.nv.queue, c.nv.weak with
    | p :: t, _ => (c.modNv (fun n => { n with queue := t })).nvStart p
    | [], page :: t =>
      let bs := (List.range 256).zip (c.nvBytes (page * 256) 256)
      ((c.modNv (fun n => { n with weak := t })).wrb 0x8000 1 1 true).nvStart ⟨page, bs, 1, .refresh⟩
    | [], [] => c

/-- A record is queued for writing; its programs start if none runs (11 R289). -/
def Chip.recordWrite (c : Chip) (tag a magic seq : Nat) (payload : List Nat) : Chip :=
  let ps := recordPrograms tag a (recordImage magic seq payload)
  (c.modNv (fun n => { n with queue := n.queue ++ ps })).nvNext false

/-! ### The parameter store's write (11 R291) -/

/-- Stored subindices whose last written value differs from the default: key and value. -/
def Chip.storedValues (c : Chip) : List (Nat × Nat) :=
  let all := c.objs.filter (fun p => (mget p.1 c.staged).isNone) ++ c.staged
  all.filter (fun p =>
    match rowOf (p.1 / 256) (p.1 % 256) with
    | some r => r.acc.stored && !(decide (0x1110 ≤ p.1 / 256) && decide (p.1 / 256 < 0x1130))
    | none => false)

/-- The payload of the parameter-store record: index, subindex, length and value of every stored value (log 20). -/
def Chip.storePayload (c : Chip) : List Nat :=
  c.storedValues.flatMap (fun p =>
    let n := match rowOf (p.1 / 256) (p.1 % 256) with
      | some r => r.bytes
      | none => 0
    toBytes 2 (p.1 / 256) ++ [p.1 % 256] ++ toBytes 2 n ++ toBytes n p.2)

/-- The values of a payload. -/
def storeParse : Nat → List Nat → List (Nat × Nat)
  | 0, _ => []
  | fuel + 1, i0 :: i1 :: s :: l0 :: l1 :: t =>
    let n := l0 * 256 + l1
    (okey (i0 * 256 + i1) s, ofBytes (t.take n)) :: storeParse fuel (t.drop n)
  | _, _ => []

/-- The addresses of the two slots of the parameter store, in the array. -/
def storeSlot (i : Nat) : Nat := if i = 0 then 0x5000 else 0xD000

/-- A store write starts (11 R290, R291). -/
def Chip.storeStart (c : Chip) : Chip :=
  let r := c.twoSlot (storeSlot 0) (storeSlot 1) 0x5053 32768
  let next : Nat × Nat := match r.1 with
    | some (slot, seq, _) => (1 - slot, (seq + 1) % 2 ^ 32)
    | none => (0, 1)
  let c := c.modNv (fun n => { n with
    storing := some next, storedAfter := false, saveAgain := false, lastStoreStart := some c.time.mono })
  c.recordWrite 0 (storeSlot next.1) 0x5053 next.2 c.storePayload

/-- The hold-off and the interval have passed (11 R291). -/
def Chip.storeTimer (c : Chip) : Chip :=
  if !c.rdb 0x8010 3 0 || c.nv.storing.isSome || c.nv.flushing || c.start.storeOff then c else c.storeStart

/-- SAVE (11 R291). During a flush it waits for the flush to end (11 R292). -/
def Chip.save (c : Chip) : Chip :=
  let c := { c with start := { c.start with storeOff := false } }
  if c.nv.flushing then c.modNv (fun n => { n with saveAgain := true })
  else if c.nv.storing.isSome then c.iff c.nv.storedAfter (fun c => c.modNv (fun n => { n with saveAgain := true }))
  else c.storeStart

/-- The store write ends, committed or not. -/
def Chip.storeDone (c : Chip) (ok : Bool) : Chip :=
  match c.nv.storing with
  | none => c
  | some (slot, seq) =>
    let again := c.nv.saveAgain
    let c := c.iff ok (fun c =>
      let c := ((c.wr 0x8010 1 slot).wr 0x8010 2 seq).inc 0x8010 7
      c.wr 0x8010 3 c.nv.storedAfter.toNat)
    let c := c.modNv (fun n => { n with storing := none, saveAgain := false })
    c.iff again Chip.storeStart

/-! ### Ends of programs (11 R284, R289, R294) -/

/-- A batch has committed: its cards are valid (11 R294, R301, R305). -/
def Chip.batchCommitted (c : Chip) : Chip :=
  match c.nv.batch with
  | none => c
  | some b =>
    let new := (List.range b.cards.length).zip b.cards |>.map (fun p =>
      ((b.slot + p.1) % ringSlots, (b.seq + p.1) % 2 ^ 32, p.2.type % 8))
    let c := c.modNv (fun n => { n with batch := none, ring := n.ring ++ new })
    let c := new.foldl (fun c k =>
      if k.2.2 ≤ 2 then c.wr 0x8100 6 (min 255 (c.rd 0x8100 6 + 1))
      else if k.2.2 = 5 then (c.wr 0x8100 5 (wrapInt 32 ((k.2.1 : Int) - 2))).wr 0x8100 6 0 else c) c
    c.ringShow.sealDue

/-- The card in a slot, if valid: SEQ and TYPE (11 R296). -/
def Chip.cardAt (c : Chip) (slot : Nat) : Option (Nat × Nat) :=
  let b := c.nvBytes (ringBase + 32 * slot) 32
  let code := b.headD 0
  if [0xA1, 0xA2, 0xA3, 0xA4, 0xA5, 0xAB, 0xAC, 0xAD].contains code && b.getLastD 0 == 0xA5 &&
      ofBytes ((b.drop 27).take 4) == crc32 (b.take 27) then some (ofBytes ((b.drop 1).take 4), code % 8)
  else none

/-- A batch's body has failed: its cards go to the next slots with the same SEQ, and each slot is named by a card (11 R294). A card
that its slots held stays in the ring only if it is still valid. -/
def Chip.batchFailed (c : Chip) : Chip :=
  match c.nv.batch with
  | none => c
  | some b =>
    let marks : List Card := (List.range b.cards.length).map (fun i =>
      ⟨2, eventBody 0x83 ((b.slot + i) % ringSlots) c.time.seconds c.time.nanoseconds (c.tebNow 0)⟩)
    let seals := b.cards.all (fun k => 2 < k.type)
    let c := c.cardsNoted marks.length
    c.modNv (fun n => { n with
      batch := none, seq := b.seq, head := b.head,
      ring := n.ring.filter (fun k => !b.slots.contains k.1 || c.cardAt k.1 == some k.2)
      sealCards := if seals then b.cards ++ n.sealCards else n.sealCards,
      cards := (if seals then [] else b.cards) ++ marks ++ n.cards })

/-- The running program has verified. -/
def Chip.nvVerified (c : Chip) (p : NvProg) : Chip :=
  let c := (c.nvLoad p).modNv (fun n => { n with prog := none })
  let c := c.wrb 0x8000 1 0 false
  match p.why with
  | .cardBody =>
    match c.nv.batch with
    | none => c.nvNext true
    | some b =>
      let c := c.modNv (fun n => { n with ring := n.ring.filter (fun k => !b.slots.contains k.1) })
      c.nvStart ⟨p.page, batchBytes b true, 1, .cardCommit⟩
  | .cardCommit => c.batchCommitted.nvNext true
  | .refresh => (c.wrb 0x8000 1 1 false).nvNext true
  | .recBody _ => c.nvNext true
  | .recCommit 0 => (c.storeDone true).nvNext true
  | .recCommit t => (c.modNv (fun n => { n with committed := n.committed ++ [t] })).nvNext true

/-- A record's programs still queued are not started (11 R289). -/
def dropTag (t : Nat) (q : List NvProg) : List NvProg := q.filter (fun p => p.why != .recBody t && p.why != .recCommit t)

/-- The running program has failed three times: its bytes are undefined, and the record layer handles it (11 R284, R289). -/
def Chip.nvGaveUp (c : Chip) (p : NvProg) : Chip :=
  let c := p.bytes.foldl (fun c b => c.nvTorn (p.page * 256 + b.1) b.2) c
  let c := (c.modNv (fun n => { n with prog := none })).wrb 0x8000 1 0 false
  let c := (c.inc 0x8000 4).raise 8 0 p.page
  match p.why with
  | .cardBody => c.batchFailed.nvNext true
  | .cardCommit => c.batchFailed.nvNext true
  | .refresh => (c.wrb 0x8000 1 1 false).nvNext true
  | .recBody t | .recCommit t =>
    let c := c.modNv (fun n => { n with queue := dropTag t n.queue })
    let c := if t = 0 then c.storeDone false else c.modNv (fun n => { n with failed := n.failed ++ [t] })
    c.nvNext true

/-- A program ends with its verify step (11 R284). -/
def Chip.nvComplete (c : Chip) (verified : Bool) : Chip :=
  match c.nv.prog with
  | none => c
  | some p =>
    if verified then c.nvVerified p
    else if p.attempt < 3 then
      (c.inc 0x8000 3).modNv (fun n => { n with prog := some { p with attempt := p.attempt + 1 } })
    else c.nvGaveUp p

/-- A page read at margin; a weak page is programmed again with its own content, as soon as the controller is free (11 R286). -/
def Chip.nvRefresh (c : Chip) (page : Nat) (weak : Bool) : Chip :=
  if !weak then c.testPass 2
  else
    let period := c.rd 0x8000 8 * 86400 * 1000000000 * nsUnit
    let again := c.nv.rewritten.any (fun x => x.1 == page && decide (c.time.mono < x.2 + period))
    let c := (c.inc 0x8000 5).iff again (fun c => (c.inc 0x8000 6).raise 9 0 page)
    let c := c.modNv (fun n => { n with
      rewritten := (page, c.time.mono) :: n.rewritten.filter (fun x => x.1 != page), weak := n.weak.filter (· != page) ++ [page] })
    (c.iff again (fun c => c.testFail 2)).nvNext true

/-- The Steward writes queued cards (11 R294). -/
def Chip.cardWrite (c : Chip) : Chip := c.nvNext true

/-! ### The scan at a start (11 R295) -/

/-- Slots that hold any programmed byte. -/
def Chip.usedSlots (c : Chip) : List Nat :=
  (c.nv.cells.filter (fun p => decide (ringBase ≤ p.1))).foldl (fun l p =>
    let s := (p.1 - ringBase) / 32
    if l.head? = some s then l else s :: l) [] |>.reverse

/-- Insert a card in SEQ order, oldest first. -/
def ringInsert (k : Nat × Nat × Nat) : List (Nat × Nat × Nat) → List (Nat × Nat × Nat)
  | [] => [k]
  | x :: t => if newer x.2.1 k.2.1 then k :: x :: t else x :: ringInsert k t

/-- The newest complete seal: SEQ of its SEAL_A (11 R301). -/
def lastSeal : List (Nat × Nat × Nat) → Option Nat
  | a :: b :: d :: t =>
    match lastSeal (b :: d :: t) with
    | some s => some s
    | none => if a.2.2 = 3 ∧ b.2.2 = 4 ∧ d.2.2 = 5 ∧ d.2.1 = (a.2.1 + 2) % 2 ^ 32 then some a.2.1 else none
  | _ => none

/-- Bytes 0–30 of the card in a slot. -/
def Chip.cardHead (c : Chip) (slot : Nat) : List Nat := c.nvBytes (ringBase + 32 * slot) 31

/-- Low 24 bits of the newest ACK card, resolved against the card's own SEQ (11 R304). -/
def Chip.ackOf (c : Chip) (k : Nat × Nat × Nat) : Option Nat :=
  let body := ofBytes (((c.cardHead k.1).drop 13).take 14)
  if k.2.2 = 2 ∧ field 111 104 body = 0x82 then
    let low := field 103 80 body
    some (wrapInt 32 ((k.2.1 : Int) - (((k.2.1 : Int) - low) % 2 ^ 24)))
  else none

/-- Every slot is read: write pointer, chain head, seal and acknowledgement (11 R295). -/
def Chip.ringScan (c : Chip) : Chip :=
  let ring := c.usedSlots.foldl (fun r s =>
    match c.cardAt s with
    | some (q, t) => ringInsert (s, q, t) r
    | none => r) []
  let c := c.modNv (fun n => { n with scanned := true, batch := none, sealing := false, sealCards := [], entered := none, ring := ring })
  match ring.getLast? with
  | none =>
    let c := c.modNv (fun n => { n with slot := 0, seq := 0, head := none })
    let c := (((c.wr 0x8102 1 0xFFFFFFFF).wr 0x8100 5 0).wr 0x8100 6 0).ringShow
    c.iff (c.lifecycle != 0) (fun c => c.raise 11 0 0)
  | some k =>
    let chained := ring.filter (fun x => decide (x.2.2 ≤ 2))
    let head := chained.getLast?.map (fun x => c.cardHead x.1)
    let lastS := lastSeal ring
    let since := match lastS with
      | some s => (chained.filter (fun x => newer x.2.1 s)).length
      | none => chained.length
    let acks := ring.filterMap c.ackOf
    let first := (ring.head?.map (fun x => x.2.1)).getD 0
    let ack := acks.getLast?.getD (wrapInt 32 ((first : Int) - 1))
    let c := c.modNv (fun n => { n with slot := (k.1 + 1) % ringSlots, seq := (k.2.1 + 1) % 2 ^ 32, head := head })
    ((((c.wr 0x8102 1 ack).wr 0x8100 5 (lastS.getD 0)).wr 0x8100 6 (min 255 since)).ringShow).sealDue

/-! ### Minutes (11 R298, 05 R145) -/

/-- WORST_PHASE (11 table "Minute card body"). -/
def worstPhaseCode (v : Option Nat) : Nat :=
  match v with
  | none => 15 * 256
  | some p =>
    match encodeBound 255 14 p with
    | some (e, m) => e * 256 + m
    | none => 15 * 256 + 1

/-- TEMP_MIN and TEMP_MAX of a temperature in 0.01 °C (11 table "Minute card body"). -/
def tempMinCode (t : Option Int) : Nat :=
  match t with
  | none => 0x7F
  | some v => wrapInt 8 (max (-128) (min (Int.fdiv v 100) 126))
def tempMaxCode (t : Option Int) : Nat :=
  match t with
  | none => 0x80
  | some v => wrapInt 8 (max (-127) (min (-(Int.fdiv (-v) 100)) 127))

/-- TC0's phase source as a card names it. -/
def Chip.minuteCand (c : Chip) : Nat := if c.selPhase 0 < 28 then c.selPhase 0 else 31

/-- The body of a minute card. -/
def minuteBody (m : Minute) (events cand minute : Nat) : Nat :=
  let worst := if m.unknown then 0x3FFFF else encodeTeb m.worst
  minute % 2 ^ 30 * 2 ^ 82 + min 60 m.locked * 2 ^ 76 + min 60 m.acquire * 2 ^ 70 + min 60 m.holdover * 2 ^ 64 +
    min 60 m.freerun * 2 ^ 58 + worst * 2 ^ 40 + worstPhaseCode m.worstPhase * 2 ^ 28 + tempMinCode m.tMin * 2 ^ 20 +
    tempMaxCode m.tMax * 2 ^ 12 + min 63 events * 2 ^ 6 + m.switched.toNat * 2 ^ 5 + cand

/-- A card for a minute: a SUPPRESSED card before it if events of the minute were suppressed (11 R298, R300). -/
def Chip.minuteCard (c : Chip) (m : Minute) (cand minute : Nat) : Chip :=
  let c := c.iff (m.suppressed != 0) (fun c => c.post 0x81 (min m.suppressed (2 ^ 24 - 1)))
  let body := minuteBody m c.nv.minute.events cand minute
  let c := c.wr 0x3030 0x0A (field 57 40 body)
  (c.modNv (fun n => { n with cards := n.cards ++ [⟨1, body⟩] })).modMinute (fun x => { x with events := 0 })

/-- F012 follows each suppressed event (11 R300). -/
def Chip.suppressWatch (c : Chip) : Chip :=
  let n := c.nv.minute.suppressed
  if n ≤ c.nv.told then c
  else ((c.incBy 0x8100 9 (n - c.nv.told)).modNv (fun v => { v with told := n })).raise 12 0 0

/-- The next accumulation starts, with the bound of now. -/
def Chip.minuteStart (c : Chip) : Chip :=
  let c := c.suppressWatch
  let b := c.bound
  c.modNv (fun n => { n with
    told := 0, minute := { (default : Minute) with worst := b, unknown := b.isNone, events := n.minute.events } })

/-- The whole second at which a minute starts ends the running one, whose card follows after 20 ms (11 R298). -/
def Chip.minuteTurn (c : Chip) : Chip :=
  if c.time.seconds % 60 ≠ 0 ∨ c.time.seconds = 0 then c
  else
    let c := c.suppressWatch
    (c.modNv (fun n => { n with ended := some (n.minute, c.minuteCand) })).minuteStart

/-- The card of a minute that has ended is queued. -/
def Chip.endedClose (c : Chip) (minute : Nat) : Chip :=
  match c.nv.ended with
  | some (m, cand) => (c.modNv (fun n => { n with ended := none })).minuteCard m cand minute
  | none => c

/-- The running minute is closed at a step's tick, a minute still waiting for its card before it (11 R298). -/
def Chip.minuteClose (c : Chip) (minute : Nat) : Chip :=
  let c := (c.endedClose (minute - 1)).suppressWatch
  let m := c.nv.minute
  (c.minuteStart).minuteCard m c.minuteCand minute

/-- 20 ms into the next minute: the card of the minute that ended, or, where no whole second told its end, of the running
accumulation. -/
def Chip.minuteTimer (c : Chip) : Chip :=
  let minute := (c.time.seconds + 60 * 2 ^ 48 - 60) / 60
  if c.nv.ended.isSome then c.endedClose minute else c.minuteClose minute

/-! ### The flush (11 R292) -/

/-- The flush starts: the POWER_FAIL card with the queued cards that fit in the page; the rest are dropped. -/
def Chip.flushStart (c : Chip) (monitor : Bool) : Chip :=
  if c.nv.flushing then c
  else
    let body := match c.nv.prog with
      | some p => p.why == NvWhy.cardBody
      | none => false
    let c := c.modNv (fun n => match n.batch, body with
      | some b, true => { n with
          batch := none, slot := b.slot, seq := b.seq, head := b.head,
          ring := n.ring.filter (fun k => !(b.slots.contains k.1)),
          cards := (b.cards.filter (fun k => decide (k.type ≤ 2))) ++ n.cards }
      | _, _ => n)
    let (past, rest) := c.nv.cards.partition (fun k => k.type == 2 && field 111 104 k.body == 0x80)
    let keep := rest.take (c.pageRoom - past.length - (if c.overwritten.isEmpty then 1 else 2))
    let dropped := rest.length - keep.length
    let fail : Card := ⟨2, eventBody 0x02 (monitor.toNat * 2 ^ 23 + min dropped 255) c.time.seconds c.time.nanoseconds (c.tebNow 0)⟩
    let c := c.cardsNoted 1
    let wasStoring := c.nv.storing.isSome
    let commit := match c.nv.prog with
      | some p => match p.why with
        | .recCommit _ => true
        | _ => false
      | none => false
    let c := c.modNv (fun n => { n with
      flushing := true, flushBegun := false, flushCards := past ++ fail :: keep, cards := [], queue := [], sealing := false,
      sealCards := [], storing := if wasStoring && !commit then none else n.storing })
    c.nvNext false

/-- PWR_FAIL_N is released and VDD_MAST never fell away: POWER_RESTORED is carded and normal writing resumes (11 R292). -/
def Chip.flushEnd (c : Chip) : Chip :=
  if !c.nv.flushing then c
  else
    let c := c.modNv (fun n => { n with flushing := false, cards := n.flushCards ++ n.cards, flushCards := [] })
    let c := ((c.post 0x03 0).sealDue).nvNext true
    c.iff (c.nv.saveAgain && c.nv.storing.isNone) Chip.storeStart

/-! ### Acknowledgement and reading (11 R304, R306) -/

/-- ACK_SEQ is written with an accepted value. -/
def Chip.ackWrite (c : Chip) (seq : Nat) : Chip := ((c.wr 0x8102 1 seq).ringShow).post 0x82 (seq % 2 ^ 24)

/-- The value is the same as or newer than ACK_SEQ and no newer than NEWEST_SEQ. -/
def Chip.ackOk (c : Chip) (seq : Nat) : Bool :=
  (seq == c.ackSeq || newer seq c.ackSeq) && (seq == c.rd 0x8100 2 || newer (c.rd 0x8100 2) seq)

/-- The bytes of CARDS (11 R306). -/
def Chip.cardsRead (c : Chip) : List Nat :=
  let from_ := c.rd 0x8101 1
  let ks := c.nv.ring.filter (fun k => !newer from_ k.2.1)
  (ks.take (c.rd 0x8101 2)).flatMap (fun k => c.nvBytes (ringBase + 32 * k.1) 32)

end Sys2Proof.Machine
end

