-- ==== Sys2Proof/Machine/Synth.lean ====
section
/-!
DEFINITION. Sys2Proof/Machine/Synth.lean: the synthesis part: frequency plans, the core APLL, groups and their hops, the band
cache, lock, squelch, fences, synchronisation, ramps and spreads, formats and banks (06 R146–R175).
-/

namespace Sys2Proof.Machine

def Chip.modSynth (c : Chip) (f : SynthUnit → SynthUnit) : Chip := { c with synth := f c.synth }
def Chip.grp (c : Chip) (g : Nat) : Group := nth c.synth.groups g default
def Chip.modGrp (c : Chip) (g : Nat) (f : Group → Group) : Chip :=
  c.modSynth (fun u => { u with groups := modNth u.groups g f })
def Chip.outp (c : Chip) (k : Nat) : Outp := nth c.synth.outs k default
def Chip.modOut (c : Chip) (k : Nat) (f : Outp → Outp) : Chip :=
  c.modSynth (fun u => { u with outs := modNth u.outs k f })
def Chip.modApll (c : Chip) (f : Apll → Apll) : Chip := c.modSynth (fun u => { u with apll := f u.apll })

/-- The value last written to a staged subindex: the staged one, else the active one (06 R147). -/
def Chip.rdStaged (c : Chip) (idx sub : Nat) : Nat := (mget (okey idx sub) c.staged).getD (c.rd idx sub)

/-- STATE of a group (06 R153): 0 OFF, 1 SEARCH, 2 LOCKING, 3 LOCKED, 4 UNLOCKED. -/
def Chip.gState (c : Chip) (g : Nat) : Nat := c.rdf (0x4018 + g) 1 2 0
/-- UNLOCK_REASON: 1 LOCK, 2 APLL. -/
def Chip.gReason (c : Chip) (g : Nat) : Nat := c.rdf (0x4018 + g) 1 5 4
/-- Core APLL LOCKED (06 R149). -/
def Chip.apllLocked (c : Chip) : Bool := c.rdb 0x4001 2 8
/-- FORMAT of an output, and whether it is not an off format. -/
def Chip.format (c : Chip) (k : Nat) : Nat := c.rd (0x4100 + k) 1
def Chip.outOn (c : Chip) (k : Nat) : Bool := decide (2 ≤ c.format k)
/-- OUT_SOURCE: the TTU an output follows, if any (07 R197). -/
def Chip.ttuOf (c : Chip) (k : Nat) : Option Nat :=
  let s := c.rd 0x7011 (k + 1)
  if s < 8 then some s else none
/-- The two outputs of a group. -/
def outsOf (g : Nat) : List Nat := [2 * g, 2 * g + 1]

/-! ### Plans (06 R146, R147, R161, R163) -/

/-- A plan: f_G in mHz, MULT as written, FENCE_FREQ in Hz, and the two dividers. -/
structure Plan where
  freq : Nat
  mult : Nat
  fence : Nat
  div0 : Nat
  div1 : Nat
  deriving DecidableEq, Repr

/-- The active plan of a group, and the staged one. -/
def Chip.activePlan (c : Chip) (g : Nat) : Plan :=
  ⟨c.rd (0x4010 + g) 2, c.rd (0x4010 + g) 3, c.rd (0x4010 + g) 8, c.rd (0x4100 + 2 * g) 4, c.rd (0x4101 + 2 * g) 4⟩
def Chip.stagedPlan (c : Chip) (g : Nat) : Plan :=
  ⟨c.rdStaged (0x4010 + g) 2, c.rdStaged (0x4010 + g) 3, c.rdStaged (0x4010 + g) 8, c.rdStaged (0x4100 + 2 * g) 4,
    c.rdStaged (0x4101 + 2 * g) 4⟩

/-- M: as written, or max(4, ceil(f_G / 400 MHz)) (06 R146). -/
def Plan.m (p : Plan) : Nat := if p.mult = 0 then max 4 (ceilDiv p.freq 400000000000) else p.mult
/-- The divider of an output. -/
def Plan.div (p : Plan) (k : Nat) : Nat := if k % 2 = 0 then p.div0 else p.div1
/-- Nominal frequency of an output's divider, in Hz. -/
def Plan.hz (p : Plan) (k : Nat) : Rat := (p.freq : Rat) / 1000 / p.div k

/-- A format is within its frequencies at a nominal frequency (06 R146). -/
def formatHz (format : Nat) (f : Rat) : Bool :=
  decide (format < 2) || (decide (1 ≤ f) && decide (f ≤ if format = 5 then 250000000 else 1600000000))

/-- A plan is valid under R146. -/
def Chip.planValid (c : Chip) (g : Nat) (p : Plan) : Bool :=
  let fs : Rat := (p.freq : Rat) / p.m
  decide (1000000000000 ≤ p.freq) && decide (p.freq ≤ 3200000000000) && decide (4 ≤ p.m) && decide (p.m ≤ 32) &&
    decide ((50000000000 : Rat) ≤ fs) && decide (fs ≤ 400000000000) &&
    (outsOf g).all (fun k => formatHz (c.format k) (p.hz k))

/-- The frequency an output counts with for its fence: of its divider, or of its TTU (06 R161, 07 R197). -/
def Chip.countHz (c : Chip) (p : Plan) (k : Nat) : Rat :=
  match c.ttuOf k with
  | none => p.hz k
  | some u =>
    let w := c.rd (0x7000 + u) 5
    let short := min w (c.rd (0x7000 + u) 4 - w)
    if short = 0 then 0 else 1000000000000 / (2 * short : Nat)

/-- DELTA of a segment of a profile, in ppb, and its DURATION in 8 ns units (06 0x4210). -/
def Chip.segDelta (c : Chip) (p s : Nat) : Int := sext 32 (c.rd (0x4210 + p) s)
def Chip.segDur (c : Chip) (p s : Nat) : Nat := c.rdf (0x4210 + p) s 63 32

/-- The largest positive offset of a profile, in ppb. -/
def Chip.profileMax (c : Chip) (p : Nat) : Nat :=
  (List.range (c.rd (0x4200 + p) 1)).foldl (fun a i => max a (c.segDelta p (i + 1)).toNat) 0

/-- The largest positive offset of a spread, in ppb. -/
def spreadMax (mode depth : Nat) : Nat := if mode = 2 then depth * 100000 else 0

/-- r_max of what is set for the group (06 R161), as a fraction. -/
def Chip.rMax (c : Chip) (g : Nat) : Rat :=
  let s := spreadMax (c.rd (0x4010 + g) 0x0D) (c.rd (0x4010 + g) 0x0E)
  let p := c.rd (0x4010 + g) 0x0B
  (max s (if p < 8 then c.profileMax p else 0) : Nat) / 1000000000

/-- The highest counted frequency among the group's outputs that are on, in Hz; none when all are off. -/
def Chip.fMax (c : Chip) (g : Nat) (p : Plan) : Option Rat :=
  match (outsOf g).filter c.outOn with
  | [] => none
  | l => some (l.foldl (fun a k => max a (c.countHz p k)) 0)

/-- F of a plan, in Hz (06 R161). -/
def Chip.fenceHz (c : Chip) (g : Nat) (p : Plan) : Rat :=
  if p.fence ≠ 0 then p.fence
  else
    match c.fMax g p with
    | none => 1600000000
    | some f => min 1760000000 (f * (11 / 10) * (1 + c.rMax g))

/-- The fence rule of R163 for a plan under an offset. -/
def Chip.fenceRule (c : Chip) (g : Nat) (p : Plan) (r : Rat) : Bool :=
  p.fence == 0 ||
    (decide (p.fence ≤ 1760000000) && decide ((c.fMax g p).getD 0 * (101 / 100) * (1 + r) ≤ p.fence))

/-- The active plan still keeps the fence rule. -/
def Chip.fenceOk (c : Chip) (g : Nat) : Bool := c.fenceRule g (c.activePlan g) (c.rMax g)

/-- The group is a timing group (06 R169). -/
def Chip.timingGroup (c : Chip) (g : Nat) : Bool :=
  g == 0 || (outsOf g).any (fun k => c.rdb (0x4100 + k) 7 0) ||
    (List.range c.grade.ports).any (fun p => c.rdb (0x5000 + p) 1 0 && c.rd (0x5000 + p) 6 == g)

/-- The nominal output period in ps, for the active divider. -/
def Chip.outPeriod (c : Chip) (k : Nat) : Rat := 1000000000000 / (c.activePlan (k / 2)).hz k

/-- PHASE_ADJ is within −T_out/2 to +T_out/2 − 1 (06 R168). -/
def Chip.adjOk (c : Chip) (k : Nat) (ps : Int) : Bool :=
  let h := c.outPeriod k / 2
  decide (-h ≤ (ps : Rat)) && decide ((ps : Rat) ≤ h - 1)

/-- An offset reduced modulo T_out into the range (06 R168). -/
def Chip.adjReduce (c : Chip) (k : Nat) (ps : Int) : Int :=
  if c.adjOk k ps then ps
  else
    let t := c.outPeriod k
    let x : Rat := ps
    let y := (x - t * ((x / t + 1 / 2).floor : Rat)).floor
    let h := t / 2
    if (y : Rat) < -h then y + 1 else if h - 1 < (y : Rat) then (h - 1).floor else y

/-! ### Read-outs -/

/-- The steered divider's exact ratio N (06 R151), for a word w and an offset r, both as fractions. -/
def Chip.steerRatio (c : Chip) (g : Nat) (w r : Rat) : Rat :=
  let p := c.activePlan g
  (c.rd 0x4001 1 : Rat) * 1000000 * p.m / (p.freq * (1 + w) * (1 + r))

/-- Whole 8 ns steps of the running piece of a group's ramp: r is updated every 8 ns (06 R151). -/
def Chip.rampSteps (c : Chip) (g : Nat) : Nat :=
  let x := (c.grp g).ramp
  (x.frozen.getD c.time.mono - x.since) / (8 * nsUnit)

/-- Steps in a period of the triangle: 1/SSC_RATE rounded to 8 ns (06 R171). -/
def Chip.sscSteps (c : Chip) (g : Nat) : Nat :=
  ((1000000000 / (8 * c.rd (0x4010 + g) 0x0F : Nat) : Rat) + 1 / 2).floor.toNat

/-- The triangle at a step of its period (06 R171): down-spread between 0 and −depth, centre-spread between +depth and −depth, downward
from 0. -/
def triangle (mode : Nat) (depth : Rat) (period step : Nat) : Rat :=
  let ph : Rat := if period = 0 then 0 else (step % period : Nat) / (period : Rat)
  if mode = 1 then
    if ph < 1 / 2 then -(2 * ph * depth) else -(2 * (1 - ph) * depth)
  else if ph < 1 / 4 then -(4 * ph * depth)
  else if ph < 3 / 4 then -depth + 4 * (ph - 1 / 4) * depth
  else depth - 4 * (ph - 3 / 4) * depth

/-- SSC_DEPTH in ppb. -/
def Chip.sscDepth (c : Chip) (g : Nat) : Rat := (c.rd (0x4010 + g) 0x0E : Rat) * 100000

/-- Steps after which the return to 0, at 10,000,000 ppb per ms, has ended (06 R170). -/
def zeroSteps (start : Rat) : Nat := ratCeil (ratAbs start / 80)

/-- The change of r in a step of the return to 0, in ppb. -/
def zeroSlope (start : Rat) : Rat := if 0 < start then -80 else 80

/-- r of a group after a number of steps of the running piece, in ppb (06 R170, R171). -/
def Chip.rampAt (c : Chip) (g n : Nat) : Rat :=
  let x := (c.grp g).ramp
  match x.kind with
  | .held => x.start
  | .profile =>
    let d : Rat := c.segDelta x.prof x.seg
    let len := c.segDur x.prof x.seg
    if len ≤ n then d else x.start + (d - x.start) * (n : Rat) / len
  | .zero => if zeroSteps x.start ≤ n then 0 else x.start + zeroSlope x.start * n
  | .spread => triangle x.mode (c.sscDepth g) (c.sscSteps g) n

/-- r of a group now, in ppb (06 R170, R171). -/
def Chip.rampNow (c : Chip) (g : Nat) : Rat := c.rampAt g (c.rampSteps g)

/-- The sum of `n` values that start at `a` and rise by `s`. -/
def sumLin (a s : Rat) (n : Nat) : Rat := n * a + s * ((n * (n - 1) / 2 : Nat) : Rat)

/-- The sum of r over the first `n` steps of the running piece, in ppb. -/
def Chip.rampSum (c : Chip) (g n : Nat) : Rat :=
  let x := (c.grp g).ramp
  match x.kind with
  | .held => n * x.start
  | .profile =>
    let d : Rat := c.segDelta x.prof x.seg
    let len := c.segDur x.prof x.seg
    let m := min n len
    sumLin x.start ((d - x.start) / len) m + ((n - m : Nat) : Rat) * d
  | .zero => sumLin x.start (zeroSlope x.start) (min n (zeroSteps x.start))
  | .spread =>
    let p := c.sscSteps g
    let part (m : Nat) : Rat := (List.range m).foldl (fun (a : Rat) (i : Nat) => a + triangle x.mode (c.sscDepth g) p i) 0
    ((n / p : Nat) : Rat) * part p + part (n % p)

/-- Phase, in ps, that the running piece of the ramp has added so far: 8 ns at each value of r, and r as it stood while frozen. -/
def Chip.rampGain (c : Chip) (g : Nat) : Rat :=
  let n := c.rampSteps g
  let frozen := match (c.grp g).ramp.frozen with
    | some t => (c.time.mono - t) / (8 * nsUnit)
    | none => 0
  (c.rampSum g n + (frozen : Rat) * c.rampAt g n) * 8 / 1000000

/-- The ramp generator takes up something else: the phase it has added is kept. -/
def Chip.setRamp (c : Chip) (g : Nat) (r : Ramp) : Chip :=
  let add := c.rampGain g
  c.modGrp g (fun x => { x with gain := x.gain + add, ramp := r })

/-- The ramp generator holds r at a value. -/
def Chip.holdRamp (c : Chip) (g : Nat) (r : Rat) : Chip :=
  c.setRamp g { (default : Ramp) with start := r, since := c.time.mono }

/-- A profile or a spread is set running on the group (06 R170, R171). -/
def Chip.rampRuns (c : Chip) (g : Nat) : Bool := (c.grp g).ramp.kind == .profile
def Chip.sscOn (c : Chip) (g : Nat) : Bool := (c.grp g).ramp.kind == .spread

/-- The objects that show a group's plan take the active one (06 0x4018, 0x4100:0A, OUT_TRIM). -/
def Chip.showPlan (c : Chip) (g : Nat) : Chip :=
  let p := c.activePlan g
  let c := (c.wr (0x4018 + g) 2 p.freq).wr (0x4018 + g) 3 p.m
  let c := c.wr (0x4018 + g) 4 (if p.m = 0 then 0 else p.freq / p.m)
  c.overAll (outsOf g) (fun k c => c.wr (0x4100 + k) 0x0A (if p.div k = 0 then 0 else p.freq / p.div k))

/-- The flags of a group's status, and its fence (06 0x4018:01, :07, :08). -/
def Chip.showGroup (c : Chip) (g : Nat) : Chip :=
  let differs := c.stagedPlan g != c.activePlan g
  let s := c.gState g
  let fence := s == 1 || s == 2 || s == 4 || (s == 3 && (c.grp g).fenceHeld)
  let v := differs.toNat * 1024 + (c.timingGroup g).toNat * 512 + (c.sscOn g).toNat * 256 + (c.rampRuns g).toNat * 128 +
    fence.toNat * 64 + c.gReason g * 16 + s
  let c := c.wr (0x4018 + g) 1 v
  c.wr (0x4018 + g) 8 (c.fenceHz g (c.activePlan g)).floor.toNat

/-! ### The steered divider and the group's phase (06 R146, R151, R152, R165, R166) -/

/-- The word a group's divider runs on, as a fraction: its channel's, with the slew's feed-forward (06 R151, R152, 04 R110). -/
def Chip.groupWord (c : Chip) (g : Nat) : Rat := wordRatio (c.chan g).w - (c.chan g).feed

/-- The actual frequency of an output, in Hz, at an actual frequency of the LO (06 R146). -/
def Chip.outHz (c : Chip) (k : Nat) (fLo : Rat) : Rat :=
  let g := k / 2
  (c.activePlan g).hz k * (1 + c.groupWord g) * (1 + c.rampNow g / 1000000000) * fLo / c.nominal

/-- The divider takes a new ratio where the word, r or the plan has changed; the rounding residue of the steered edges since the last
change is carried forward (06 R151). -/
def Chip.dividerWatch (c : Chip) (g : Nat) : Chip :=
  let x := c.grp g
  let unit : Rat := 281474976710656
  let want := c.steerRatio g (c.groupWord g) (c.rampNow g / 1000000000) * unit
  if !c.awake .synth || x.exact = want then c
  else
    let apll : Rat := (c.rd 0x4001 1 : Rat) * 1000
    let edges : Rat := (((c.time.ticks - x.ratioAt : Nat) : Rat) / c.nominal * apll * unit / x.exact).floor
    let fract (y : Rat) : Rat := y - y.floor
    let y := want + fract (x.residue + edges * fract x.exact)
    c.modGrp g (fun x => { x with exact := want, ratio := y.floor.toNat, residue := fract y, ratioAt := c.time.ticks })

/-- The LO's own time in ps. -/
def Chip.loPs (c : Chip) : Rat := (c.time.ticks : Rat) * 1000000000000 / c.nominal

/-- The phase accumulator of a group's divider, in ps: the LO's time, what the channel's word has added, and what r has (06 R152). -/
def Chip.groupPhase (c : Chip) (g : Nat) : Rat := c.loPs + c.accNow g + (c.grp g).gain + c.rampGain g

/-- The period of the group's epoch in ps: 1 s for G0, for the others the detection period of TCg's candidate, or of its last one; none
where it never had one (06 R166). -/
def Chip.epochPeriod (c : Chip) (g : Nat) : Option Rat :=
  if g = 0 then some 1000000000000
  else
    let p := c.selPhase g
    if p < 28 then some (c.periodPs p) else (c.chan g).lastPick.map c.periodPs

/-- Where the group's epoch lies on its accumulator, in ps (06 R166): whole seconds of the time counter for G0, for the others the
expected instants of the channel; with the measurement clock stopped, they go on from where they lay. -/
def Chip.epochAt (c : Chip) (g : Nat) : Rat :=
  if g = 0 then c.groupPhase 0 - c.readPs
  else if c.mclk then c.groupPhase g - (c.laneNow * 25 / 8 + c.accNow g)
  else (c.grp g).align

/-- A free phase (log 71). -/
def Chip.drawEdge (c : Chip) : Rat × Chip := (Config.edgeAt c.free, { c with free := c.free + 1 })

/-- The group takes its alignment from its epoch (06 R152, R166). -/
def Chip.takeEpoch (c : Chip) (g : Nat) : Chip :=
  match c.epochPeriod g with
  | some _ => c.modGrp g (fun x => { x with align := c.epochAt g })
  | none => c.drawEdge.2.modGrp g (fun x => { x with align := c.drawEdge.1 })

/-- Spacing of an output's target instants under an epoch period: a whole number of them in each, in each multiple of it up to 1 s, or
its own period from one epoch instant (06 R166, log 71). -/
def targetSpacing (t : Rat) (p : Option Rat) : Rat :=
  match p with
  | none => t
  | some p =>
    let d := (p / t).den
    if t ≤ p ∧ (d = 1 ∨ (d : Rat) * p ≤ 1000000000000) then t / d else t

/-- The present position of an output's rising edges: a slip moves them by at most 5 % of T_out in each of its periods (06 R165). -/
def Chip.edgeNow (c : Chip) (k : Nat) : Rat :=
  let o := c.outp k
  let n : Rat := (((c.time.ticks - o.slipAt : Nat) : Rat) * c.outHz k 1).floor
  let lim := n * c.outPeriod k / 20
  o.edge + max (-lim) (min o.left lim)

/-- The distance of an output's edges from its target E + PHASE_ADJ + j × T_out, in the shorter direction, in ps (06 R165). -/
def Chip.targetDist (c : Chip) (k : Nat) : Rat :=
  reduce ((c.outp k).epoch + (c.rdi (0x4100 + k) 5 64 : Rat) - c.edgeNow k)
    (targetSpacing (c.outPeriod k) (c.epochPeriod (k / 2)))

/-- An output takes the first epoch instant after the present for its target (06 R165, R166). -/
def Chip.aim (c : Chip) (k : Nat) : Chip :=
  let g := k / 2
  let a := (c.grp g).align
  let e := match c.epochPeriod g with
    | some p => a + p * (((c.groupPhase g - a) / p).floor + 1 : Int)
    | none => a
  c.modOut k (fun o => { o with epoch := e })

/-- A new divider loads at the output's next rising edge (06 R147). -/
def Chip.divLoad (c : Chip) (k : Nat) (old : Rat) : Chip :=
  let e := c.edgeNow k
  let x := e + old * (((c.groupPhase (k / 2) - e) / old).floor + 1 : Int)
  c.modOut k (fun o => { o with edge := x, left := 0 })

/-! ### The pulse guard (06 R164) -/

/-- 0.45/F of a group, in ps. -/
def Chip.minPhase (c : Chip) (g : Nat) : Rat := 450000000000 / c.fenceHz g (c.activePlan g)

/-- A phase of so many ps comes to an output's pin: a shorter one than 0.45/F is lengthened to it and counted. -/
def Chip.guardPhase (c : Chip) (k : Nat) (ps : Nat) : Chip :=
  let m := c.minPhase (k / 2)
  c.iff (decide ((ps : Rat) < m)) (fun c => (c.inc (0x4100 + k) 0x0C).modOut k (fun o => { o with guarded := m }))

/-! ### Outputs (06 R158–R160, R165, R168) -/

/-- The power state lets the output run (14 R361). -/
def Chip.outKept (c : Chip) (k : Nat) : Bool := c.powerState != 1 || c.rd 0xA000 5 == k

/-- The bank of an output is within its voltage (06 R173). -/
def Chip.bankGood (c : Chip) (k : Nat) : Bool := !c.rdb 0x4020 5 (k / 4)

/-- The output may run, given whether it runs already (06 R158, R160, 07 R197). LOL_ACTION HOLD keeps a running output
running; a squelched one starts once its group is LOCKED (log 24). -/
def Chip.outWanted (c : Chip) (k : Nat) (running : Bool) : Bool :=
  c.live && c.outOn k && c.awake .synth && c.bankGood k && c.outKept k &&
    (match c.ttuOf k with
     | some _ => c.apllLocked
     | none =>
       let s := c.gState (k / 2)
       s == 3 || (running && (s == 1 || s == 2 || s == 4) && c.rd (0x4100 + k) 6 == 0))

/-- The status bits that follow the driver: RUNNING until the pin has gone low, SQUELCHED at the squelch level. -/
def Chip.showOut (c : Chip) (k : Nat) : Chip :=
  let d := (c.outp k).drive
  let run := d == .run || d == .falling
  let c := (c.wrb (0x4100 + k) 9 0 run).wrb (0x4100 + k) 9 1 (d == .level || d == .restart)
  if run then c else ((c.wrb (0x4100 + k) 9 2 false).wrb (0x4100 + k) 9 3 false).wrb (0x4100 + k) 9 4 false

/-- A driver state taken. -/
def Chip.setDrive (c : Chip) (k : Nat) (d : Drive) (hiz : Bool) : Chip :=
  (c.modOut k (fun o => { o with drive := d, hiz := hiz })).showOut k

/-- A running output begins the squelch sequence (06 R159). -/
def Chip.squelch (c : Chip) (k : Nat) : Chip :=
  if (c.outp k).drive != .run then c
  else ((c.wrb (0x4100 + k) 9 4 false).inc (0x4100 + k) 0x0D).setDrive k .falling false

/-- The squelch level of an output is high impedance: by its LOL_ACTION, or while its bank is mismatched (06 R158, R173). -/
def Chip.levelHiz (c : Chip) (k : Nat) : Bool := !c.bankGood k || c.rd (0x4100 + k) 6 == 2

/-- An output that stays at its squelch level takes the one its action and bank ask for, while its part is awake. -/
def Chip.levelWatch (c : Chip) (k : Nat) : Chip :=
  c.iff (c.awake .synth && (c.outp k).hiz != c.levelHiz k) (fun c => c.modOut k (fun o => { o with hiz := c.levelHiz k }))

/-- An output follows whether it may run: it squelches, starts by a restart, or gives a restart up (06 R158, R165). -/
def Chip.outWatch (c : Chip) (k : Nat) : Chip :=
  match (c.outp k).drive with
  | .run => if c.outWanted k true then c else c.squelch k
  | .level => if c.outWanted k false then c.setDrive k .restart false else c.levelWatch k
  | .low => if c.outWanted k false then c.setDrive k .restart false else c
  | .restart => if c.outWanted k true then c else c.setDrive k .level (c.outp k).hiz
  | .falling => c

/-- The pin of a squelching output has gone low after a high phase of so many ps (06 R159, R164, R174). -/
def Chip.squelchLow (c : Chip) (k high : Nat) : Chip :=
  if (c.outp k).drive != .falling then c
  else
    let c := c.iff (!c.rdb (0x4100 + k) 9 2) (fun c => c.guardPhase k high)
    if c.outWanted k true then c.setDrive k .restart false
    else if c.rd (0x4100 + k) 6 = 2 then c.setDrive k .low false
    else c.setDrive k .level false

/-- The levels of OUTk_P and OUTk_N (06 R158, R162, log 72). LVCMOS_N: 0 inverted, 1 in phase, 2 held low. -/
def Chip.pins (c : Chip) (k : Nat) : Level × Level :=
  let o := c.outp k
  let n := c.rd (0x4100 + k) 3
  let run := (o.drive == .run || o.drive == .falling) && !c.rdb (0x4100 + k) 9 2
  if o.hiz then (.z, .z)
  else if c.format k = 5 then
    if run then (.clock, if n = 2 then .low else .clock) else (.low, if n = 0 then .high else .low)
  else if run then (.clock, .clock)
  else (.low, .high)

/-- The pins follow while the driver is powered, or go to high impedance. -/
def Chip.pinWatch (c : Chip) (k : Nat) : Chip :=
  let p := c.pins k
  let o := c.outp k
  c.iff ((c.awake .synth || o.hiz) && (o.pinP != p.1 || o.pinN != p.2)) (fun c =>
    c.modOut k (fun o => { o with pinP := p.1, pinN := p.2 }))

/-- Half a period after its pin went low, the driver goes to high impedance (06 R159). -/
def Chip.squelchHiz (c : Chip) (k : Nat) : Chip :=
  if (c.outp k).drive != .low then c else c.setDrive k .level true

/-- A slip to the target begins, or goes on to a new one from the output's present phase (06 R165). -/
def Chip.slip (c : Chip) (k : Nat) : Chip :=
  let e := c.edgeNow k
  let d := c.targetDist k
  (c.modOut k (fun o => { o with edge := e, left := d, slipAt := c.time.ticks })).wrb (0x4100 + k) 9 3 true

/-- An output is synchronised: by a slip, or by a restart (06 R165). -/
def Chip.syncOut (c : Chip) (k : Nat) (slip : Bool) : Chip :=
  if (c.ttuOf k).isSome then c
  else
    let c := c.wrb (0x4100 + k) 9 4 false
    if (c.outp k).drive != .run then c
    else if slip || c.rd (0x4100 + k) 8 = 0 then c.slip k
    else c.squelch k

/-- PHASE_ADJ is written: the target moves, the epoch instant the output is aligned to stays, or its nearest one where the epoch has
moved since (06 R165, R168). -/
def Chip.adjOut (c : Chip) (k : Nat) : Chip :=
  let g := k / 2
  let c := match c.epochPeriod g with
    | some p => c.modOut k (fun o => { o with epoch := o.epoch + reduce (c.epochAt g - o.epoch) p })
    | none => c
  c.syncOut k true

/-- A group is synchronised, or the synchronisation is held until LOCKED (06 R165). -/
def Chip.syncGroup (c : Chip) (g : Nat) : Chip :=
  if c.gState g != 3 then c.modGrp g (fun x => { x with syncHeld := true })
  else
    let c := c.modGrp g (fun x => { x with syncHeld := false, synced := true })
    (c.takeEpoch g).overAll (outsOf g) (fun k c => (c.aim k).syncOut k false)

/-- The synchronisation that follows lock completes once no output of the group moves or waits (06 R162). -/
def Chip.fenceWatch (c : Chip) (g : Nat) : Chip :=
  let x := c.grp g
  let busy := (outsOf g).any (fun k =>
    (c.ttuOf k).isNone && ((c.outp k).drive == .restart || (c.outp k).drive == .falling || c.rdb (0x4100 + k) 9 3))
  c.iff (c.gState g == 3 && x.fenceHeld && x.synced && !busy) (fun c => c.modGrp g (fun x => { x with fenceHeld := false }))

/-- An output in restart, its pin low for so many ps, starts running at a target instant (06 R165, R167). -/
def Chip.outRestart (c : Chip) (k low : Nat) : Chip :=
  if (c.outp k).drive != .restart || !c.outWanted k true || decide ((low : Rat) < c.minPhase (k / 2)) then c
  else
    let c := (c.iff (c.ttuOf k).isNone (fun c => (c.takeEpoch (k / 2)).aim k)).setDrive k .run false
    let c := c.modOut k (fun o => { o with edge := o.epoch + (c.rdi (0x4100 + k) 5 64 : Rat), left := 0 })
    c.wrb (0x4100 + k) 9 4 ((c.ttuOf k).isNone && c.gState (k / 2) == 3)

/-- A slipping output reaches its target (06 R165, R167). -/
def Chip.slipDone (c : Chip) (k : Nat) : Chip :=
  if !c.rdb (0x4100 + k) 9 3 then c
  else
    let c := c.modOut k (fun o => { o with edge := o.edge + o.left, left := 0 })
    (c.wrb (0x4100 + k) 9 3 false).wrb (0x4100 + k) 9 4 (c.gState (k / 2) == 3 && (c.outp k).drive == .run)

/-- A period of a running output, high and low for so many ps: the guard lengthens what is short of it, and a period shorter than 1/F
closes the gate of a watched output (06 R162, R164). -/
def Chip.fenceViolate (c : Chip) (k high low : Nat) : Chip :=
  let run := (c.outp k).drive == .run || (c.outp k).drive == .falling
  if !run || c.rdb (0x4100 + k) 9 2 then c
  else
    let f := c.fenceHz (k / 2) (c.activePlan (k / 2))
    let watched := (c.ttuOf k).isNone && c.rdb (0x4018 + k / 2) 1 6
    let c := (c.guardPhase k high).guardPhase k low
    c.iff (watched && decide (((high + low : Nat) : Rat) * f < 1000000000000)) (fun c =>
      (c.wrb (0x4100 + k) 9 2 true).inc (0x4018 + k / 2) 0x0C)

/-- The gate opens at a rising edge after 8 periods without violation, the pin low for so many ps by then (06 R162). -/
def Chip.fenceOpen (c : Chip) (k low : Nat) : Chip :=
  c.iff (decide (c.minPhase (k / 2) ≤ (low : Rat))) (fun c => c.wrb (0x4100 + k) 9 2 false)

/-! ### Group states (06 R153) -/

/-- A group's ramp generator freezes, or goes on from where it froze (06 R172). -/
def Chip.rampFreeze (c : Chip) (g : Nat) : Chip :=
  c.modGrp g (fun x => if x.ramp.frozen.isSome || x.ramp.kind == .held then x
    else { x with ramp := { x.ramp with frozen := some c.time.mono } })
def Chip.rampThaw (c : Chip) (g : Nat) : Chip :=
  let r := c.rampNow g
  c.modGrp g (fun x => match x.ramp.frozen with
    | some t => { x with
      gain := x.gain + (((c.time.mono - t) / (8 * nsUnit) : Nat) : Rat) * r * 8 / 1000000
      ramp := { x.ramp with since := x.ramp.since + (c.time.mono - t), frozen := none } }
    | none => x)

/-- SSC_MODE names a spread, and none runs: it starts from r = 0 (06 R171, R175). -/
def Chip.sscStart (c : Chip) (g : Nat) : Chip :=
  let m := c.rd (0x4010 + g) 0x0D
  c.iff (m != 0 && (c.grp g).ramp.kind != .spread && !c.timingGroup g) (fun c =>
    c.setRamp g ⟨.spread, 0, c.time.mono, 0, 0, none, m, false⟩)

/-- A group changes state (06 R153): the event, and what leaving or entering LOCKED brings. -/
def Chip.setGroup (c : Chip) (g st reason : Nat) : Chip :=
  let old := c.gState g
  let c := (c.wrf (0x4018 + g) 1 2 0 st).wrf (0x4018 + g) 1 5 4 reason
  if old = st then c
  else
    let c := c.post 0x25 (chanDetail g + old * 2 ^ 18 + st * 2 ^ 15 + reason * 2 ^ 13)
    let c := c.iff (old == 3) (fun c =>
      (c.rampFreeze g).overAll (outsOf g) (fun k c => c.iff (c.ttuOf k).isNone (fun c => c.wrb (0x4100 + k) 9 4 false)))
    let c := c.iff (st == 4) (fun c => (c.inc (0x4018 + g) 9).iff (reason == 1) (fun c => c.raise (64 + g) g 0))
    let c := c.iff (st == 3) (fun c =>
      let c := (((c.wr (0x4018 + g) 0x0E c.now).rampThaw g).sscStart g).overAll (outsOf g) (fun k c =>
        c.iff ((c.outp k).drive == .run) (fun c =>
          c.drawEdge.2.modOut k (fun o => { o with edge := c.drawEdge.1, left := 0 })))
      let sync := c.rdb (0x4010 + g) 0x0A 0 || (c.grp g).syncHeld
      let c := c.modGrp g (fun x => { x with fenceHeld := true, synced := false, hop := .none })
      c.iff sync (fun c => c.syncGroup g))
    c.iff (st == 0) (fun c =>
      let kept := c.awake .synth && !c.rdb (0x4010 + g) 1 0
      let c := c.iff (!kept) (fun c => c.setRamp g default)
      c.modGrp g (fun x => { x with
        hop := .none, via := none, good := 0, fails := 0, fenceHeld := false, synced := false }))

/-! ### The band cache (06 R155, R157) -/

/-- The payload of an entry (06 table "Band cache entry payload"). -/
def bandPayload (freq g band : Nat) (temp : Int) : Nat :=
  freq % 2 ^ 64 * 2 ^ 64 + g * 2 ^ 56 + 128 * 2 ^ 48 + band * 2 ^ 32 + wrapInt 16 temp * 2 ^ 16

def Band.valid (b : Band) : Bool := bit 55 b.payload
def Band.freq (b : Band) : Nat := field 127 64 b.payload
def Band.group (b : Band) : Nat := field 63 56 b.payload
def Band.band (b : Band) : Nat := field 47 32 b.payload
def Band.temp (b : Band) : Int := sext 16 (field 31 16 b.payload)

/-- ENTRIES_USED follows the cache. -/
def Chip.showCache (c : Chip) : Chip := c.wr 0x4300 1 (c.synth.cache.filter Band.valid).length

/-- The record of an entry is written: to the slot that does not hold the record in use (11 R290). -/
def Chip.bandRecord (c : Chip) (n seq payload : Nat) : Chip :=
  let a := 0x15000 + 64 * n
  let slot := match (c.twoSlot a (a + 32) 0x4243 32).1 with
    | some (s, _, _) => 1 - s
    | none => 0
  c.recordWrite (256 + n) (a + 32 * slot) 0x4243 seq (toBytes 16 payload)

/-- The next SEQ of the cache: above every entry's. -/
def Chip.bandSeq (c : Chip) : Nat := c.synth.cache.foldl (fun a b => max a (b.seq + 1)) 1

/-- A band is recorded after a full search that ended in LOCKED (06 R157). -/
def Chip.cacheBand (c : Chip) (g : Nat) : Chip :=
  if c.rdb 0x4300 3 0 then c
  else
    let f := c.rd (0x4010 + g) 2
    let l := c.synth.cache
    let same := l.findIdx? (fun b => b.valid && b.group == g && b.freq == f)
    let free := l.findIdx? (fun b => !b.valid)
    let low := l.foldl (fun a b => min a b.seq) (2 ^ 32)
    let n := match same, free with
      | some i, _ => i
      | none, some i => i
      | none, none => (l.findIdx? (fun b => b.seq == low)).getD 0
    let q := c.bandSeq
    let p := bandPayload f g (c.rd (0x4018 + g) 5) c.time.dieTemp
    let c := c.modSynth (fun u => { u with cache := setNth u.cache n ⟨q, p⟩ })
    (c.showCache.inc 0x4300 4).bandRecord n q p

/-- CLEAR: every entry is erased; the record of a used entry is replaced by an empty one (06 R157). -/
def Chip.cacheClear (c : Chip) : Chip :=
  let c := c.each 64 (fun n c =>
    let b := nth c.synth.cache n default
    c.iff b.valid (fun c =>
      let q := b.seq + 1
      (c.modSynth (fun u => { u with cache := setNth u.cache n ⟨q, 0⟩ })).bandRecord n q 0))
  c.showCache

/-- The cache as its records stand, read at a start (06 R157, 11 R290). -/
def Chip.cacheLoad (c : Chip) : Chip :=
  let c := c.each 64 (fun n c =>
    let a := 0x15000 + 64 * n
    let r := c.twoSlot a (a + 32) 0x4243 32
    let b : Band := match r.1 with
      | some (_, q, p) => ⟨q, ofBytes p⟩
      | none => ⟨0, 0⟩
    (c.recordConflict r.2).modSynth (fun u => { u with cache := setNth u.cache n b }))
  c.showCache

/-- The entry for this group and frequency within 30 °C (06 R155). -/
def Chip.cached (c : Chip) (g : Nat) : Option Nat :=
  (c.synth.cache.find? (fun b => b.valid && b.group == g && b.freq == c.rd (0x4010 + g) 2 &&
    decide ((b.temp - c.time.dieTemp).natAbs ≤ 3000))).map Band.band

/-! ### Hops (06 R155, R156) -/

/-- A full search begins. -/
def Chip.fullSearch (c : Chip) (g : Nat) : Chip :=
  (c.setGroup g 1 0).modGrp g (fun x => { x with hop := .full, via := none, step := 0, code := 128, best := none, good := 0 })

/-- A hop begins (06 R155). -/
def Chip.hop (c : Chip) (g : Nat) : Chip :=
  match c.cached g, c.rdb (0x4010 + g) 0x11 0 with
  | some b, true =>
    ((c.setGroup g 1 0).wr (0x4018 + g) 5 b).modGrp g (fun x => { x with
      hop := .settle, base := b, via := some 0, good := 0, fails := 0 })
  | _, _ => (c.modGrp g (fun x => { x with fails := 0 })).fullSearch g

/-- A cached band has settled (06 R155). -/
def Chip.hopSettled (c : Chip) (g : Nat) : Chip :=
  if c.gState g != 1 || (c.grp g).hop != .settle then c
  else (c.setGroup g 2 0).modGrp g (fun x => { x with hop := .none, good := 0 })

/-- The next candidate band of a cached hop: above, below, then a full search (06 R155). -/
def Chip.nextBand (c : Chip) (g i : Nat) : Chip :=
  let b := (c.grp g).base
  let try_ (c : Chip) (j band : Nat) : Chip :=
    ((c.setGroup g 1 0).wr (0x4018 + g) 5 band).modGrp g (fun x => { x with hop := .neighbour, via := some j, good := 0 })
  if i = 0 ∧ b < 255 then try_ c 1 (b + 1)
  else if i ≤ 1 ∧ 0 < b then try_ c 2 (b - 1)
  else c.fullSearch g

/-- The 32 µs count that the group frequency gives (06 R155). -/
def Chip.searchTarget (c : Chip) (g : Nat) : Rat := (c.rd (0x4010 + g) 2 : Rat) * 32 / 1000000000

/-- A step of the full search ends with its count. Higher band codes are taken to be faster (log 24). -/
def Chip.searchStep (c : Chip) (g count : Nat) : Chip :=
  let x := c.grp g
  if c.gState g != 1 || x.hop != .full || !c.loPresent then c
  else
    let e := c.searchTarget g
    let err := ratAbs ((count : Rat) - e)
    let best := match x.best with
      | some (b, f) => if err < f then (x.code, err) else (b, f)
      | none => (x.code, err)
    let w := 2 ^ (7 - x.step)
    let code := (if e < (count : Rat) then x.code - w else x.code) + w / 2
    if x.step < 7 then c.modGrp g (fun x => { x with step := x.step + 1, code := code, best := some best })
    else
      let c := c.inc (0x4018 + g) 0x0B
      if best.2 * 100 ≤ e * 3 then
        ((c.wr (0x4018 + g) 5 best.1).setGroup g 2 0).modGrp g (fun x => { x with
          hop := .none, via := none, good := 0, fails := 0 })
      else
        let n := x.fails + 1
        let c := c.modGrp g (fun x => { x with hop := .retry, fails := n })
        c.iff (n == 3) (fun c => c.raise 62 g 0)

/-- 10 ms after a failed search (06 R156). -/
def Chip.searchRetry (c : Chip) (g : Nat) : Chip :=
  if c.gState g != 1 || (c.grp g).hop != .retry then c else c.fullSearch g

/-- A lock window of a group's MDLL ends with d (06 R153, R154). -/
def Chip.mdllWindow (c : Chip) (g : Nat) (d : Int) : Chip :=
  let s := c.gState g
  let x := c.grp g
  if !c.awake .synth || !c.loPresent || s == 0 || c.start.untrusted.contains (.group (Fin.ofNat 8 g)) then c
  else
    let c := c.wr (0x4018 + g) 6 (satInt 32 d)
    let good := decide (d.natAbs ≤ c.rd (0x4010 + g) 6)
    let bad := decide (c.rd (0x4010 + g) 7 < d.natAbs)
    let run := if good then x.good + 1 else 0
    let full := decide (c.rd (0x4010 + g) 5 ≤ run)
    let c := c.iff (s != 3) (fun c => c.modGrp g (fun x => { x with good := run }))
    if s = 1 then
      match x.hop, x.via with
      | .neighbour, some j =>
        if bad then c.nextBand g j
        else (c.setGroup g 2 0).modGrp g (fun x => { x with hop := .none, good := if good then 1 else 0 })
      | _, _ => c
    else if s = 2 then
      if full then
        match x.via with
        | some _ => (c.inc (0x4018 + g) 0x0A).setGroup g 3 0
        | none => (c.cacheBand g).setGroup g 3 0
      else
        match x.via with
        | some j => c.iff bad (fun c => c.nextBand g j)
        | none => c
    else if s = 3 then c.iff bad (fun c => (c.modGrp g (fun x => { x with good := 0 })).setGroup g 4 1)
    else c.iff (c.gReason g == 1 && full) (fun c => c.setGroup g 3 0)

/-- The locking limit passes without lock (06 R153). -/
def Chip.lockingLimit (c : Chip) (g : Nat) : Chip :=
  if c.gState g = 2 ∨ (c.gState g = 4 ∧ c.gReason g = 1) then c.fullSearch g else c

/-! ### The core APLL (06 R148–R150) -/

/-- A band search begins, from the band last locked on since MAST power-up (06 R148). -/
def Chip.apllSearch (c : Chip) : Chip :=
  let c := match c.synth.apll.last with
    | some b => c.wrf 0x4001 2 7 0 b
    | none => c
  (c.inc 0x4001 4).modApll (fun a => { a with searching := true, awaits := false, retrying := false, good := 0 })

/-- The synthesis part starts to wake: the search begins (06 R148). -/
def Chip.apllStart (c : Chip) : Chip := (c.modApll (fun a => { a with fails := 0 })).apllSearch

/-- A search has ended without lock: the third in a row is a lock failure (06 R150). -/
def Chip.apllMiss (c : Chip) : Chip :=
  let n := c.synth.apll.fails + 1
  let c := c.modApll (fun a => { a with fails := n, awaits := false, searching := false, retrying := decide (3 ≤ n) })
  c.iff (n == 3) (fun c => c.raise 60 0 0)

/-- A band search ends (06 R148, R150). -/
def Chip.apllFound (c : Chip) (found : Bool) (band : Nat) : Chip :=
  if !c.synth.apll.searching then c
  else if found then
    (c.wrf 0x4001 2 7 0 band).modApll (fun a => { a with searching := false, awaits := true, good := 0 })
  else
    let c := c.apllMiss
    c.iff (!c.synth.apll.retrying) Chip.apllSearch

/-- The retry interval ends: the APLL searches again (06 R150). -/
def Chip.apllRetry (c : Chip) : Chip :=
  let a := c.synth.apll
  if c.apllLocked || a.searching || !(a.retrying || a.awaits) then c
  else
    let c := c.iff a.awaits Chip.apllMiss
    c.iff (!(a.awaits && c.synth.apll.fails == 3)) Chip.apllSearch

/-- Lock is lost (06 R150). -/
def Chip.apllLoss (c : Chip) : Chip :=
  let c := (c.wrb 0x4001 2 8 false).inc 0x4001 3
  let c := c.modApll (fun a => { a with good := 0, retrying := true, fails := 0 })
  let c := c.each 8 (fun g c =>
    c.iff (c.gState g != 0 && !(c.gState g == 4 && c.gReason g == 2)) (fun c =>
      (c.modGrp g (fun x => { x with hop := .none, via := none, good := 0 })).setGroup g 4 2))
  (c.raise 59 0 0).post 0x26 0

/-- Lock is declared: groups that waited for it hop (06 R150, R153). -/
def Chip.apllLock (c : Chip) : Chip :=
  let c := (c.wrb 0x4001 2 8 true).drop 59
  let c := c.modApll (fun a => { a with awaits := false, retrying := false, fails := 0, last := some (c.rdf 0x4001 2 7 0) })
  c.each 8 (fun g c => c.iff (c.gState g == 4 && c.gReason g == 2) (fun c => c.hop g))

/-- The count a lock window expects (06 R149). -/
def Chip.apllExpect (c : Chip) : Nat := 256 * 1000 * c.rd 0x4001 1 / (10 * c.nominal)

/-- A lock window of the core APLL ends (06 R149). -/
def Chip.apllWindow (c : Chip) (count : Nat) : Chip :=
  if !(c.awake .synth || c.waking .synth) || !c.loPresent || c.start.untrusted.contains .apll then c
  else
    let d := ((count : Int) - (c.apllExpect : Int)).natAbs
    if c.apllLocked then c.iff (8 < d) Chip.apllLoss
    else if c.synth.apll.searching then c
    else
      let n := if d ≤ 2 then c.synth.apll.good + 1 else 0
      let c := c.modApll (fun a => { a with good := n })
      c.iff (4 ≤ n) Chip.apllLock

/-! ### APPLY (06 R147, R155, R168, R172) -/

/-- The staged plan passes APPLY's checks. -/
def Chip.applyOk (c : Chip) (g : Nat) : Bool :=
  let p := c.stagedPlan g
  c.planValid g p && c.fenceRule g p (c.rMax g)

/-- The keys of a group's staged subindices. -/
def planKeys (g : Nat) : List Nat :=
  [okey (0x4010 + g) 2, okey (0x4010 + g) 3, okey (0x4010 + g) 8, okey (0x4100 + 2 * g) 4, okey (0x4101 + 2 * g) 4]

/-- The staged values of a group become active. -/
def Chip.mergePlan (c : Chip) (g : Nat) : Chip :=
  (planKeys g).foldl (fun c k =>
    match mget k c.staged with
    | some v => { c.wr (k / 256) (k % 256) v with staged := mdel k c.staged }
    | none => c) c

/-- A hop by APPLY sets r to 0 and ends a profile or a spread (06 R172). -/
def Chip.rampEnd (c : Chip) (g : Nat) : Chip :=
  let ran := c.rampRuns g || c.sscOn g
  ((c.setRamp g default).wr (0x4010 + g) 0x0D 0).iff ran (fun c => c.inc (0x4018 + g) 0x0D)

/-- APPLY of a valid staged plan (06 R147). -/
def Chip.applyPlan (c : Chip) (g : Nat) : Chip :=
  let old := c.activePlan g
  let c := (c.mergePlan g).modGrp g (fun x => { x with bad := false, untold := false })
  let new := c.activePlan g
  let c := c.showPlan g
  let c := c.overAll (outsOf g) (fun k c => c.wr (0x4100 + k) 5 (wrapInt 64 (c.adjReduce k (c.rdi (0x4100 + k) 5 64))))
  if old.freq ≠ new.freq ∨ old.m ≠ new.m then
    c.iff (c.gState g != 0) (fun c => (c.rampEnd g).hop g)
  else
    let c := c.iff (c.gState g == 3) (fun c => c.takeEpoch g)
    c.overAll (outsOf g) (fun k c => c.iff (old.div k != new.div k) (fun c =>
      let c := c.divLoad k (1000000000000 / old.hz k)
      if c.gState g = 3 then (c.aim k).syncOut k false else c.modGrp g (fun x => { x with syncHeld := true })))

/-- A stored plan found not valid raises its pennant once the synthesis part is awake (06 R147). -/
def Chip.planTell (c : Chip) (g : Nat) : Chip :=
  c.iff (c.awake .synth && (c.grp g).untold) (fun c => (c.modGrp g (fun x => { x with untold := false })).raise 61 g 0)

/-- At a start, the stored staged values become active; a plan that is not valid leaves the group disabled (06 R147). -/
def Chip.planStart (c : Chip) (g : Nat) : Chip :=
  let c := c.mergePlan g
  let ok := c.planValid g (c.activePlan g) && c.fenceRule g (c.activePlan g) (c.rMax g)
  ((c.modGrp g (fun x => { x with bad := !ok, untold := !ok })).planTell g).showPlan g

/-- The group runs: enabled with a valid plan, its part awake, and kept by the power state (06 R153, 14 R361). -/
def Chip.groupWanted (c : Chip) (g : Nat) : Bool :=
  c.live && decide (g < c.grade.chans) && c.rdb (0x4010 + g) 1 0 && !(c.grp g).bad && c.awake .synth &&
    (c.powerState != 1 || c.rd 0xA000 4 == g) && c.powerState != 2

/-- A group follows whether it runs (06 R153). -/
def Chip.groupWatch (c : Chip) (g : Nat) : Chip :=
  let c := c.planTell g
  if c.groupWanted g then c.iff (c.gState g == 0 && c.apllLocked) (fun c => c.hop g)
  else c.iff (c.gState g != 0) (fun c => c.setGroup g 0 0)

/-- The synthesis part follows its conditions, output by output and group by group. -/
def Chip.synthWatch (c : Chip) : Chip :=
  let c := c.each c.grade.chans (fun g c => c.groupWatch g)
  let c := c.each (2 * c.grade.chans) (fun k c => (c.outWatch k).pinWatch k)
  c.each c.grade.chans (fun g c => ((c.fenceWatch g).showGroup g).dividerWatch g)

/-! ### Ramps and spreads (06 R169–R171) -/

/-- A start of the named profile is out of range (06 R170). -/
def Chip.rampRange (c : Chip) (g : Nat) : Bool :=
  let p := c.rd (0x4010 + g) 0x0B
  let n := c.rd (0x4200 + p) 1
  let from_ (i : Nat) : Rat := if i = 0 then c.rampNow g else c.segDelta p i
  let slope := (List.range n).any (fun i =>
    let d := ratAbs ((c.segDelta p (i + 1) : Rat) - from_ i)
    decide (2000000 * (8 * (c.segDur p (i + 1) : Rat) / 1000) < d))
  let delta := (List.range n).any (fun i => decide (20000000 < (c.segDelta p (i + 1)).natAbs))
  let fence := !c.fenceRule g (c.activePlan g) ((c.profileMax p : Rat) / 1000000000)
  let commit := c.rd (0x4200 + p) 2 == 2 &&
    (let f := (c.rd (0x4010 + g) 2 : Rat) * (1 + (c.segDelta p n : Rat) / 1000000000)
     !c.planValid g { c.activePlan g with freq := (f + 1 / 2).floor.toNat })
  decide (8 ≤ p) || delta || slope || fence || commit

/-- A start of a profile is not allowed now (06 R169, R170). -/
def Chip.rampBlocked (c : Chip) (g : Nat) : Bool :=
  c.timingGroup g || c.gState g != 3 || c.rd (0x4010 + g) 0x0D != 0

/-- RAMP_CTRL START. -/
def Chip.rampStart (c : Chip) (g : Nat) : Chip :=
  let r := c.rampNow g
  c.setRamp g ⟨.profile, r, c.time.mono, c.rd (0x4010 + g) 0x0B, 1, none, 0, false⟩

/-- RAMP_CTRL STOP: r is frozen where it stands. A spread is ended by SSC_MODE alone. -/
def Chip.rampStop (c : Chip) (g : Nat) : Chip :=
  if c.sscOn g then c else c.holdRamp g (c.rampNow g)

/-- RAMP_CTRL ZERO. -/
def Chip.rampZero (c : Chip) (g : Nat) : Chip :=
  let r := c.rampNow g
  if c.sscOn g then c
  else c.setRamp g ⟨.zero, r, c.time.mono, 0, 0, if c.gState g = 3 then none else some c.time.mono, 0, false⟩

/-- A segment of a running profile ends (06 R170). -/
def Chip.rampSegment (c : Chip) (g : Nat) : Chip :=
  let x := (c.grp g).ramp
  if x.kind != .profile || x.frozen.isSome then c
  else
    let d : Rat := c.segDelta x.prof x.seg
    let go (s : Nat) : Chip := c.setRamp g { x with start := d, since := c.time.mono, seg := s }
    if x.seg < c.rd (0x4200 + x.prof) 1 then go (x.seg + 1)
    else
      let mode := c.rd (0x4200 + x.prof) 2
      if mode = 1 then go 1
      else if mode = 0 then c.holdRamp g d
      else
        let c := c.setRamp g default
        let old := c.activePlan g
        let f := ((c.rd (0x4010 + g) 2 : Rat) * (1 + d / 1000000000) + 1 / 2).floor.toNat
        let c := c.wr (0x4010 + g) 2 f
        let c := { c with staged := mdel (okey (0x4010 + g) 2) c.staged }
        (c.overAll (outsOf g) (fun k c => c.divLoad k (1000000000000 / old.hz k))).showPlan g

/-- SSC_DEPTH is within the range of a mode (06 R171). -/
def depthOk (mode depth : Nat) : Bool :=
  if mode = 1 then 10 ≤ depth && depth ≤ 100 else if mode = 2 then 5 ≤ depth && depth ≤ 50 else 5 ≤ depth && depth ≤ 100

/-- SSC_MODE is written (06 R171). -/
def Chip.sscWrite (c : Chip) (g mode : Nat) : Chip :=
  if mode = 0 then
    let c := c.wr (0x4010 + g) 0x0D 0
    c.iff (c.sscOn g) (fun c => c.modGrp g (fun x => { x with ramp := { x.ramp with ending := true } }))
  else
    let frozen := if c.gState g = 3 then none else some c.time.mono
    (c.setRamp g ⟨.spread, 0, c.time.mono, 0, 0, frozen, mode, false⟩).wr (0x4010 + g) 0x0D mode

/-- SSC_DEPTH or SSC_RATE is written: the phase a running spread has added stays. -/
def Chip.sscSet (c : Chip) (g sub v : Nat) : Chip :=
  let add := c.rampGain g
  let c := c.wr (0x4010 + g) sub v
  c.modGrp g (fun x => { x with gain := x.gain + add - c.rampGain g })

/-- The spread ends at its pass through r = 0 (06 R171). -/
def Chip.sscEnd (c : Chip) (g : Nat) : Chip :=
  let x := (c.grp g).ramp
  if x.kind == .spread && x.ending && x.frozen.isNone then c.setRamp g default else c

/-! ### Formats and banks (06 R173, R174) -/

/-- The table "Formats allowed by bank voltage". -/
def formatAllowed (format swing bankV : Nat) : Bool :=
  decide (format ≤ 5) && !(format == 4 && decide (650 ≤ swing) && bankV == 0)

def Chip.bankV (c : Chip) (b : Nat) : Nat := c.rdf 0x4020 (b + 1) 1 0

/-- Each second: banks measured; a mismatched bank's drivers go to high impedance (06 R173). -/
def Chip.bankCheck (c : Chip) (mismatch : Nat) : Chip :=
  if !c.awake .synth then c
  else
    let banks := if c.grade == .e then 2 else 4
    let old := c.rd 0x4020 5
    let new := mismatch % 2 ^ banks
    let c := c.wrf 0x4020 5 3 0 new
    let c := c.each banks (fun b c => c.iff (bit b new && !bit b old) (fun c =>
      (c.overAll [4 * b, 4 * b + 1, 4 * b + 2, 4 * b + 3] (fun k c => c.setDrive k .level true)).raise 63 b 0))
    c.iff (new == 0) (fun c => c.drop 63)

/-- A running output leaves its old format or source through the squelch sequence (06 R174, 07 R197). -/
def Chip.outMoves (c : Chip) (k : Nat) : Chip :=
  (c.wrb (0x4100 + k) 9 4 false).squelch k

/-! ### Writes -/

/-- A write breaks a rule that relates it to other values (12 check 9 of R314; 06 R163, R168, R170, R171, R173). -/
def Chip.synthRel (c : Chip) (idx sub v : Nat) : Bool :=
  if 0x4010 ≤ idx ∧ idx < 0x4018 then
    let g := idx - 0x4010
    let c' := c.wr idx sub v
    match sub with
    | 6 => decide (c.rd idx 7 ≤ v)
    | 7 => decide (v ≤ c.rd idx 6)
    | 0x0C => v == 1 && c.rampRange g
    | 0x0D => v != 0 && !(depthOk v (c.rd idx 0x0E) && c'.fenceOk g)
    | 0x0E => !depthOk (c.rd idx 0x0D) v
    | 0x10 => v == 1 && !c.applyOk g
    | _ => false
  else if idx = 0x4020 ∧ 1 ≤ sub ∧ sub ≤ 4 then
    let b := sub - 1
    [4 * b, 4 * b + 1, 4 * b + 2, 4 * b + 3].any (fun k =>
      !formatAllowed (c.format k) (c.rd (0x4100 + k) 2) (v % 4))
  else if 0x4100 ≤ idx ∧ idx < 0x4110 then
    let k := idx - 0x4100
    let c' := c.wr idx sub v
    match sub with
    | 1 => !(formatAllowed v (c.rd idx 2) (c.bankV (k / 4)) && c'.fenceOk (k / 2) &&
        ((c.ttuOf k).isSome || formatHz v ((c.activePlan (k / 2)).hz k)))
    | 2 => !formatAllowed (c.format k) v (c.bankV (k / 4))
    | 5 => !c.adjOk k (sext 64 v)
    | _ => false
  else if idx = 0x7011 then !(c.wr idx sub v).fenceOk ((sub - 1) / 2)
  else if 0x7000 ≤ idx ∧ idx < 0x7008 ∧ (sub = 4 ∨ sub = 5) then
    let c' := c.wr idx sub v
    let per := c'.rd idx 4
    let w := c'.rd idx 5
    decide (per < w + 10000) ||
      (List.range 16).any (fun k => c.ttuOf k == some (idx - 0x7000) && !c'.fenceOk (k / 2))
  else false

/-- A write is not allowed in the present state (12 check 10 of R314; 06 R169–R171). -/
def Chip.synthState (c : Chip) (idx sub v : Nat) : Bool :=
  let moving (g : Nat) : Bool := c.rampNow g != 0 || c.rd (0x4010 + g) 0x0D != 0
  if 0x4010 ≤ idx ∧ idx < 0x4018 then
    let g := idx - 0x4010
    match sub with
    | 0x0C => v == 1 && c.rampBlocked g
    | 0x0D => v != 0 && (c.timingGroup g || c.rampNow g != 0 || c.rampRuns g)
    | _ => false
  else if 0x4100 ≤ idx ∧ idx < 0x4110 then sub == 7 && v == 1 && moving ((idx - 0x4100) / 2)
  else if 0x4200 ≤ idx ∧ idx < 0x4208 ∨ 0x4210 ≤ idx ∧ idx < 0x4218 then
    (List.range 8).any (fun g => c.rampRuns g && (c.grp g).ramp.prof == idx % 8)
  else if 0x5000 ≤ idx ∧ idx < 0x5008 ∧ sub = 6 then decide (v < 8) && c.rdb idx 1 0 && moving v
  else if 0x5000 ≤ idx ∧ idx < 0x5008 ∧ sub = 1 then v == 1 && decide (c.rd idx 6 < 8) && moving (c.rd idx 6)
  else if 0x7000 ≤ idx ∧ idx < 0x7008 then 2 ≤ sub && c.rdb (idx + 8) 1 0
  else false

/-- What a write does beyond its store, where it does something of its own. -/
def Chip.synthPut (c : Chip) (idx sub v : Nat) : Option Chip :=
  let k := okey idx sub
  let stage : Option Chip := some { c with staged := if v = c.rd idx sub then mdel k c.staged else mset k v c.staged }
  if 0x4010 ≤ idx ∧ idx < 0x4018 then
    let g := idx - 0x4010
    match sub with
    | 2 => stage
    | 3 => stage
    | 8 => stage
    | 9 => some (if v = 1 then c.syncGroup g else c)
    | 0x0C => some (if v = 1 then c.rampStart g else if v = 2 then c.rampStop g else c.rampZero g)
    | 0x0D => some (c.sscWrite g v)
    | 0x0E => some (c.sscSet g sub v)
    | 0x0F => some (c.sscSet g sub v)
    | 0x10 => some (if v = 1 then c.applyPlan g else c)
    | _ => none
  else if 0x4100 ≤ idx ∧ idx < 0x4110 then
    let k := idx - 0x4100
    match sub with
    | 1 => some ((if c.format k = v then c else c.outMoves k).wr idx 1 v)
    | 4 => stage
    | 5 => some ((c.wr idx 5 v).adjOut k)
    | _ => none
  else if idx = 0x7011 then
    let k := sub - 1
    some ((if c.rd idx sub = v then c else c.outMoves k).wr idx sub v)
  else if idx = 0x4300 ∧ sub = 2 then some (if v = 1 then c.cacheClear else c)
  else none

end Sys2Proof.Machine
end

