-- ==== Sys2Proof/Machine/Frames.lean ====
section
/-!
DEFINITION. Sys2Proof/Machine/Frames.lean: Ethernet frames as byte strings: their fields, receive classes (08 R206, R207),
checksums (08 R208, R218, R219), and the descriptors software reads and writes (08 R210, R216).
-/

namespace Sys2Proof.Machine

/-! ### Bytes -/

/-- Byte `i` of a frame, 0 past its end. -/
def byteAt (b : List Nat) (i : Nat) : Nat := nth b i 0
/-- Two and four bytes as a number, most significant first. -/
def be16 (b : List Nat) (i : Nat) : Nat := byteAt b i * 256 + byteAt b (i + 1)
/-- `n` bytes as a number. -/
def beN (b : List Nat) (i n : Nat) : Nat := ofBytes ((b.drop i).take n)
/-- A frame with bytes replaced from an offset on; the frame keeps its length. -/
def putBytes (b : List Nat) (i : Nat) (v : List Nat) : List Nat := b.take i ++ v.take (b.length - i) ++ b.drop (i + v.length)

/-- The sum of 16-bit words with end-around carry. -/
def onesSum (b : List Nat) : Nat :=
  let rec go : List Nat → Nat → Nat
    | [], a => a
    | [x], a => a + x * 256
    | x :: y :: t, a => go t (a + x * 256 + y)
  let s := go b 0
  let s := s % 65536 + s / 65536
  s % 65536 + s / 65536

/-- The Internet checksum of a byte string. -/
def inetCheck (b : List Nat) : Nat := 65535 - onesSum b

/-- The frame check sequence of a frame, as sent (08 R208, R218). -/
def fcsOf (b : List Nat) : List Nat := (toBytes 4 (crc32 b)).reverse

/-- A frame's last four bytes are the check of those before. -/
def fcsGood (b : List Nat) : Bool := decide (4 ≤ b.length) && b.drop (b.length - 4) == fcsOf (b.take (b.length - 4))

/-! ### Classification (08 R206, R207) -/

/-- What the MAC reads from a frame's headers. -/
structure FrameInfo where
  dst : Nat
  src : Nat
  tagged : Bool
  tci : Nat
  ethertype : Nat
  /-- Offset of what follows the EtherType. -/
  l3 : Nat
  ipv4 : Bool
  ipv6 : Bool
  udp : Bool
  l4 : Nat
  dport : Nat
  deriving DecidableEq, Repr

/-- The headers of a frame, after at most one 802.1Q tag. -/
def frameInfo (b : List Nat) : FrameInfo :=
  let tagged := be16 b 12 == 0x8100
  let o := if tagged then 16 else 12
  let ty := be16 b o
  let l3 := o + 2
  let v := byteAt b l3 / 16
  let ipv4 := ty == 0x0800 && v == 4
  let ipv6 := ty == 0x86DD && v == 6
  let frag := be16 b (l3 + 6) % 16384 != 0
  let udp4 := ipv4 && !frag && byteAt b (l3 + 9) == 17
  let udp6 := ipv6 && byteAt b (l3 + 6) == 17
  let l4 := if udp4 then l3 + 4 * (byteAt b l3 % 16) else if udp6 then l3 + 40 else 0
  ⟨beN b 0 6, beN b 6 6, tagged, if tagged then be16 b 14 else 0, ty, l3, ipv4, ipv6, udp4 || udp6, l4,
    if udp4 || udp6 then be16 b (l4 + 2) else 0⟩

/-- The receive classes: MAC control, or a class of 0x5110 (0 PTP_EVENT, 1 PTP_GENERAL, 2 ESMC, 3 TPP, 4 HOST). -/
inductive RxClass where
  | control | ring (n : Nat)
  deriving DecidableEq, Repr

/-- The class of a frame (08 R207), first match. -/
def classOf (b : List Nat) (tppPort : Nat) : RxClass :=
  let f := frameInfo b
  if f.ethertype = 0x8808 then .control
  else if f.ethertype = 0x88F7 then .ring (if byteAt b f.l3 % 16 ≤ 3 then 0 else 1)
  else if f.udp && f.dport == 319 then .ring 0
  else if f.udp && f.dport == 320 then .ring 1
  else if f.ethertype = 0x8809 ∧ byteAt b f.l3 = 0x0A ∧ beN b (f.l3 + 1) 3 = 0x0019A7 then .ring 2
  else if f.ethertype = 0x88B5 ∨ (f.udp ∧ f.dport = tppPort) then .ring 3
  else .ring 4

/-- A destination address that is kept (08 R206). -/
def dstKept (dst mac : Nat) (allMulti : Bool) : Bool :=
  dst == mac || dst == 0xFFFFFFFFFFFF ||
    [0x011B19000000, 0x0180C200000E, 0x0180C2000001, 0x0180C2000002, 0x01005E000181, 0x01005E00006B, 0x333300000181,
      0x33330000006B].contains dst ||
    (allMulti && bit 40 dst)

/-! ### Checksums (08 R208, R218) -/

/-- The IPv4 header of a frame. -/
def ipv4Header (b : List Nat) (l3 : Nat) : List Nat := (b.drop l3).take (4 * (byteAt b l3 % 16))

/-- The IPv4 header checksum verifies, options included. -/
def ipv4Good (b : List Nat) (l3 : Nat) : Bool := onesSum (ipv4Header b l3) == 65535

/-- The pseudo-header and datagram over which a UDP checksum runs. -/
def udpSpan (b : List Nat) (l3 l4 : Nat) (v6 : Bool) : List Nat :=
  let n := be16 b (l4 + 4)
  let addrs := if v6 then (b.drop (l3 + 8)).take 32 else (b.drop (l3 + 12)).take 8
  addrs ++ [0, 17] ++ toBytes 2 n ++ (b.drop l4).take n

/-- A UDP checksum verifies, or was not computed (IPv4). -/
def udpGood (b : List Nat) (l3 l4 : Nat) (v6 : Bool) : Bool :=
  (!v6 && be16 b (l4 + 6) == 0) || onesSum (udpSpan b l3 l4 v6) == 65535

/-- The frame with its IPv4 header checksum written. -/
def setIpv4Check (b : List Nat) (l3 : Nat) : List Nat :=
  let b := putBytes b (l3 + 10) [0, 0]
  putBytes b (l3 + 10) (toBytes 2 (inetCheck (ipv4Header b l3)))

/-- The frame with its UDP checksum written; a computed 0 is sent as all ones. -/
def setUdpCheck (b : List Nat) (l3 l4 : Nat) (v6 : Bool) : List Nat :=
  let b := putBytes b (l4 + 6) [0, 0]
  let s := inetCheck (udpSpan b l3 l4 v6)
  putBytes b (l4 + 6) (toBytes 2 (if s = 0 then 65535 else s))

/-- The frame with the two bytes at an offset written so that the UDP checksum it carries is right (08 R219). -/
def setTrailer (b : List Nat) (l3 l4 off : Nat) (v6 : Bool) : List Nat :=
  let b := putBytes b off [0, 0]
  let rest := 65535 - onesSum (udpSpan b l3 l4 v6)
  putBytes b off (if (off - l4) % 2 = 0 then toBytes 2 rest else [rest % 256, rest / 256])

/-! ### Descriptors (08 R210, R216) -/

/-- The 32 bytes of a receive descriptor as a host window read shows it. -/
def rxDescBytes (d : RxDesc) : List Nat :=
  toBytes 16 d.stamp ++ toBytes 2 d.bytes.length ++ [0xFF, 0xFF, d.cls, d.flags, d.l3, d.l4] ++ toBytes 2 d.tci ++
    [d.prio, d.hand % 256, 0, 0, 0, 0]

/-- The 32 bytes of a transmit descriptor with its STATUS (08 R216, R222). -/
def txDescBytes (d : TxDesc) (status : Nat) : List Nat :=
  toBytes 2 d.bytes.length ++ toBytes 2 (d.cells.headD 0xFFFF) ++ [d.flags, d.prio * 32] ++ toBytes 2 d.tsId ++
    [d.l3, d.l4] ++ toBytes 2 d.ptp ++ toBytes 2 d.trailer ++ [d.teb, status] ++ toBytes 16 d.time

/-- The 32 bytes of a receive descriptor in its ring, with FIRST_CELL (08 R210). -/
def rxDescRing (d : RxDesc) : List Nat := putBytes (rxDescBytes d) 18 (toBytes 2 (d.cells.headD 0xFFFF))

/-- The link of a cell in a chain: the next cell, or 0xFFFF at its end (08 R210). -/
def cellLink : List Nat → Nat → Nat
  | a :: b :: t, n => if a = n then b else cellLink (b :: t) n
  | _, _ => 0xFFFF

/-- A read of an empty ring: a descriptor whose LENGTH is 0 (08 R215). -/
def emptyRxDesc : List Nat := List.replicate 32 0

/-- A transmit descriptor and its frame, from the bytes software writes; none when its length or a reserved code is wrong. -/
def txDescOf (b : List Nat) (ring : Nat) : Option TxDesc :=
  let n := be16 b 0
  let fl := byteAt b 4
  if b.length ≠ 32 + n ∨ field 2 1 fl = 3 ∨ 999999999 < tsNs (beN b 16 16) then none
  else some { bytes := b.drop 32, flags := fl / 2 * 2, prio := byteAt b 5 / 32, tsId := be16 b 6, l3 := byteAt b 8,
              l4 := byteAt b 9, ptp := be16 b 10, trailer := be16 b 12, teb := byteAt b 14, time := beN b 16 16,
              trick := none, ring := ring, tebTx := 0, cells := [] }

/-- Flags of a transmit descriptor. -/
def TxDesc.fcsAppend (d : TxDesc) : Bool := bit 7 d.flags
def TxDesc.ipv4Csum (d : TxDesc) : Bool := bit 6 d.flags
def TxDesc.udpCsum (d : TxDesc) : Bool := bit 5 d.flags
def TxDesc.tsRequest (d : TxDesc) : Bool := bit 4 d.flags
def TxDesc.launch (d : TxDesc) : Bool := bit 3 d.flags
def TxDesc.oneStep (d : TxDesc) : Nat := field 2 1 d.flags

/-- Cells a frame of `n` bytes needs. -/
def cellsOf (n : Nat) : Nat := ceilDiv n 256

/-- A descriptor is BAD_DESC (08 R217), under the port's MAX_FRAME. -/
def TxDesc.bad (d : TxDesc) (maxFrame : Nat) : Bool :=
  let n := d.bytes.length
  let f := frameInfo d.bytes
  let total := if d.fcsAppend then n + 4 else n
  let past (o : Nat) : Bool := o != 0 && decide (n ≤ o)
  decide (maxFrame < total) || decide (n < if d.fcsAppend then 60 else 64) ||
    past d.l3 || past d.l4 || past d.ptp || past d.trailer || (d.teb != 0 && decide (n ≤ d.ptp + d.teb)) ||
    (d.ipv4Csum && !(f.ipv4 && d.l3 == f.l3)) ||
    (d.udpCsum && !(f.udp && d.l4 == f.l4)) || (d.udpCsum && d.oneStep != 0) ||
    (d.oneStep != 0 && (d.ptp == 0 || (f.ipv6 && f.udp && d.trailer == 0))) ||
    (d.oneStep == 2 && d.launch)

/-- A stamp's reading in units of 2^−16 ns. -/
def tsUnits (t : Nat) : Nat := (tsSec t * 1000000000 + tsNs t) * 65536 + field 49 34 t

/-- One-step insertion at the wire (08 R219): `s` the frame's stamp, `trailer4` UDP4_ONE_STEP. -/
def oneStepInsert (d : TxDesc) (s : Nat) (trailer4 : Bool) (b : List Nat) : List Nat :=
  if d.oneStep = 0 then b
  else
    let f := frameInfo b
    let corr := beN b (d.ptp + 8) 8
    let b := if d.oneStep = 1 then
        putBytes (putBytes b (d.ptp + 34) (toBytes 6 (tsSec s) ++ toBytes 4 (tsNs s)))
          (d.ptp + 8) (toBytes 8 ((corr + field 49 34 s) % 2 ^ 64))
      else putBytes b (d.ptp + 8)
        (toBytes 8 (wrapInt 64 ((corr : Int) + (tsUnits s : Int) - (tsUnits d.time : Int))))
    let b := if d.teb = 0 then b else putBytes b (d.ptp + d.teb) (toBytes 4 (tsTeb s))
    if f.udp then
      if f.ipv4 && !trailer4 then putBytes b (f.l4 + 6) [0, 0]
      else if d.trailer = 0 then b else setTrailer b f.l3 f.l4 d.trailer f.ipv6
    else b

/-- The frame as the MAC completes it (08 R218). -/
def completeFrame (d : TxDesc) (s : Nat) (trailer4 : Bool) : List Nat :=
  let b := d.bytes
  let b := if d.ipv4Csum then setIpv4Check b d.l3 else b
  let f := frameInfo b
  let b := if d.udpCsum then setUdpCheck b f.l3 d.l4 f.ipv6 else b
  let b := oneStepInsert d s trailer4 b
  if d.fcsAppend then
    let b := b ++ List.replicate (60 - b.length) 0
    b ++ fcsOf b
  else if d.oneStep ≠ 0 then
    let b := b.take (b.length - 4)
    b ++ fcsOf b
  else b

end Sys2Proof.Machine
end

