-- ==== Sys2Proof/Machine/Ports.lean ====
section
/-!
DEFINITION. Sys2Proof/Machine/Ports.lean: the Ethernet ports: links, reception into rings of cells, transmission, timestamps and
their queues, the launch-time unit, flow control and low-power idle (07 R189–R193, R199–R201; 08 R202–R232), and the trick
plans by which transmission is gated (09 R236, R239, R242).
-/

namespace Sys2Proof.Machine

def Chip.port (c : Chip) (p : Nat) : Port := nth c.ports p default
def Chip.modPort (c : Chip) (p : Nat) (f : Port → Port) : Chip := { c with ports := modNth c.ports p f }

/-- A saturating port counter. -/
def Chip.count (c : Chip) (p sub : Nat) : Chip := c.inc (0x5020 + p) sub
/-- A saturating counter of octets, 64 bits wide (08 R232). -/
def Chip.octets (c : Chip) (p sub n : Nat) : Chip := c.wr (0x5020 + p) sub (satAdd 64 (c.rd (0x5020 + p) sub) n)

def Chip.portOn (c : Chip) (p : Nat) : Bool := c.live && decide (p < c.grade.ports) && c.rdb (0x5000 + p) 1 0
/-- PORT has its content: awake or dozing (14 R372). -/
def Chip.portAlive (c : Chip) : Bool := c.awake .port || c.dom .port == .gated || c.dom .port == .retained
def Chip.rateOf (c : Chip) (p : Nat) : Nat := c.rd (0x5000 + p) 2
def Chip.fecOf (c : Chip) (p : Nat) : Nat := c.rdf (0x5000 + p) 3 5 4
def Chip.up (c : Chip) (p : Nat) : Bool := c.rdb (0x5010 + p) 1 0

/-- One byte on the wire, in ps. -/
def Chip.byteTime (c : Chip) (p : Nat) : Nat := if c.rateOf p = 1 then 8000 else if c.rateOf p = 2 then 800 else 320

/-- Capture uncertainty of the port's stamps, in ps (05 R142). -/
def Chip.portUnc (c : Chip) (p : Nat) : Nat := if c.rateOf p = 1 then 4000 else if c.rateOf p = 2 then 1000 else 500

/-- The engine clock is on the LO (01 R35). -/
def Chip.onLo (c : Chip) : Bool := c.rd 0x4008 1 == 2

/-- Work is shed: the engine clock is on the LO, or has not reached its first deal since (01 R35). -/
def Chip.shedding (c : Chip) : Bool := c.onLo || c.start.shed

/-- Engines that work (17 R416). -/
def Chip.working (c : Chip) : Nat := ((List.range 16).filter (fun e => c.rd 0xE000 (3 + e) == 1)).length

/-- TPP frames taken in the present hand while work is shed, over every port (08 R209, 01 R35). -/
def Chip.tppTaken (c : Chip) : Nat := (c.ports.map Port.tppTaken).foldl (· + ·) 0

/-! ### Hands and plans as the MAC reads them (09) -/

/-- HAND_LENGTH, CLOSE_GUARD and DRAIN_TIME in ns (09 R233, R235). -/
def Chip.handLen (c : Chip) : Nat := c.rd 0x6000 1
def Chip.guard (c : Chip) : Nat := c.rd 0x6000 2
def Chip.drain (c : Chip) : Nat := c.rd 0x6000 3
/-- HAND_NUMBER (09 R234). -/
def Chip.handNo (c : Chip) : Nat := c.rd 0x6001 1
/-- The counter total in ns, and with its fraction (09 R234). -/
def Chip.totalNs (c : Chip) : Nat := c.time.seconds * 1000000000 + c.time.nanoseconds
def Chip.totalRat (c : Chip) : Rat := (c.time.total : Rat) / nsUnit
/-- The drain limit of the hand in progress (09 R235). -/
def Chip.drainLimit (c : Chip) : Nat := max c.hand.late (c.hand.ends - c.guard + c.drain)

/-- The fields of a trick entry (09 table "Trick entry"). -/
def trStart (e : Nat) : Nat := field 127 96 e
def trLen (e : Nat) : Nat := field 95 80 e
def trSession (e : Nat) : Nat := field 79 64 e
def trKinds (e : Nat) : Nat := field 63 48 e
def trFlags (e : Nat) : Nat := field 47 40 e
def trServo (e : Nat) : Bool := bit 46 e
def trLtu (e : Nat) : Bool := bit 47 e
def trExpect (e : Nat) : Bool := bit 55 e

/-- The active bank and its count; the idle ones. -/
def Chip.bank (c : Chip) (p b : Nat) : List (Nat × Nat) := nth (c.port p).banks b []
def Chip.activeBank (c : Chip) (p : Nat) : Nat := c.rd (0x6008 + p) 1
def Chip.activeCount (c : Chip) (p : Nat) : Nat := c.rd (0x6008 + p) 2
/-- Entry `i` of the active bank. -/
def Chip.trickAt (c : Chip) (p i : Nat) : Nat := (mget i (c.bank p (c.activeBank p))).getD 0
/-- Start and end of a trick of the hand in progress, as counter totals in ns (09 R239). -/
def Chip.trickStart_ (c : Chip) (e : Nat) : Nat := c.hand.deal + trStart e * 64
def Chip.trickEnd_ (c : Chip) (e : Nat) : Nat := c.trickStart_ e + trLen e * 64
/-- The start of the port's next trick (09 R242). -/
def Chip.nextTrick (c : Chip) (p : Nat) : Option Nat :=
  let i := (c.port p).begun
  if i < c.activeCount p then some (c.trickStart_ (c.trickAt p i)) else none

/-- The start of the first trick of the port's next hand: of the idle bank where a swap is due by then (09 R238). -/
def Chip.firstTrick (c : Chip) (p : Nat) : Option Nat :=
  let swaps := c.rdb (0x6008 + p) 5 0 && c.handLen != 0 && decide (c.rd (0x6008 + p) 4 ≤ c.hand.ends / c.handLen)
  let b := if swaps then 1 - c.activeBank p else c.activeBank p
  let n := if swaps then c.rd (0x6008 + p) 3 else c.activeCount p
  if n = 0 then none else some (c.hand.ends + trStart ((mget 0 (c.bank p b)).getD 0) * 64)

/-- The start of the port's next trick, of this hand or of the next (09 R242, 08 R228, R229). -/
def Chip.nextStart (c : Chip) (p : Nat) : Option Nat :=
  match c.nextTrick p with
  | some t => some t
  | none => c.firstTrick p

/-- A stamp lies in an open receive trick of the port (09 R243). -/
def Chip.inWindow (c : Chip) (p ns : Nat) : Bool :=
  (List.range (c.activeCount p)).any (fun i =>
    let e := c.trickAt p i
    trExpect e && decide (c.trickStart_ e ≤ ns) && decide (ns < c.trickEnd_ e))

/-! ### Cells and credit (08 R211–R213) -/

/-- RESERVE, SHARED_LIMIT, SLOTS, XOFF_CREDIT, XON_CREDIT, FLOW_GEN and PFC_PRIO of a receive ring. -/
def Chip.rxCfg (c : Chip) (p k : Nat) : Nat := c.rd (0x5110 + p) (k + 1)
def Chip.rxReserve (c : Chip) (p k : Nat) : Nat := field 63 50 (c.rxCfg p k)
def Chip.rxLimit (c : Chip) (p k : Nat) : Nat := field 49 36 (c.rxCfg p k)
def Chip.rxSlots (c : Chip) (p k : Nat) : Nat := field 35 24 (c.rxCfg p k)
def Chip.txReserve (c : Chip) (p k : Nat) : Nat := c.rdf (0x5118 + p) (k + 1) 31 18
def Chip.txSlots (c : Chip) (p k : Nat) : Nat := c.rdf (0x5118 + p) (k + 1) 17 6
def Chip.rxRing (c : Chip) (p k : Nat) : List RxDesc := nth (c.port p).rx k []
def Chip.txRing (c : Chip) (p k : Nat) : List TxDesc := nth (c.port p).tx k []

/-- The sum of RESERVE, and of SLOTS, over every ring of every present port. -/
def Chip.sumPorts (c : Chip) (f : Nat → Nat) : Nat := (List.range c.grade.ports).foldl (fun a p => a + f p) 0
def Chip.reserved (c : Chip) : Nat :=
  c.sumPorts (fun p => (List.range 5).foldl (fun a k => a + c.rxReserve p k) 0 +
    (List.range 3).foldl (fun a k => a + c.txReserve p k) 0)
def Chip.slots (c : Chip) : Nat :=
  c.sumPorts (fun p => (List.range 5).foldl (fun a k => a + c.rxSlots p k) 0 +
    (List.range 3).foldl (fun a k => a + c.txSlots p k) 0)

/-- Cells of the shared pool, less those withdrawn (08 R211, 17 R419). -/
def Chip.sharedCells (c : Chip) : Nat := 12288 - c.reserved - c.start.withdrawn.length
def Chip.sharedHeld (c : Chip) (p k : Nat) : Nat := (c.rxRing p k).foldl (fun a d => a + d.shared) 0
def Chip.reservedHeld (c : Chip) (p k : Nat) : Nat := (c.rxRing p k).foldl (fun a d => a + d.reserved) 0
def Chip.sharedFree (c : Chip) : Nat :=
  c.sharedCells - c.sumPorts (fun p => (List.range 5).foldl (fun a k => a + c.sharedHeld p k) 0)

/-- A receive ring's credit, given the free cells of the shared pool (08 R212). -/
def Chip.creditOf (c : Chip) (free p k : Nat) : Nat :=
  (c.rxReserve p k - c.reservedHeld p k) + min free (c.rxLimit p k - c.sharedHeld p k)
def Chip.credit (c : Chip) (p k : Nat) : Nat := c.creditOf c.sharedFree p k

/-- Cells held by a transmit ring. -/
def Chip.txHeld (c : Chip) (p k : Nat) : Nat := (c.txRing p k).foldl (fun a d => a + cellsOf d.bytes.length) 0

/-- Every descriptor a port holds to send. -/
def Port.toSend (x : Port) : List TxDesc := x.tx.flatten ++ x.ltu ++ x.late

/-- The cells that frames hold, and those withdrawn. -/
def Chip.cellsTaken (c : Chip) : List Nat :=
  c.start.withdrawn ++ c.ports.flatMap (fun x => x.rx.flatten.flatMap RxDesc.cells ++ x.toSend.flatMap TxDesc.cells)

/-- The link table's entry of a cell: the next cell of the frame that holds it, or 0xFFFF (08 R210). -/
def Chip.linkOf (c : Chip) (n : Nat) : Nat :=
  let chains := c.ports.flatMap (fun x => x.rx.flatten.map RxDesc.cells ++ x.toSend.map TxDesc.cells)
  match chains.find? (fun l => l.contains n) with
  | some l => cellLink l n
  | none => 0xFFFF

/-- A free cell: the first at or after one that the specification does not name (log 73). -/
def Chip.freeCell (c : Chip) (taken : List Nat) : Option Nat × Chip :=
  let a := Config.firstCell c.free % 12288
  (((List.range 12288).map (fun i => (a + i) % 12288)).find? (fun n => !taken.contains n), { c with free := c.free + 1 })

/-- `n` cells for a frame, one at a time (08 R212). -/
def Chip.takeCells (c : Chip) : Nat → List Nat × Chip
  | 0 => ([], c)
  | n + 1 =>
    let r := c.takeCells n
    match r.2.freeCell (r.1 ++ c.cellsTaken) with
    | (some x, c') => (r.1 ++ [x], c')
    | (none, c') => (r.1, c')

/-- SHARED_LOW_WATER follows the pool (08 R211). -/
def Chip.showPool (c : Chip) : Chip := c.wr 0x5100 4 (min c.sharedFree (c.rd 0x5100 4))
/-- The objects that show a port's rings. -/
def Chip.showRings (c : Chip) (p : Nat) : Chip :=
  c.each 5 (fun k c => c.wr (0x5120 + p) (k + 1)
    ((c.reservedHeld p k + c.sharedHeld p k) * 65536 + (c.rxRing p k).length))

/-! ### Flow control generated (08 R227) -/

def Chip.xoffBit (c : Chip) (p k : Nat) : Bool := c.rdb (0x5120 + p) 6 k

/-- What a port's rings ask its partner to hold: everything in PAUSE mode, priorities in PFC mode (08 R227). -/
def Chip.flowAsked (c : Chip) (p : Nat) : List (Option Nat) :=
  let low (k : Nat) : Bool := c.xoffBit p k && bit 7 (c.rxCfg p k)
  match c.rd (0x5000 + p) 7 with
  | 1 => if (List.range 5).any low then [none] else []
  | 2 => ((List.range 8).filter (fun q => (List.range 5).any (fun k => low k && field 6 4 (c.rxCfg p k) == q))).map some
  | _ => []

/-- A frame to send is queued; one of its kind that waits is replaced. -/
def Chip.flowQueue (c : Chip) (p t : Nat) (q : Option Nat) : Chip :=
  c.modPort p (fun x => { x with control := x.control.filter (fun f => f.1 != q) ++ [(q, t)] })

/-- XOFF_STATE follows the credit of a port's rings; what the port asks of its partner is told with PAUSE_TIME, and its end with 0. -/
def Chip.flowWatch (c : Chip) (p : Nat) : Chip :=
  let free := c.sharedFree
  let c := c.each 5 (fun k c =>
    let cr := c.creditOf free p k
    let b := if cr < field 23 16 (c.rxCfg p k) then true
      else if field 15 8 (c.rxCfg p k) ≤ cr then false else c.xoffBit p k
    c.iff (b != c.xoffBit p k) (fun c => c.wrb (0x5120 + p) 6 k b))
  let ask := if c.up p then c.flowAsked p else []
  let old := (c.port p).told
  if ask = old then c
  else
    let c := c.modPort p (fun x => { x with told := ask })
    let c := (ask.filter (fun q => !old.contains q)).foldl (fun c q => c.flowQueue p (c.rd (0x5000 + p) 0x13) q) c
    c.iff (c.up p) (fun c => (old.filter (fun q => !ask.contains q)).foldl (fun c q => c.flowQueue p 0 q) c)

/-- Half of PAUSE_TIME has passed with a ring still low: the frame is sent again. -/
def Chip.pauseRefresh (c : Chip) (p : Nat) : Chip :=
  if !c.up p then c else (c.flowAsked p).foldl (fun c q => c.flowQueue p (c.rd (0x5000 + p) 0x13) q) c

/-! ### Links (08 R203, R204) -/

/-- A transmit descriptor is returned with a status (08 R222). -/
def Chip.txStatus (c : Chip) (p : Nat) (d : TxDesc) (code : Nat) : Chip :=
  if d.ring = 2 then (c.wr (0x5120 + p) 7 code).wr (0x5120 + p) 8 d.tsId
  else c.modPort p (fun x => { x with back := setNth x.back d.ring (txDescBytes d code) })

/-- A frame that asked for a stamp is not sent (07 R191). -/
def Chip.noStamp (c : Chip) (p : Nat) (d : TxDesc) : Chip := c.iff d.tsRequest (fun c => c.inc (0x5200 + p) 7)

/-- Every queued frame is returned with status LINK_DOWN (08 R204). -/
def Chip.flushTx (c : Chip) (p : Nat) : Chip :=
  let ds := (c.port p).toSend
  let c := ds.foldl (fun c d => ((c.txStatus p d 2).noStamp p d).count p 0x1B) c
  let c := c.modPort p (fun x => { x with tx := List.replicate 3 [], ltu := [], late := [], control := [], told := [] })
  c.wr (0x5220 + p) 3 0

/-- LINK_UP falls (08 R204). `pennant`: not for a port that the power state stops (14 R361). -/
def Chip.linkFall (c : Chip) (p : Nat) (pennant : Bool) : Chip :=
  let was := c.up p
  let c := c.iff (was && (c.port p).receiving) (fun c => c.count p 8)
  let c := c.modPort p (fun x => { x with
    good := false, receiving := false, pauseEnd := none, pfcEnd := List.replicate 8 none })
  let c := (c.wr (0x5010 + p) 1 (c.rd (0x5010 + p) 1 / 256 * 256)).wr (0x5010 + p) 2 0
  if !was then c
  else
    let c := (c.count p 0x1F).wr (0x5010 + p) 6 c.now
    (c.iff pennant (fun c => c.raise (80 + p) p 0)).flushTx p

/-- A link condition is lost (08 R204). `rx`: a frame was being received; `pcs`: the PCS has lost lock. -/
def Chip.linkDown (c : Chip) (p : Nat) (rx pcs : Bool) : Chip :=
  if !c.portOn p || !c.portAlive then c
  else
    let lock := c.rdb (0x5010 + p) 1 1 && !pcs
    let c := (c.modPort p (fun x => { x with receiving := rx })).linkFall p true
    c.wrb (0x5010 + p) 1 1 lock

/-- The PCS locks, with the partner's abilities at 1G (08 R203, R204). -/
def Chip.pcsLock (c : Chip) (p : Nat) (duplex pause asmDir gigabit : Bool) : Chip :=
  if !c.portOn p || !c.portAlive then c
  else
    let an := c.rateOf p == 1 && c.rdb (0x5000 + p) 3 2
    let sgmii := c.rateOf p == 1 && c.rdb (0x5000 + p) 3 3
    let slow := an && sgmii && !gigabit
    let ok := !slow && !(an && !sgmii && !duplex)
    let c := (c.wrb (0x5010 + p) 1 1 true).wrb (0x5010 + p) 1 9 slow
    let c := c.wrb (0x5010 + p) 1 5 an
    let c := (c.wrb (0x5010 + p) 1 4 (an && !sgmii && pause)).wrb (0x5010 + p) 1 3 (an && !sgmii && asmDir)
    c.modPort p (fun x => { x with good := ok })

/-- The link conditions have held for 10 ms (08 R204). -/
def Chip.linkRise (c : Chip) (p : Nat) : Chip :=
  if !c.portOn p || !c.portAlive || !(c.port p).good || c.up p then c
  else (c.wrb (0x5010 + p) 1 0 true).drop (80 + p)

/-- The link restarts: enabled anew or with another line mode (08 R204). -/
def Chip.linkRestart (c : Chip) (p : Nat) : Chip := (c.linkFall p true).wrb (0x5010 + p) 1 1 false

/-- A port follows whether it is enabled and PORT has its content. -/
def Chip.portWatch (c : Chip) (p : Nat) : Chip :=
  let c := c.iff (decide (c.rd (0x5010 + p) 3 < c.rd (0x5000 + p) 0x0C)) (fun c => c.wr (0x5010 + p) 3 (c.rd (0x5000 + p) 0x0C))
  let c := if c.portOn p && c.portAlive then c
    else
      let stopped := !c.portAlive
      let c := if c.rd (0x5010 + p) 1 % 256 = 0 then c else c.linkFall p (!stopped)
      c.iff (!c.portOn p || stopped) (fun c => c.iff (c.src (80 + p)).live (fun c => c.drop (80 + p)))
  c.iff (c.port p).receiving (fun c => c.modPort p (fun x => { x with receiving := false }))

/-- The lane takes its reference from the group (08 R205). -/
def Chip.txRefReason (c : Chip) (p : Nat) : Nat :=
  let g := c.rd (0x5000 + p) 6
  let lane := if c.rateOf p = 1 then 125000000000 else 156250000000
  if c.gState g ≠ 3 then 1 else if c.rd (0x4018 + g) 2 % lane ≠ 0 then 2 else 0

/-- TX_REF_FALLBACK follows the group's state (08 R205). -/
def Chip.txRefWatch (c : Chip) (p : Nat) : Chip :=
  let named := c.portOn p && c.portAlive && decide (c.rd (0x5000 + p) 6 < 8)
  let why := if named then c.txRefReason p else 0
  let was := c.rdb (0x5010 + p) 1 8
  let c := c.iff (was != (why != 0)) (fun c => c.wrb (0x5010 + p) 1 8 (why != 0))
  c.iff (why != 0 && !was) (fun c => (c.wr (0x5010 + p) 4 why).count p 0x1E)

/-! ### Stamps (07 R189–R193) -/

/-- A receive stamp for a detection instant `ps` after the present tick (07 R189, R190). -/
def Chip.rxStamp (c : Chip) (p ps : Nat) (bad : Bool) : Nat :=
  let trim := Config.rxTrim p (c.rateOf p) (c.fecOf p) + c.rdi (0x5210 + p) 1 32
  c.stampAt (c.readPs + ps - trim) (c.portUnc p) (p * 8192 + bad.toNat * 4096)

/-- A transmit stamp. -/
def Chip.txStamp (c : Chip) (p : Nat) (ps : Int) (tag : Nat) : Nat :=
  let trim := Config.txTrim p (c.rateOf p) (c.fecOf p) + c.rdi (0x5210 + p) 2 32
  c.stampAt (c.readPs + ps + trim) (c.portUnc p) tag

/-- LEVEL_ENGINE and LEVEL_HOST. -/
def Chip.showQueue (c : Chip) (p : Nat) : Chip :=
  (c.wr (0x5200 + p) 2 (c.port p).tsEngine.length).wr (0x5200 + p) 3 (c.port p).tsHost.length

/-- A transmit stamp joins its partition, or is lost (07 R191, R192). -/
def Chip.pushStamp (c : Chip) (p s : Nat) (host : Bool) : Chip :=
  let q := if host then (c.port p).tsHost else (c.port p).tsEngine
  let room := if host then c.rd (0x5200 + p) 1 else 64 - c.rd (0x5200 + p) 1
  if q.length < room then
    (c.modPort p (fun x => if host then { x with tsHost := x.tsHost ++ [s] } else { x with tsEngine := x.tsEngine ++ [s] }))
      |>.showQueue p
  else
    let c := c.iff (c.rd (0x5200 + p) 4 == 0) (fun c => c.wr (0x5200 + p) 5 (tsTag s))
    (c.inc (0x5200 + p) 4).raise 90 p 0

/-- TS_QUEUE_HEAD: the oldest host stamp, removed; all zeros when empty (07 R191). -/
def Chip.queueHead (c : Chip) (p : Nat) : Nat × Chip :=
  match (c.port p).tsHost with
  | [] => (0, c)
  | s :: t => (s, (c.modPort p (fun x => { x with tsHost := t })).showQueue p)

/-- Engine stamps are discarded at a deal (07 R193). -/
def Chip.staleStamps (c : Chip) (p : Nat) : Chip :=
  let n := (c.port p).tsEngine.length
  ((c.incBy (0x5200 + p) 6 n).modPort p (fun x => { x with tsEngine := [] })).showQueue p

/-! ### Reception (08 R206–R214, R223–R226) -/

/-- How the reception of a frame ends. -/
def Chip.pauseTime (c : Chip) (p quanta : Nat) : Nat := quanta * 64 * c.byteTime p * nsUnit / 1000

/-- The pause timer is set (08 R224). -/
def Chip.setPause (c : Chip) (p quanta : Nat) : Chip :=
  let e := if quanta = 0 then none else some (c.time.mono + c.pauseTime p quanta)
  (c.modPort p (fun x => { x with pauseEnd := e })).wrb (0x5010 + p) 1 2 e.isSome

/-- A priority's pause timer is set (08 R226). -/
def Chip.setPfc (c : Chip) (p q quanta : Nat) : Chip :=
  let e := if quanta = 0 then none else some (c.time.mono + c.pauseTime p quanta)
  (c.modPort p (fun x => { x with pfcEnd := setNth x.pfcEnd q e })).wrb (0x5010 + p) 2 q e.isSome

/-- A MAC control frame (08 R207, R223–R226). -/
def Chip.macControl (c : Chip) (p : Nat) (b : List Nat) : Chip :=
  let f := frameInfo b
  let op := be16 b f.l3
  let mode := c.rd (0x5000 + p) 7
  let ok := fcsGood b && (f.dst == 0x0180C2000001 || f.dst == c.rd (0x5000 + p) 4)
  if op ≠ 0x0001 ∧ op ≠ 0x0101 then c.count p 0x10
  else if op = 0x0001 then
    if c.rd (0x5000 + p) 8 = 0 then c
    else if ok && mode = 1 then ((c.octets p 1 b.length).count p 0x11).setPause p (be16 b (f.l3 + 2))
    else c.count p 0x13
  else if ok && mode = 2 then
    ((c.octets p 1 b.length).count p 0x12).each 8 (fun q c =>
      c.iff (bit q (be16 b (f.l3 + 2))) (fun c => c.setPfc p q (be16 b (f.l3 + 4 + 2 * q))))
  else c.count p 0x13

/-- Octets of a delivered frame with good check, the check with them (08 0x5020:01). -/
def RxDesc.octets (d : RxDesc) : Nat :=
  if bit 12 (tsTag d.stamp) then 0 else d.bytes.length + if bit 1 d.flags then 0 else 4

/-- A checked frame enters a ring, or finds no slot or no cell (08 R213, R214). -/
def Chip.rxStore (c : Chip) (p k : Nat) (d : RxDesc) : Chip :=
  let n := cellsOf d.bytes.length
  if c.rxSlots p k ≤ (c.rxRing p k).length then c.count p 0x0C
  else if c.credit p k = 0 then c.count p 0x0D
  else if c.credit p k < n then (c.count p 0x0E).raise 88 p 0
  else
    let r := min n (c.rxReserve p k - c.reservedHeld p k)
    let x := c.takeCells n
    let d := { d with reserved := r, shared := n - r, cells := x.1 }
    let c := x.2
    let c := c.modPort p (fun x => { x with rx := modNth x.rx k (fun l => l ++ [d]) })
    ((c.octets p 1 d.octets).showRings p).showPool

/-- A frame is received in full, from its destination address to its check (08 R206–R210). -/
def Chip.rxFrame (c : Chip) (p : Nat) (b : List Nat) (ps : Nat) : Chip :=
  let f := frameInfo b
  let good := fcsGood b
  let c := if good then c.count p 3 else c.count p 5
  if b.length < 64 then
    let op := be16 b f.l3
    let flow := classOf b (c.rd 0x1100 3) == .control && (op == 0x0101 || (op == 0x0001 && c.rd (0x5000 + p) 8 != 0))
    (c.count p 6).iff flow (fun c => c.count p 0x13)
  else if c.rd (0x5000 + p) 5 < b.length then c.count p 7
  else if !dstKept f.dst (c.rd (0x5000 + p) 4) (c.rdb (0x5000 + p) 0x0B 0) then c.count p 0x0B
  else
    let cls := classOf b (c.rd 0x1100 3)
    if good && cls == .control then c.macControl p b
    else
      let op := be16 b f.l3
      let flow := cls == .control && (op == 0x0101 || (op == 0x0001 && c.rd (0x5000 + p) 8 != 0))
      let c := c.iff flow (fun c => c.count p 0x13)
      let k := match good, cls with
        | true, .ring k => k
        | _, _ => 4
      if !good && !c.rdb (0x5000 + p) 9 2 then c
      else
        let stamp := c.rxStamp p ps (!good)
        let ns := tsSec stamp * 1000000000 + tsNs stamp
        let shed := c.shedding && (k == 4 || (decide (k ≤ 1) && !c.inWindow p ns) || (k == 3 && decide (c.working ≤ c.tppTaken)))
        if shed then c.count p 0x0F
        else
          let c := c.iff (!good) (fun c => c.count p 0x14)
          let c := c.iff (c.shedding && k == 3) (fun c => c.modPort p (fun x => { x with tppTaken := x.tppTaken + 1 }))
          let bad4 := c.rdb (0x5000 + p) 9 0 && f.ipv4 && !ipv4Good b f.l3
          let badU := c.rdb (0x5000 + p) 9 1 && f.udp && !udpGood b f.l3 f.l4 f.ipv6
          let c := (c.iff bad4 (fun c => c.count p 9)).iff badU (fun c => c.count p 0x0A)
          if (bad4 || badU) && k != 4 && k != 2 then c
          else
            let keep := k == 4 && c.rdb (0x5000 + p) 9 3
            let body := if keep then b else b.take (b.length - 4)
            let flags := f.tagged.toNat * 128 + f.ipv4.toNat * 64 + f.ipv6.toNat * 32 + f.udp.toNat * 16 +
              bad4.toNat * 8 + badU.toNat * 4 + keep.toNat * 2
            let prio := if f.tagged then f.tci / 8192 else c.rd (0x5000 + p) 0x12
            let hand := if c.handLen = 0 then 0 else ns / c.handLen
            let c := c.iff (k == 0 && !c.inWindow p ns) (fun c => c.inc (0x6020 + p) 8)
            c.rxStore p k ⟨stamp, k, flags, if f.ipv4 || f.ipv6 then f.l3 else 0, f.l4, f.tci, prio, hand, body, 0, 0, [], none⟩

/-- The engine image was refused and no engine runs: the device serves from its timing channels only (15 R388, 17 R412). -/
def Chip.timingOnly (c : Chip) : Bool :=
  c.start.imageBad && !c.start.loading && !(List.range c.grade.engines).any (fun e =>
    c.rd 0xE000 (3 + e) == 1 || c.rd 0xE000 (3 + e) == 2)

/-- The port's frames pass: its link is up, PORT is awake, and the device is not left to its timing channels (15 R388). -/
def Chip.carries (c : Chip) (p : Nat) : Bool := c.up p && c.awake .port && !c.timingOnly

/-- A reception on a port (08 R206): `codeError` ends it in a PCS error, `lost` loses it to the partner's wake (08 R230); FEC
codewords corrected and not correctable are counted with it. -/
def Chip.frameReceive (c : Chip) (p : Nat) (b : List Nat) (ps : Nat) (codeError lost : Bool) (fecOk fecBad : Nat) : Chip :=
  if !c.portOn p || !c.carries p then c
  else
    let c := (c.incBy (0x5020 + p) 0x20 fecOk).incBy (0x5020 + p) 0x21 fecBad
    if lost then c.count p 0x15
    else if codeError then c.count p 8
    else c.rxFrame p b ps

/-- The oldest frame of a receive ring, released (08 R215). -/
def Chip.rxTake (c : Chip) (p k : Nat) : Option RxDesc × Chip :=
  match c.rxRing p k with
  | [] => (none, c)
  | d :: t =>
    let c := c.modPort p (fun x => { x with rx := setNth x.rx k t })
    (some d, (c.showRings p).showPool)

/-- HOST_FRAME_RX: the descriptor, then the frame bytes (08 R215). -/
def Chip.hostFrame (c : Chip) (p : Nat) : List Nat × Chip :=
  match c.rxTake p 4 with
  | (some d, c) => (rxDescBytes d ++ d.bytes, c)
  | (none, c) => (emptyRxDesc, c)

/-! ### Transmission (08 R216–R222, 09 R239, R242) -/

/-- Between the guard start and the drain limit of a hand the rings take no frame for it (09 R245 step 1). -/
def Chip.closing (c : Chip) : Bool := c.hand.stage == 1 || (c.hand.stage == 3 && c.hand.backlog == 1)

/-- A frame joins a transmit ring, if a slot and its cells are free; a best-effort frame then stands for the coming hand. -/
def Chip.txQueue (c : Chip) (p : Nat) (d : TxDesc) : Option Chip :=
  let k := d.ring
  if c.txSlots p k ≤ (c.txRing p k).length ∨ c.txReserve p k < c.txHeld p k + cellsOf d.bytes.length then none
  else
    let y := c.takeCells (cellsOf d.bytes.length)
    let d := { d with cells := y.1 }
    some (y.2.modPort p (fun x => { x with
    tx := modNth x.tx k (fun l => l ++ [d]), fresh := if k = 1 ∧ c.closing then x.fresh + 1 else x.fresh }))

/-- The MAC may start no frame of this ring and priority now (08 R224–R226, R229). -/
def Chip.held (c : Chip) (p ring prio : Nat) : Bool :=
  let mode := c.rd (0x5000 + p) 8
  let exempt := mode == 2 && ring == 0
  !c.carries p || c.rdb (0x5010 + p) 1 7 || decide (c.time.mono < (c.port p).wakeEnd) ||
    (!exempt && (c.rdb (0x5010 + p) 1 2 || c.rdb (0x5010 + p) 2 prio))

/-- Time on the wire of a frame of `n` bytes with its check, preamble and gap, in ns. -/
def Chip.wireNs (c : Chip) (p n : Nat) : Rat := ((n + 20) * c.byteTime p : Nat) / 1000

/-- The next launch of the LTU leaves room for a frame that is off the wire at an instant (07 R199). -/
def Chip.launchRoom (c : Chip) (p : Nat) (done : Rat) : Bool :=
  match (c.port p).ltu with
  | l :: _ => decide (done ≤ (tsUnits l.time : Rat) / 65536)
  | [] => true

/-- A generated flow-control frame sent now would still be on the wire at the start of the next SCHED frame or launch (08 R228). -/
def Chip.controlClash (c : Chip) (p : Nat) : Bool :=
  let done := c.totalRat + c.wireNs p 64
  (match c.nextStart p with
    | some n => decide ((n : Rat) < done)
    | none => false) ||
  (match (c.port p).open_ with
    | some t => t.reason == 0 && (c.txRing p 0).any (fun d => d.trick == some t.idx)
    | none => false) || !c.launchRoom p done

/-- Generated frames go ahead of a queued frame, unless a frame of the SCHED ring is what they wait for (08 R228). -/
def Chip.controlFirst (c : Chip) (p ring : Nat) : Bool :=
  !(c.port p).control.isEmpty && !(ring == 0 && c.controlClash p)

/-- A frame of a ring may start now (07 R199, 08 R228, 09 R239, R242). -/
def Chip.mayStart (c : Chip) (p : Nat) (d : TxDesc) : Bool :=
  let n := if d.fcsAppend then max 64 (d.bytes.length + 4) else d.bytes.length
  let done := c.totalRat + c.wireNs p n
  let before (t : Nat) : Bool := decide (done ≤ (t : Rat))
  !c.held p d.ring d.prio && c.launchRoom p done && !c.controlFirst p d.ring &&
    (match d.ring, (c.port p).open_ with
     | 0, some t => t.reason == 0 && d.trick == some t.idx && before (c.trickEnd_ (c.trickAt p t.idx))
     | 0, none => false
     | _, some _ => false
     | k, none =>
       (match c.nextStart p with
        | some t => before t
        | none => true) &&
        (k == 2 || (before c.drainLimit && !(c.closing && decide ((c.txRing p 1).length ≤ (c.port p).fresh)))))

/-- A frame of the descriptor is sent store-and-forward (08 R220). -/
def Chip.storeForward (c : Chip) (p : Nat) (d : TxDesc) : Bool :=
  decide (d.bytes.length ≤ 256) || d.oneStep != 0 || d.udpCsum || d.ring == 2 ||
    decide (cellsOf d.bytes.length ≤ c.rd (0x5010 + p) 3)

/-- A message without a timestamp of its own takes the bound of now (05 R143). -/
def Chip.boundAtSend (c : Chip) (p : Nat) (d : TxDesc) : TxDesc :=
  if d.tebTx = 0 then d else { d with bytes := putBytes d.bytes (d.ptp + d.tebTx) (toBytes 4 (c.tebNow (c.portUnc p))) }

/-- A frame is sent in full with its stamp (08 R218, R221, 07 R191). -/
def Chip.sendFrame (c : Chip) (p : Nat) (d : TxDesc) (s : Nat) : Chip :=
  let d := c.boundAtSend p d
  let b := completeFrame d s (c.rd (0x5000 + p) 0x0A == 1)
  let run := (c.port p).run + 1
  let c := c.modPort p (fun x => { x with wire := b, wireStamp := s, run := run % 65536 })
  let c := c.iff (run == 65536 && decide (c.rd (0x5000 + p) 0x0C < c.rd (0x5010 + p) 3)) (fun c =>
    c.wr (0x5010 + p) 3 (c.rd (0x5010 + p) 3 - 1))
  let c := (c.octets p 2 b.length).wr (0x5020 + p) 4 (satAdd 32 (c.rd (0x5020 + p) 4) 1)
  let c := c.txStatus p d 0
  c.iff d.tsRequest (fun c => c.pushStamp p s (d.ring == 2))

/-- A frame under transmission runs out of bytes (08 R221). -/
def Chip.underrun (c : Chip) (p : Nat) (d : TxDesc) (sent : Nat) : Chip :=
  let d := c.boundAtSend p d
  let b := (if d.ipv4Csum then setIpv4Check d.bytes d.l3 else d.bytes).take sent
  let c := c.modPort p (fun x => { x with wire := b ++ (fcsOf b).map (fun v => 255 - v), run := 0 })
  let c := ((c.txStatus p d 1).noStamp p d).count p 0x19
  let top := cellsOf (c.rd (0x5000 + p) 5)
  let c := c.iff (decide (c.rd (0x5010 + p) 3 < top)) (fun c => c.wr (0x5010 + p) 3 (c.rd (0x5010 + p) 3 + 1))
  c.raise 89 p 0

/-- LEVEL of the LTU. -/
def Chip.showLtu (c : Chip) (p : Nat) : Chip := c.wr (0x5220 + p) 3 (c.port p).ltu.length

/-- A late frame may start now: the MAC is not held, no other launch is overlapped, and no generated frame goes first (07 R199, 08
R228, R229). -/
def Chip.lateMay (c : Chip) (p : Nat) (d : TxDesc) : Bool :=
  let n := if d.fcsAppend then max 64 (d.bytes.length + 4) else d.bytes.length
  !c.held p 0 d.prio && c.launchRoom p (c.totalRat + c.wireNs p n) && ((c.port p).control.isEmpty || c.controlClash p)

/-- The first late frame is sent, if it may start (07 R200). -/
def Chip.lateSend (c : Chip) (p : Nat) : Chip × Option (TxDesc × Nat) :=
  match (c.port p).late with
  | [] => (c, none)
  | d :: t =>
    if !c.lateMay p d then (c, none)
    else
      let s := c.txStamp p 0 d.tsId
      (((c.modPort p (fun x => { x with late := t })).inc (0x5220 + p) 6).sendFrame p d s, some (d, s))

/-- A late frame is discarded, or sent at once as soon as the MAC may start it (07 R200). -/
def Chip.ltuLateFrame (c : Chip) (p : Nat) (d : TxDesc) : Chip × Option (TxDesc × Nat) :=
  if c.rd (0x5220 + p) 1 = 0 || !c.up p then
    (((c.inc (0x5220 + p) 5).txStatus p d 5).noStamp p d, none)
  else (c.modPort p (fun x => { x with late := x.late ++ [d] })).lateSend p

/-- Insert in launch-time order, equal times in order of arrival. -/
def ltuInsert (d : TxDesc) : List TxDesc → List TxDesc
  | [] => [d]
  | x :: t => if tsUnits d.time < tsUnits x.time then d :: x :: t else x :: ltuInsert d t

/-- A frame enters the LTU (07 R199, R200). -/
def Chip.ltuEnter (c : Chip) (p : Nat) (d : TxDesc) : Chip × Option (TxDesc × Nat) :=
  if 256 ≤ (c.port p).ltu.length then (((c.inc (0x5220 + p) 7).txStatus p d 4).noStamp p d, none)
  else if (tsUnits d.time : Rat) / 65536 < c.totalRat + 1000 then c.ltuLateFrame p d
  else ((c.modPort p (fun x => { x with ltu := ltuInsert d x.ltu })).showLtu p, none)

/-- The MAC takes the head of a transmit ring: returns it as bad, hands it to the LTU, or sends it; `cut`: its bytes run out
after that many. Answers the frame sent with its stamp. -/
def Chip.transmit (c : Chip) (p ring ps : Nat) (cut : Option Nat) : Chip × Option (TxDesc × Nat) :=
  match c.txRing p ring with
  | [] => (c, none)
  | d :: t =>
    let pop (c : Chip) : Chip := c.modPort p (fun x => { x with tx := setNth x.tx ring t })
    let d' := if d.launch && !c.grade.ltu then { d with flags := d.flags - 8 } else d
    let ignored := d.launch && !c.grade.ltu
    if !c.up p || !c.awake .port then (c, none)
    else if d'.bad (c.rd (0x5000 + p) 5) then ((((pop c).txStatus p d 3).noStamp p d).count p 0x1A, none)
    else if d'.launch then (pop c).ltuEnter p d'
    else if !c.mayStart p d' then (c, none)
    else
      let c := (pop c).iff ignored (fun c => c.count p 0x1C)
      match cut with
      | some n =>
        if n < d'.bytes.length && !c.storeForward p d' && decide (256 * c.rd (0x5010 + p) 3 ≤ n) then (c.underrun p d' n, none)
        else
          let s := c.txStamp p ps d'.tsId
          (c.sendFrame p d' s, some (d', s))
      | none =>
        let s := c.txStamp p ps d'.tsId
        (c.sendFrame p d' s, some (d', s))

/-- The LTU starts its first frame, its timestamp point `err` ps from the launch time: within ±2 ns it meets its time (07 R199). -/
def Chip.ltuLaunch (c : Chip) (p : Nat) (err : Int) : Chip × Option (TxDesc × Nat) :=
  match (c.port p).ltu with
  | [] => (c, none)
  | d :: t =>
    if c.held p 0 d.prio || ((c.rd (0x5220 + p) 2 * 1000 : Nat) : Int) < err then (c, none)
    else
      let c := (c.modPort p (fun x => { x with ltu := t })).showLtu p
      let s := c.stampAt ((tsUnits d.time : Rat) * 1000 / 65536 + err) (c.portUnc p) d.tsId
      ((c.iff (decide (err.natAbs ≤ 2000)) (fun c => c.inc (0x5220 + p) 4)).sendFrame p d s, some (d, s))

/-- A launch held beyond its time plus LATE_TOLERANCE (07 R200), or a late frame that may start by now. -/
def Chip.ltuLate (c : Chip) (p : Nat) : Chip × Option (TxDesc × Nat) :=
  match (c.port p).ltu with
  | [] => c.lateSend p
  | d :: t => ((c.modPort p (fun x => { x with ltu := t })).showLtu p).ltuLateFrame p d

/-- The bytes of a generated flow-control frame (08 R227, R228). -/
def Chip.controlFrame (c : Chip) (p : Nat) (f : Option Nat × Nat) : List Nat :=
  let body := match f.1 with
    | none => [0x00, 0x01] ++ toBytes 2 f.2
    | some q => [0x01, 0x01] ++ toBytes 2 (2 ^ q) ++
        (List.range 8).flatMap (fun i => toBytes 2 (if i = q then f.2 else 0))
  let b := toBytes 6 0x0180C2000001 ++ toBytes 6 (c.rd (0x5000 + p) 4) ++ [0x88, 0x08] ++ body
  let b := b ++ List.replicate (60 - b.length) 0
  b ++ fcsOf b

/-- A generated frame is sent, unless it would still be on the wire at the next SCHED frame or launch (08 R228). -/
def Chip.sendControl (c : Chip) (p : Nat) : Chip :=
  match (c.port p).control with
  | [] => c
  | f :: t =>
    let asleep := c.rdb (0x5010 + p) 1 7 || decide (c.time.mono < (c.port p).wakeEnd)
    if !c.carries p || asleep || c.controlClash p then c
    else
      let b := c.controlFrame p f
      (c.modPort p (fun x => { x with control := t, wire := b })).count p (if f.1.isNone then 0x17 else 0x18)

/-- HOST_FRAME_TX: a host frame joins its ring; none when there is no room (08 R216). -/
def Chip.hostTx (c : Chip) (p : Nat) (b : List Nat) : Option Chip :=
  match txDescOf b 2 with
  | some d => c.txQueue p d
  | none => none

/-! ### Timers and low-power idle (08 R224, R226, R229, R230) -/

def Chip.pauseExpire (c : Chip) (p : Nat) : Chip := if (c.port p).pauseEnd.isSome then c.setPause p 0 else c
def Chip.pfcExpire (c : Chip) (p q : Nat) : Chip := if (nth (c.port p).pfcEnd q none).isSome then c.setPfc p q 0 else c

/-- The transmitter enters low-power idle (08 R229). -/
def Chip.txIdle (c : Chip) (p : Nat) : Chip :=
  let x := c.port p
  let far (t : Rat) : Bool := decide (c.totalRat + 2 * (c.rd (0x5000 + p) 0x0F : Rat) < t)
  let away := match c.nextStart p with
    | some n => far n
    | none => true
  if !c.rdb (0x5000 + p) 0x0D 0 || !c.up p || c.rdb (0x5010 + p) 1 7 || !x.toSend.isEmpty ||
      !x.control.isEmpty ||
      !away then c
  else (c.wrb (0x5010 + p) 1 7 true).count p 0x1D

/-- The transmitter leaves low-power idle; no frame starts for TX_WAKE (08 R229). -/
def Chip.txWake (c : Chip) (p : Nat) : Chip :=
  if !c.rdb (0x5010 + p) 1 7 then c
  else (c.wrb (0x5010 + p) 1 7 false).modPort p (fun x => { x with
    wakeEnd := c.time.mono + c.rd (0x5000 + p) 0x0F * nsUnit })

/-- The partner signals low-power idle, or its end (08 R230). -/
def Chip.rxIdle (c : Chip) (p : Nat) : Chip :=
  if !c.up p || c.rdb (0x5010 + p) 1 6 then c else (c.wrb (0x5010 + p) 1 6 true).count p 0x16
def Chip.rxWake (c : Chip) (p : Nat) : Chip := c.wrb (0x5010 + p) 1 6 false

/-! ### Content lost, writes -/

/-- PORT loses its content (14 R363): links, frames, stamp queues and launches. -/
def Chip.portLost (c : Chip) : Chip :=
  c.each 8 (fun p c =>
    let c := c.iff (c.up p) (fun c => c.linkFall p false)
    let c := c.modPort p (fun x => { x with
      good := false, tsEngine := [], tsHost := [], ltu := [], late := [], told := [], receiving := false, tx := List.replicate 3 [], control := [], wakeEnd := 0,
      pauseEnd := none, pfcEnd := List.replicate 8 none })
    (((c.wr (0x5010 + p) 1 0).wr (0x5010 + p) 2 0).showQueue p).showLtu p)

/-- FABRIC loses its packet buffer, rings and queues (14 R363). -/
def Chip.ringsLost (c : Chip) : Chip :=
  let c := c.each 8 (fun p c =>
    (c.modPort p (fun x => { x with rx := List.replicate 5 [], tx := List.replicate 3 [], due := [], open_ := none }))
      |>.showRings p |>.wr (0x5120 + p) 6 0)
  c.showPool

/-- A write names what the grade lacks (12 check 8; 08 R202). -/
def Chip.portGrade (c : Chip) (idx sub v : Nat) : Bool :=
  decide (0x5000 ≤ idx) && decide (idx < 0x5008) && sub == 2 && v == 3 && decide (c.grade.rateMax < 3)

/-- The line mode is in the table "Line modes" (08 R202). -/
def lineMode (rate fec : Nat) (sgmii : Bool) : Bool :=
  match rate with
  | 1 => fec == 0
  | 2 => decide (fec ≤ 1) && !sgmii
  | 3 => decide (fec ≤ 2) && !sgmii
  | _ => false

/-- A write breaks a rule that relates it to other values (12 check 9; 08 R202, R211, R227). -/
def Chip.portRel (c : Chip) (idx sub v : Nat) : Bool :=
  if 0x5000 ≤ idx ∧ idx < 0x5008 then
    match sub with
    | 2 => !lineMode v (c.rdf idx 3 5 4) (c.rdb idx 3 3 && v == 1)
    | 3 => !lineMode (c.rd idx 2) (field 5 4 v) (bit 3 v && c.rd idx 2 == 1)
    | 4 => bit 40 v
    | _ => false
  else if 0x5110 ≤ idx ∧ idx < 0x5118 then
    let c' := c.wr idx sub v
    decide (12288 < c'.reserved + c.start.withdrawn.length) || decide (16384 < c'.slots) ||
      (bit 7 v && decide (field 15 8 v ≤ field 23 16 v))
  else if 0x5118 ≤ idx ∧ idx < 0x5120 then
    let c' := c.wr idx sub v
    decide (12288 < c'.reserved + c.start.withdrawn.length) || decide (16384 < c'.slots)
  else if 0x5138 ≤ idx ∧ idx < 0x5140 then false
  else false

/-- A write is not allowed in the present state (12 check 10; 07 R192, 08 R211). -/
def Chip.portState (c : Chip) (idx sub v : Nat) : Bool :=
  if 0x5110 ≤ idx ∧ idx < 0x5118 then
    let old := c.rd idx sub
    c.portOn (idx % 8) && (field 63 50 old != field 63 50 v || field 35 24 old != field 35 24 v)
  else if 0x5118 ≤ idx ∧ idx < 0x5120 then c.portOn (idx % 8) && c.rd idx sub != v
  else if 0x5200 ≤ idx ∧ idx < 0x5208 ∧ sub = 1 then
    !(c.port (idx % 8)).tsEngine.isEmpty || !(c.port (idx % 8)).tsHost.isEmpty
  else false

/-- What a write does beyond its store. -/
def Chip.portPut (c : Chip) (idx sub v : Nat) : Option Chip :=
  if 0x5000 ≤ idx ∧ idx < 0x5008 then
    let p := idx - 0x5000
    match sub with
    | 2 => some (((c.wr idx 2 v).reconfigured (16 + p)).iff (c.portOn p) (fun c => c.linkRestart p))
    | 3 => some ((c.wr idx 3 v).iff (c.portOn p) (fun c => c.linkRestart p))
    | 0x0C => some ((c.wr idx 0x0C v).wr (0x5010 + p) 3 v)
    | _ => none
  else if idx = 0x5100 ∧ sub = 4 then some (c.wr 0x5100 4 c.sharedFree)
  else if 0x5110 ≤ idx ∧ idx < 0x5120 then some ((c.showPool.wr idx sub v).showPool)
  else none

end Sys2Proof.Machine
end

