-- ==== Sys2Proof/Machine/Plans.lean ====
section
/-!
DEFINITION. Sys2Proof/Machine/Plans.lean: hand configuration, trick plans and their banks (09 R233–R238), and the accounting of
missed tricks (09 R252).
-/

namespace Sys2Proof.Machine

/-! ### Configuration (09 R233, R235) -/

/-- HAND_LENGTH divides a second and lies in its range (09 R233). -/
def handOk (h : Nat) : Bool := decide (1000000 ≤ h) && decide (h ≤ 1000000000) && 1000000000 % h == 0

/-- CLOSE_GUARD and DRAIN_TIME are in range for a hand length (09 R235). -/
def guardOk (h guard drain : Nat) : Bool :=
  decide (20000 ≤ guard) && decide (guard ≤ min 1000000 (h / 4)) && decide (1000 ≤ drain) && decide (drain + 1000 ≤ guard)

/-! ### Plans (09 R236–R238) -/

/-- A bank as its entries 0 to count − 1. -/
def bankList (b : List (Nat × Nat)) (count : Nat) : List Nat := (List.range count).map (fun i => (mget i b).getD 0)

/-- The first entry that breaks a rule. -/
def firstBad (l : List Nat) (bad : Nat → Bool) : Option Nat := l.findIdx? bad

/-- Rule 0x03 for an entry (09 table "Plan rules"). -/
def trickFits (h guard e : Nat) : Bool := decide ((trStart e + trLen e) * 64 + guard ≤ h)

/-- Entry at fault and rule, if a bank is not valid (09 R237): the rules in row order, each over the entries in order. -/
def Chip.planFault (c : Chip) (l : List Nat) (guard : Nat) : Option (Nat × Nat) :=
  let pairs := l.zip (l.drop 1)
  let past := pairs.findIdx? (fun q => decide (trStart q.2 ≤ trStart q.1) || decide (trStart q.2 < trStart q.1 + trLen q.1))
  let badKinds (e : Nat) : Bool :=
    let k := trKinds e
    if trServo e then Nat.land k 0x2F != 0 else bit 6 k
  match firstBad l (fun e => trLen e == 0) with
  | some i => some (i, 1)
  | none =>
    match past with
    | some i => some (i + 1, 2)
    | none =>
      match firstBad l (fun e => !trickFits c.handLen guard e) with
      | some i => some (i, 3)
      | none =>
        match firstBad l (fun e => if trServo e then decide (3 < trSession e) else decide (c.grade.sessions ≤ trSession e)) with
        | some i => some (i, 4)
        | none =>
          match firstBad l (fun e => trLtu e && !c.grade.ltu) with
          | some i => some (i, 5)
          | none => (firstBad l badKinds).map (fun i => (i, 6))

/-- The idle bank's number and entries. -/
def Chip.idleBank (c : Chip) (p : Nat) : Nat := 1 - c.activeBank p
def Chip.idleList (c : Chip) (p : Nat) : List Nat := bankList (c.bank p (c.idleBank p)) (c.rd (0x6008 + p) 3)
def Chip.swapPending (c : Chip) (p : Nat) : Bool := c.rdb (0x6008 + p) 5 0

/-- A swap is no longer pending, readied for the coming deal or not (09 R238). -/
def Chip.swapDrop (c : Chip) (p : Nat) : Chip :=
  ((c.wr (0x6008 + p) 4 0).wr (0x6008 + p) 5 0).modPort p (fun x => { x with swapReady := false })

/-- SWAP_AT (09 R237, R238): a refusal's code, and the device with what the write changed. -/
def Chip.swapAt (c : Chip) (p n : Nat) : Option Nat × Chip :=
  if n = 0 then (none, c.swapDrop p)
  else
    let fault := c.planFault (c.idleList p) (c.rdStaged 0x6000 2)
    let show_ (c : Chip) (f : Option (Nat × Nat)) : Chip := match f with
      | some (i, k) => (c.wr (0x6008 + p) 6 i).wr (0x6008 + p) 7 k
      | none => (c.wr (0x6008 + p) 6 0xFFFF).wr (0x6008 + p) 7 0
    match fault with
    | some (i, k) =>
      if (k = 4 ∨ k = 5) then (some gradeErr, show_ c (some (i, k)))
      else (some rangeErr, show_ c (some (i, k)))
    | none =>
      if n < c.handNo + 2 then (some rangeErr, c)
      else (none, (((show_ c none).swapDrop p).wr (0x6008 + p) 4 n).wr (0x6008 + p) 5 1)

/-- The bits of a trick entry that are not reserved. -/
def trickMask : Nat := 0xFFFFFFFFFFFFFFFF00FFC00000000000

/-- TRICKS written from FIRST onward into the idle bank (09 R236). -/
def Chip.trickWrite (c : Chip) (p : Nat) (b : List Nat) : Chip :=
  let at_ := c.rd (0x6010 + p) 1
  let es := (List.range (b.length / 16)).map (fun i => (at_ + i, Nat.land (beN b (16 * i) 16) trickMask))
  let put (l : List (Nat × Nat)) : List (Nat × Nat) :=
    es.foldl (fun l e => if e.2 = 0 then mdel e.1 l else mset e.1 e.2 l) l
  c.modPort p (fun x => { x with banks := modNth x.banks (c.idleBank p) put })

/-- The bytes of TRICK_READ (09 0x6018). -/
def Chip.trickRead (c : Chip) (p : Nat) : List Nat :=
  let idle := c.rd (0x6018 + p) 1 == 1
  let b := if idle then c.idleBank p else c.activeBank p
  let n := if idle then c.rd (0x6008 + p) 3 else c.activeCount p
  ((bankList (c.bank p b) n).drop (c.rd (0x6018 + p) 2)).flatMap (toBytes 16)

/-- The hand of the deal whose steps are made, once its instant has passed: with later deals past theirs too, one before them (09
R248). -/
def Chip.dealHand (c : Chip) : Nat := c.handNo - c.hand.behind

/-- A readied swap takes effect (09 R238). -/
def Chip.swapNow (c : Chip) (p : Nat) : Chip :=
  if !(c.port p).swapReady then c
  else
    let a := c.activeBank p
    let n := c.activeCount p
    let m := c.rd (0x6008 + p) 3
    let c := ((c.wr (0x6008 + p) 1 (1 - a)).wr (0x6008 + p) 2 m).wr (0x6008 + p) 3 n
    ((c.swapDrop p).inc (0x6008 + p) 8).wr (0x6008 + p) 9 c.dealHand

/-- The plans are lost with FABRIC's content (14 R364). -/
def Chip.plansLost (c : Chip) : Chip :=
  c.each 8 (fun p c =>
    let c := (c.swapDrop p).modPort p (fun x => { x with banks := [[], []] })
    ((c.wr (0x6008 + p) 1 0).wr (0x6008 + p) 2 0).wr (0x6008 + p) 3 0)

/-! ### Outcomes (09 R241, R252) -/

/-- A trick of the present hand is missed with a reason. -/
def Chip.trickMissed (c : Chip) (p i reason : Nat) : Chip :=
  let c := (c.inc (0x6020 + p) 3).inc (0x6020 + p) (0x10 + reason)
  let c := c.wr (0x6020 + p) 0x20 (reason * 2 ^ 56 + i * 2 ^ 42 + c.handNo % 2 ^ 42)
  c.iff (reason == 5) (fun c => c.raise 22 0 0)

/-! ### Writes -/

/-- A write breaks a rule that relates it to other values (12 check 9; 09 R233, R235, R236, R238). -/
def Chip.planRel (c : Chip) (idx sub v : Nat) : Bool :=
  if idx = 0x6000 then
    match sub with
    | 1 => !handOk v
    | 2 =>
      !guardOk c.handLen v (c.rdStaged 0x6000 3) ||
        (List.range c.grade.ports).any (fun p =>
          (c.portOn p && !(bankList (c.bank p (c.activeBank p)) (c.activeCount p)).all (trickFits c.handLen v)) ||
          (c.swapPending p && !(c.idleList p).all (trickFits c.handLen v)))
    | 3 => !guardOk c.handLen (c.rdStaged 0x6000 2) v
    | _ => false
  else false

/-- A write is not allowed in the present state (12 check 10; 09 R236). -/
def Chip.planState (c : Chip) (idx sub _v : Nat) : Bool :=
  (decide (0x6008 ≤ idx) && decide (idx < 0x6010) && sub == 3 && c.swapPending (idx % 8)) ||
    (decide (0x6010 ≤ idx) && decide (idx < 0x6018) && sub == 2 && c.swapPending (idx % 8))

end Sys2Proof.Machine
end

