-- ==== Sys2Proof/Machine/Ptp.lean ====
section
/-!
DEFINITION. Sys2Proof/Machine/Ptp.lean: PTP messages as byte strings (IEEE 1588-2019, PRESUMED where the manual does not repeat
it, log 26), the fields of a session entry (10 R256), instances (10 R254), and how messages are composed (10 R274, R275, 05 R143).
-/

namespace Sys2Proof.Machine

/-! ### Reading a message -/

/-- Message types of IEEE 1588-2019. -/
def tySync : Nat := 0x0
def tyDelayReq : Nat := 0x1
def tyPdelayReq : Nat := 0x2
def tyPdelayResp : Nat := 0x3
def tyFollowUp : Nat := 0x8
def tyDelayResp : Nat := 0x9
def tyPdelayFollow : Nat := 0xA
def tyAnnounce : Nat := 0xB
def tySignaling : Nat := 0xC
def tyManagement : Nat := 0xD

/-- The fixed length of a message type, header included. -/
def fixedLen (t : Nat) : Nat :=
  if t = 0 ∨ t = 1 ∨ t = 8 then 44 else if t = 2 ∨ t = 3 ∨ t = 9 ∨ t = 0xA then 54 else if t = 0xB then 64
  else if t = 0xC then 44 else if t = 0xD then 48 else 34

/-- The offset of the PTP message in a frame. -/
def ptpOffset (b : List Nat) : Nat :=
  let f := frameInfo b
  if f.ethertype = 0x88F7 then f.l3 else f.l4 + 8

/-- The PTP message of a frame, to its messageLength. -/
def ptpOf (b : List Nat) : List Nat :=
  let m := b.drop (ptpOffset b)
  m.take (be16 m 2)

def msgType (m : List Nat) : Nat := byteAt m 0 % 16
def msgSdo (m : List Nat) : Nat := byteAt m 0 / 16
def msgDomain (m : List Nat) : Nat := byteAt m 4
def msgTwoStep (m : List Nat) : Bool := bit 1 (byteAt m 6)
def msgCorr (m : List Nat) : Int := sext 64 (beN m 8 8)
def msgSource (m : List Nat) : Nat := beN m 20 10
def msgSeq (m : List Nat) : Nat := be16 m 30
/-- A 10-byte timestamp at an offset, in 2^−16 ns. -/
def msgTime (m : List Nat) (i : Nat) : Int := ((beN m i 6 * 1000000000 + beN m (i + 6) 4) * 65536 : Nat)

/-- An event message. -/
def isEvent (t : Nat) : Bool := decide (t ≤ 3)

/-- The TLVs of a message: type, length, value. -/
def tlvsIn : Nat → List Nat → List (Nat × Nat × List Nat)
  | 0, _ => []
  | n + 1, b =>
    if b.length < 4 then []
    else
      let len := be16 b 2
      (be16 b 0, len, (b.drop 4).take len) :: tlvsIn n (b.drop (4 + len))
def tlvs (m : List Nat) : List (Nat × Nat × List Nat) := tlvsIn m.length (m.drop (fixedLen (msgType m)))

/-- The TEB TLVs of the device's organisation: their length and value. -/
def Chip.tebTlvs (c : Chip) (m : List Nat) : List (Nat × List Nat) :=
  let org := toBytes 3 (c.rd 0x1004 1) ++ [0, 0, 1]
  ((tlvs m).filter (fun t => t.1 == 3 && t.2.2.take 6 == org)).map (fun t => t.2)

/-- The TEB18 a message carries, if any (05 R144). -/
def Chip.tebOf (c : Chip) (m : List Nat) : Option Nat :=
  match (c.tebTlvs m).find? (fun t => 16 ≤ t.1) with
  | some t => some (beN t.2 6 4 % 2 ^ 18)
  | none => none

/-! ### Peers -/

/-- A network party: 0 L2, 1 UDP/IPv4, 2 UDP/IPv6; its MAC, its IP address, and the VLAN field of a session entry. -/
structure Party where
  transport : Nat
  mac : Nat
  addr : Nat
  vlan : Nat
  deriving DecidableEq, Repr

/-- Who sent a frame. -/
def senderOf (b : List Nat) : Party :=
  let f := frameInfo b
  let vlan := if f.tagged then f.tci / 8192 * 8192 + 4096 + f.tci % 4096 else 0
  if f.ethertype = 0x88F7 then ⟨0, f.src, 0, vlan⟩
  else if f.ipv4 then ⟨1, f.src, beN b (f.l3 + 12) 4, vlan⟩
  else ⟨2, f.src, beN b (f.l3 + 8) 16, vlan⟩

/-- To whom a frame is addressed. -/
def targetOf (b : List Nat) : Party :=
  let f := frameInfo b
  if f.ethertype = 0x88F7 then ⟨0, f.dst, 0, 0⟩
  else if f.ipv4 then ⟨1, f.dst, beN b (f.l3 + 16) 4, 0⟩
  else ⟨2, f.dst, beN b (f.l3 + 24) 16, 0⟩

/-- A group address. -/
def Party.group (a : Party) : Bool :=
  bit 40 a.mac || (a.transport == 1 && a.addr / 2 ^ 28 == 14) || (a.transport == 2 && a.addr / 2 ^ 120 == 255)

/-- The same party: L2 by MAC, otherwise by address. -/
def Party.same (a b : Party) : Bool :=
  a.transport == b.transport && (if a.transport = 0 then a.mac == b.mac else a.addr == b.addr)

/-! ### Session entries (10 R256): the halves as 256-bit numbers, byte 0 (32) most significant -/

def sMode (h : Nat) : Nat := field 255 254 h
def sTransport (h : Nat) : Nat := field 253 252 h
def sTwoStep (h : Nat) : Bool := bit 251 h
def sPort (h : Nat) : Nat := field 250 248 h
def sAuth (h : Nat) : Bool := bit 247 h
def sInst (h : Nat) : Nat := field 242 240 h
def sLogSync (h : Nat) : Int := sext 8 (field 239 232 h)
def sLogAnnounce (h : Nat) : Int := sext 8 (field 231 224 h)
def sLogDelay (h : Nat) : Int := sext 8 (field 223 216 h)
def sSa (h : Nat) : Nat := field 215 208 h
def sPhase (h : Nat) : Nat := field 207 192 h
def sVlan (h : Nat) : Nat := field 191 176 h
def sMac (h : Nat) : Nat := field 175 128 h
def sAddr (h : Nat) : Nat := field 127 0 h
def sParty (h : Nat) : Party := ⟨sTransport h, sMac h, sAddr h, sVlan h⟩

def dState (d : Nat) : Nat := field 251 248 d
def dGranted (d : Nat) : Nat := field 247 240 d
def dExpiry (d : Nat) : Nat := field 239 224 d
def dPeerId (d : Nat) : Nat := field 223 144 d
def dReqSeq (d : Nat) : Nat := field 127 112 d
def dPending (d : Nat) : Bool := bit 63 d
def dReqAge (d : Nat) : Nat := field 19 18 d
/-- Grant bits of GRANTED. -/
def gSync : Nat := 7
def gAnnounce : Nat := 6
def gDelay : Nat := 5
def dGrantedBit (d i : Nat) : Bool := bit (240 + i) d

/-- The session is a multicast one (10 R256). -/
def sGroup (h : Nat) : Bool := (sParty h).group

/-- An entry of the table; a free one where none is listed. -/
def Chip.session (c : Chip) (i : Nat) : Session := (c.sess.table.find? (fun s => s.index == i)).getD ⟨i, 0, 0, 0, 0, 0⟩

/-- Insert in index order. -/
def sessInsert (s : Session) : List Session → List Session
  | [] => [s]
  | x :: t => if s.index < x.index then s :: x :: t else x :: sessInsert s t

/-- An entry written; one with nothing in it is not listed. -/
def Chip.putSession (c : Chip) (s : Session) : Chip :=
  let rest := c.sess.table.filter (fun x => x.index != s.index)
  let t := if s.host = 0 ∧ s.dev = 0 ∧ s.saved = 0 ∧ s.shown = 0 then rest else sessInsert s rest
  { c with sess := { c.sess with table := t } }

def Chip.modSess (c : Chip) (f : SessionUnit → SessionUnit) : Chip := { c with sess := f c.sess }
/-- The device half of an entry, as its engine holds it, changed. -/
def Chip.modDev (c : Chip) (i : Nat) (f : Nat → Nat) : Chip :=
  let s := c.session i
  c.putSession { s with dev := f s.dev }

/-! ### Instances (10 R254) -/

def Chip.profileOf (c : Chip) (i : Nat) : Nat := c.rd (0x6210 + i) 1
/-- The instance uses the peer-to-peer delay mechanism. -/
def Chip.p2p (c : Chip) (i : Nat) : Bool := c.profileOf i == 2 || c.profileOf i == 5
def Chip.sdoOf (c : Chip) (i : Nat) : Nat := if c.profileOf i = 5 then 1 else 0
def Chip.masterOn (c : Chip) (i p : Nat) : Bool := c.profileOf i != 0 && c.rdb (0x6210 + i) 3 p
def Chip.tcOnPort (c : Chip) (i p : Nat) : Bool := c.profileOf i != 0 && c.rdb (0x6210 + i) 4 p
/-- Servo `n` is enabled, with an instance that runs, on port `p`. -/
def Chip.servoOn (c : Chip) (n : Nat) : Bool := c.rdb (0x6220 + n) 1 0 && c.profileOf (c.rd (0x6220 + n) 2) != 0
def Chip.servoListens (c : Chip) (n p : Nat) : Bool := c.servoOn n && c.rdb (0x6220 + n) 3 p

/-- The instance on a port that a message's domain and sdoId name. -/
def Chip.instFor (c : Chip) (p : Nat) (m : List Nat) : Option Nat :=
  (List.range 8).find? (fun i =>
    c.profileOf i != 0 && c.rd (0x6210 + i) 2 == msgDomain m && c.sdoOf i == msgSdo m &&
      (c.rdb (0x6210 + i) 3 p || c.rdb (0x6210 + i) 4 p ||
        (List.range 4).any (fun n => c.servoListens n p && c.rd (0x6220 + n) 2 == i)))

/-- A session whose instance is peer-to-peer and whose LOG_ANNOUNCE is 127 (10 R256). -/
def Chip.peerDelaySession (c : Chip) (h : Nat) : Bool := c.p2p (sInst h) && sLogAnnounce h == 127

/-- R of a log interval, in hands (10 R263); none where it is not a whole number from 1 to 65,536. -/
def hands (h : Nat) (l : Int) : Option Nat :=
  let num := if 0 ≤ l then 2 ^ l.toNat * 1000000000 else 1000000000
  let den := if 0 ≤ l then h else 2 ^ (-l).toNat * h
  if den = 0 ∨ num % den ≠ 0 then none
  else
    let r := num / den
    if 1 ≤ r ∧ r ≤ 65536 then some r else none

/-- A message of an interval is due in hand `n` (10 R263). -/
def dueIn (h n phase : Nat) (l : Int) : Bool :=
  match hands h l with
  | some r => ((n : Int) - phase) % r == 0
  | none => false

/-- sequenceId of a due message (10 R263). -/
def seqIn (h n phase : Nat) (l : Int) : Nat :=
  match hands h l with
  | some r => wrapInt 16 (((n : Int) - phase) / r)
  | none => 0

/-! ### Security associations (10 R275, R276) -/

def Chip.saEntry (c : Chip) (i : Nat) : Nat := (nth c.sess.sas i (0, false)).1
def Chip.saErased (c : Chip) (i : Nat) : Bool := (nth c.sess.sas i (0, false)).2
def Chip.saUsed (c : Chip) (i : Nat) : Bool := bit 63 (c.saEntry i)
def Chip.saSpp (c : Chip) (i : Nat) : Nat := field 55 48 (c.saEntry i)
def Chip.saKeyId (c : Chip) (i : Nat) : Nat := field 31 0 (c.saEntry i)
def Chip.saKey (c : Chip) (i : Nat) : Nat := nth c.sec.saKeys i 0

/-- ENTRY of SA_WINDOW is written (10 R275). -/
def Chip.saWrite (c : Chip) (i : Nat) (b : List Nat) : Chip :=
  let e := setField 62 56 (setField 39 32 (beN b 0 8) 0) 0
  let c := c.modSess (fun u => { u with sas := setNth u.sas i (e, false) })
  { c with sec := { c.sec with saKeys := setNth c.sec.saKeys i (beN b 8 32) } }

/-- The first 16 bytes of the HMAC under an association's key. -/
def Chip.icv (c : Chip) (sa : Nat) (b : List Nat) : List Nat := (hmac (toBytes 32 (c.saKey sa)) b).take 16

/-- A received message passes authentication against the transmitting association `sa` (10 R276). -/
def Chip.authGood (c : Chip) (sa : Nat) (m : List Nat) : Bool :=
  let ts := tlvs m
  let n := (ts.filter (fun t => t.1 == 0x8000)).length
  match ts.getLast? with
  | some (0x8000, 22, v) =>
    n == 1 && byteAt v 1 == 0 &&
      (List.range 256).any (fun i =>
        c.saUsed i && !c.saErased i && c.saSpp i == c.saSpp sa && c.saKeyId i == beN v 2 4 && byteAt v 0 == c.saSpp sa &&
          c.icv i (m.take (m.length - 16)) == v.drop 6)
  | _ => false

/-! ### Composing (05 R143, 10 R254, R274, R275) -/

/-- Frequency assistance is in effect (04 R120). -/
def Chip.freqAssist (c : Chip) : Bool := c.hybrid 0 && c.tcState 0 == 3 && c.sel 0 != 0xFF

/-- The TEB TLV (05 table "TEB TLV"). -/
def Chip.tebTlv (c : Chip) (teb : Nat) : List Nat :=
  let fl := (c.rdb 0x3010 1 7).toNat * 128 + c.freqAssist.toNat * 64 +
    (c.tcState 0 == 3 && c.rdb 0x3020 0x2B 0 && !c.freqAssist && c.rd 0x3020 0x11 != 0).toNat * 32
  [0, 3, 0, 16] ++ toBytes 3 (c.rd 0x1004 1) ++ [0, 0, 1] ++ toBytes 4 teb ++ [c.tcState 0, fl] ++
    toBytes 4 (encodeTeb (c.declared (c.selPhase 0)))

/-- portIdentity of a port (IEEE 1588: clockIdentity and port number from 1). -/
def Chip.portIdent (c : Chip) (p : Nat) : Nat := c.rd 0x6200 1 * 65536 + p + 1

/-- A message before its TLVs; its length is written when it is complete. -/
def Chip.ptpHead (c : Chip) (p inst type seq : Nat) (flags : Nat) (corr : Int) (log : Int) (body : List Nat) : List Nat :=
  [c.sdoOf inst * 16 + type, 0x12, 0, 0, c.rd (0x6210 + inst) 2, 0] ++ toBytes 2 flags ++ toBytes 8 (wrapInt 64 corr) ++
    [0, 0, 0, 0] ++ toBytes 10 (c.portIdent p) ++ toBytes 2 seq ++ [if type = 0 then 0 else if type = 1 then 1
      else if type = 8 then 2 else if type = 9 then 3 else 5, wrapInt 8 log] ++ body

/-- The bound of a message that carries no timestamp of its own (05 R143). -/
def Chip.tebSend (c : Chip) (p : Nat) : Nat := c.tebNow (c.portUnc p)

/-- TLVs appended in order: given ones, the TEB TLV, the AUTHENTICATION TLV last (10 R274). -/
def Chip.ptpFinish (c : Chip) (inst : Nat) (auth : Option Nat) (teb : Nat) (own : List Nat) (m : List Nat) : List Nat :=
  let m := m ++ (if c.rdb (0x6210 + inst) 5 0 then c.tebTlv teb else []) ++ own
  let len := m.length + (if auth.isSome then 26 else 0)
  let m := putBytes m 2 (toBytes 2 len)
  match auth with
  | some sa =>
    let m := m ++ [0x80, 0, 0, 22, c.saSpp sa, 0] ++ toBytes 4 (c.saKeyId sa)
    m ++ c.icv sa m
  | none => m

/-- What a frame of the engines asks of the MAC. -/
structure SendAs where
  oneStep : Nat
  time : Nat
  stamp : Bool
  tsId : Nat
  ring : Nat
  trick : Option Nat
  launch : Bool
  deriving DecidableEq, Repr

/-- Best-effort, no stamp. -/
def plainSend : SendAs := ⟨0, 0, false, 0, 1, none, false⟩

/-- Messages that carry no timestamp of the device's own (05 R143). -/
def noOwnTime (ty : Nat) : Bool := [tyDelayReq, tyPdelayReq, tyAnnounce, tySignaling].contains ty

/-- Where a message's TEB takes the bound at transmission: it has the TEB TLV, no timestamp of the device's own, and no
AUTHENTICATION TLV, whose ICV covers the bytes as composed (05 R143, 10 R275, log 70). -/
def tebAtSend (m : List Nat) : Nat :=
  let ts := tlvs m
  let ty := msgType m
  if noOwnTime ty && (ts.head?.map (fun t => t.1)) == some 3 && ts.all (fun t => t.1 != 0x8000) then fixedLen ty + 10 else 0

/-- A message in a frame to a party, with its descriptor. -/
def Chip.ptpFrame (c : Chip) (p inst : Nat) (a : Party) (m : List Nat) (w : SendAs) : TxDesc :=
  let ty := msgType m
  let tag := if bit 12 a.vlan then [0x81, 0] ++ toBytes 2 (a.vlan / 8192 * 8192 + a.vlan % 4096) else []
  let mac := toBytes 6 a.mac ++ toBytes 6 (c.rd (0x5000 + p) 4) ++ tag
  let o := mac.length + 2
  let dport := if isEvent ty then 319 else 320
  let trailer := w.oneStep != 0 && (a.transport == 2 || (a.transport == 1 && c.rd (0x5000 + p) 0x0A == 1))
  let pay := if trailer then m ++ [0, 0] else m
  let udp := toBytes 2 dport ++ toBytes 2 dport ++ toBytes 2 (pay.length + 8) ++ [0, 0] ++ pay
  let l4 := if a.transport = 1 then o + 20 else o + 40
  let b :=
    if a.transport = 0 then mac ++ [0x88, 0xF7] ++ m
    else if a.transport = 1 then
      mac ++ [0x08, 0x00, 0x45, Config.ipClass % 256] ++ toBytes 2 (udp.length + 20) ++ [0, 0, 0, 0] ++
        [Config.ipTtl % 256, 17, 0, 0] ++ toBytes 4 (c.rd (0x1108 + p) 1) ++ toBytes 4 a.addr ++ udp
    else
      mac ++ [0x86, 0xDD] ++ toBytes 4 (6 * 2 ^ 28 + Config.ipClass % 256 * 2 ^ 20) ++ toBytes 2 udp.length ++
        [17, Config.ipTtl % 256] ++ toBytes 16 (c.rd (0x1108 + p) 2) ++ toBytes 16 a.addr ++ udp
  let b := if trailer then setUdpCheck b o l4 (a.transport == 2) else b
  let b := b ++ List.replicate (60 - b.length) 0
  let at_ := if a.transport = 0 then o else l4 + 8
  let flags := 128 + (a.transport == 1).toNat * 64 + (a.transport != 0 && w.oneStep == 0).toNat * 32 + w.stamp.toNat * 16 +
    w.launch.toNat * 8 + w.oneStep * 2
  { bytes := b, flags := flags, prio := if bit 12 a.vlan then a.vlan / 8192 else 0, tsId := w.tsId,
    l3 := if a.transport = 0 then 0 else o, l4 := if a.transport = 0 then 0 else l4, ptp := at_,
    trailer := if trailer then at_ + m.length else 0,
    teb := if w.oneStep != 0 && c.rdb (0x6210 + inst) 5 0 then fixedLen ty + 10 else 0,
    time := w.time, trick := w.trick, ring := w.ring, tebTx := if c.rdb (0x6210 + inst) 5 0 then tebAtSend m else 0,
    cells := [] }

/-- A best-effort message joins its ring if there is room. -/
def Chip.sendBest (c : Chip) (p : Nat) (d : TxDesc) : Chip := (c.txQueue p d).getD c

/-- A 10-byte timestamp of a reading in 2^−16 ns, the fraction dropped. -/
def timeBytes (t : Int) : List Nat :=
  let ns := (t / 65536).toNat
  toBytes 6 (ns / 1000000000) ++ toBytes 4 (ns % 1000000000)
/-- Its fraction. -/
def timeFrac (t : Int) : Int := t % 65536

/-- Flags of a message's flagField: twoStep, unicast. -/
def flagsFor (twoStep unicast : Bool) : Nat := twoStep.toNat * 512 + unicast.toNat * 1024

/-- logMessageInterval: 0x7F for unicast messages but Announce, Delay_Resp and Signaling's own. -/
def logFor (unicast : Bool) (l : Int) : Int := if unicast then 127 else l

/-- The Announce body (10 R273). -/
def Chip.announceBody (c : Chip) : List Nat :=
  List.replicate 10 0 ++ toBytes 2 (c.rd 0x1210 1) ++ [0, c.rd 0x6200 2, c.rd 0x6200 7, c.rd 0x6200 8] ++
    toBytes 2 (c.rd 0x6200 5) ++ [c.rd 0x6200 3] ++ toBytes 8 (c.rd 0x6200 1) ++ [0, 0, Config.timeSource % 256]

/-- The flagField of an Announce: UTC data, and the traceability flags the manual leaves open. -/
def Chip.announceFlags (c : Chip) (unicast : Bool) : Nat :=
  flagsFor false unicast + (c.rdb 0x1210 2 2).toNat + (c.rdb 0x1210 2 1).toNat * 2 + c.utcValid.toNat * 4 + 8 +
    Config.announceFlags % 4 * 16

/-! ### What the device advertises (10 R273) -/

/-- Limits of the clockAccuracy codes from 0x17 on, doubled, in ps. -/
def accLimits : List Nat :=
  (List.range 13).flatMap (fun k => [2 * 10 ^ k, 5 * 10 ^ k]) |>.take 24

/-- clockAccuracy of a bound in ps: the smallest code whose limit is not below it. The enumeration steps by 2.5 and 4 (IEEE
1588-2019 table of clockAccuracy). -/
def clockAccuracy (b : Option Nat) : Nat :=
  match b with
  | none => 0xFE
  | some v =>
    if v ≤ 1 then 0x17
    else
      match (List.range 24).find? (fun k => decide (2 * v ≤ nth accLimits (k + 1) 0) && decide (k + 1 < 24)) with
      | some k => 0x18 + k
      | none => if v ≤ 1000000000000 then 0x2F else if v ≤ 10000000000000 then 0x30 else 0x31

/-- The clockClass advertised (10 table "Advertised clockClass"). -/
def Chip.clockClass (c : Chip) : Nat :=
  let st := c.tcState 0
  let n := c.selPhase 0
  if st = 2 then
    if c.rank n ≤ 1 then 6 else if isPkt n then 135 else 248
  else if st = 3 then
    match c.bound with
    | some b => if b ≤ c.rd 0x6200 6 then (if c.sess.phaseGood then 7 else 135) else 140
    | none => 140
  else 248

/-- CLOCK_CLASS and CLOCK_ACCURACY follow TC0 and its bound. -/
def Chip.clockWatch (c : Chip) : Chip :=
  let n := c.selPhase 0
  let c := c.iff (n < 28 && (c.tcState 0 == 1 || c.tcState 0 == 2)) (fun c =>
    c.modSess (fun u => { u with phaseGood := decide (c.rank n ≤ 1) }))
  (c.wr 0x6200 7 c.clockClass).wr 0x6200 8 (clockAccuracy c.bound)

end Sys2Proof.Machine
end

