-- ==== Sys2Proof/Machine/Sessions.lean ====
section
/-!
DEFINITION. Sys2Proof/Machine/Sessions.lean: the session table and its commits (10 R256–R262), what a session sends (R263–R266),
shares (R267–R269), unicast negotiation (R270–R272), and the checks on received PTP messages (R255, R276).
-/

namespace Sys2Proof.Machine

/-! ### Received messages (10 R255, R276) -/

/-- The unicast session of a peer on a port. -/
def Chip.sessionOf (c : Chip) (p : Nat) (a : Party) : Option Session :=
  c.sess.table.find? (fun s => sMode s.host != 0 && sPort s.host == p && !sGroup s.host && (sParty s.host).same a)

/-- The multicast session of a group address on a port. -/
def Chip.groupSession (c : Chip) (p : Nat) (a : Party) : Option Session :=
  c.sess.table.find? (fun s => sMode s.host != 0 && sPort s.host == p && sGroup s.host && (sParty s.host).same a)

/-- An entry of a servo's master table: transport, port, MAC, address (10 0x6220:09 to :0C). -/
def Chip.masterEntry (c : Chip) (n i : Nat) : Option (Nat × Party) :=
  let v := c.rd (0x6220 + n) (9 + i)
  if v = 0 then none else some (field 183 176 v % 8, ⟨field 191 184 v, field 175 128 v, field 127 0 v, 0⟩)

/-- The party is in a servo's master table. -/
def Chip.inMasterTable (c : Chip) (n p : Nat) (a : Party) : Bool :=
  (List.range 4).any (fun i =>
    match c.masterEntry n i with
    | some (q, b) => q == p && b.same a
    | none => false)

/-- Servos that hear messages of an instance from a party on a port; with unicast negotiation only those of its master table. -/
def Chip.hearing (c : Chip) (p i : Nat) (a : Party) : List Nat :=
  (List.range 4).filter (fun n => c.servoListens n p && c.rd (0x6220 + n) 2 == i &&
    (c.profileOf i != 4 || c.inMasterTable n p a))

/-- The security association that a message must match, if its consumer requires authentication, and the entry that counts a
failure (10 R276). -/
def Chip.authNeeded (c : Chip) (p i : Nat) (m : List Nat) (a t : Party) : Option (Nat × Option Nat) :=
  let ty := msgType m
  let forServo := ty == tySync || ty == tyFollowUp || ty == tyDelayResp || ty == tyAnnounce
  let servo := (c.hearing p i a).find? (fun n => c.rdb (0x6220 + n) 8 8)
  let s := match c.sessionOf p a with
    | some s => some s
    | none => c.groupSession p t
  match s with
  | some s =>
    if forServo then servo.map (fun n => (c.rdf (0x6220 + n) 8 7 0, none))
    else if sAuth s.host then some (sSa s.host, some s.index) else none
  | none =>
    if forServo || (ty == tySignaling && !(c.hearing p i a).isEmpty) then
      servo.map (fun n => (c.rdf (0x6220 + n) 8 7 0, none))
    else if ty == tySignaling && c.rdb (0x6108 + p) 3 15 then some (c.rdf (0x6108 + p) 3 7 0, none)
    else none

/-- The checks of a received message (10 table "Receive checks on PTP messages"): the counter of its discard, if any, and the
entry whose AUTH_FAILS counts. -/
def Chip.ptpJudge (c : Chip) (p : Nat) (b : List Nat) : Option (Nat × Option Nat) :=
  let raw := b.drop (ptpOffset b)
  let m := ptpOf b
  if byteAt raw 1 % 16 ≠ 2 ∨ 1 < byteAt raw 1 / 16 then some (1, none)
  else
    match c.instFor p raw with
    | none => some (2, none)
    | some i =>
      if raw.length < be16 raw 2 ∨ be16 raw 2 < fixedLen (msgType raw) then some (3, none)
      else if msgType m = tyManagement then some (4, none)
      else
        let a := senderOf b
        let t := targetOf b
        let failed := match c.authNeeded p i m a t with
          | some (sa, e) => if c.authGood sa m then none else some e
          | none => none
        match failed with
        | some e => some (5, e)
        | none =>
          let asks := msgType m == tySignaling && (tlvs m).any (fun x => x.1 == 4)
          let known := t.group || (c.sessionOf p a).isSome || !(c.hearing p i a).isEmpty || c.tcOnPort i p || asks
          if known then none else some (6, none)

/-- A message with a TLV of a type. -/
def hasTlv (t : Nat) (m : List Nat) : Bool := (tlvs m).any (fun x => x.1 == t)

/-- The session whose request a Delay_Req of its peer, or a Pdelay_Req of a peer-delay session, is (10 R264). -/
def Chip.reqSession (c : Chip) (p : Nat) (d : RxDesc) : Option Session :=
  let m := ptpOf d.bytes
  let s := match c.sessionOf p (senderOf d.bytes) with
    | some s => some s
    | none => if msgType m = tyPdelayReq then c.groupSession p (targetOf d.bytes) else none
  s.filter (fun s => (msgType m == tyDelayReq && !c.p2p (sInst s.host)) || (msgType m == tyPdelayReq && c.peerDelaySession s.host))

/-- The multicast session to whose group and port a Delay_Req is addressed (10 R266). -/
def Chip.groupReq (c : Chip) (p : Nat) (d : RxDesc) : Option Session :=
  if msgType (ptpOf d.bytes) = tyDelayReq then c.groupSession p (targetOf d.bytes) else none

/-- The uses of an accepted message beside the servos, which go by their numbers: forwarding, and sessions with their port. -/
def useForward : Nat := 4
def useSession : Nat := 5

/-- Who has use for an accepted message (10 R264, R266, R270, R272, R277–R279). -/
def Chip.uses (c : Chip) (p : Nat) (d : RxDesc) : List Nat :=
  let m := ptpOf d.bytes
  let ty := msgType m
  match c.instFor p m with
  | none => []
  | some i =>
    let toServo := [tySync, tyFollowUp, tyDelayResp, tyAnnounce].contains ty || (ty == tySignaling && hasTlv 5 m)
    let mine := (ty == tySignaling && (hasTlv 4 m || hasTlv 6 m)) ||
      ((ty == tyPdelayResp || ty == tyPdelayFollow) && beN m 44 10 == c.portIdent p) ||
      (c.reqSession p d).isSome || (c.groupReq p d).isSome
    (if toServo then c.hearing p i (senderOf d.bytes) else []) ++ (if c.tcOnPort i p then [useForward] else []) ++
      if mine then [useSession] else []

/-- The frame at a place of a PTP ring is judged: a discarded one, or one of no use, is released. From the first accepted message of
its peer a session learns PEER_PORT_ID (10 R255, R256). -/
def Chip.ptpAccept (c : Chip) (p k i : Nat) : Chip :=
  match (c.rxRing p k)[i]? with
  | none => c
  | some d =>
    let release (c : Chip) : Chip :=
      ((c.modPort p (fun x => { x with rx := modNth x.rx k (fun l => l.eraseIdx i) })).showRings p).showPool
    match c.ptpJudge p d.bytes with
    | some (n, e) =>
      let c := c.inc (0x6230 + p) n
      release (match e with
        | some i => c.modDev i (fun v => setField 31 24 v (min 255 (field 31 24 v + 1)))
        | none => c)
    | none =>
      let m := ptpOf d.bytes
      let c := match c.sessionOf p (senderOf d.bytes) with
        | some s => c.iff (dPeerId s.dev == 0) (fun c => c.putSession { s with dev := setField 223 144 s.dev (msgSource m) })
        | none => c
      let c := c.incBy (0x6230 + p) 7 ((c.tebTlvs m).filter (fun t => t.1 < 16)).length
      match c.uses p d with
      | [] => release c
      | u => c.modPort p (fun x => { x with rx := modNth x.rx k (fun l => modNth l i (fun d => { d with want := some u })) })

/-- The oldest frame of a ring for which a test holds and of which a duty has use, served; it is released once no other has. -/
def Chip.rxFind (c : Chip) (p k use : Nat) (f : RxDesc → Bool) : Option RxDesc × Chip :=
  match (c.rxRing p k).findIdx? (fun d => (d.want.getD []).contains use && f d) with
  | none => (none, c)
  | some i =>
    let d := (c.rxRing p k)[i]?
    let left := ((d.bind RxDesc.want).getD []).erase use
    let c := c.modPort p (fun x => { x with rx := modNth x.rx k (fun l =>
      if left = [] then l.eraseIdx i else modNth l i (fun d => { d with want := some left })) })
    (d, (c.showRings p).showPool)

/-- The domain of an engine, and its state. -/
def engDom (e : Nat) : Dom := if e < 8 then .enga else .engb
def Chip.engState (c : Chip) (e : Nat) : Nat := c.rd 0xE000 (3 + e)

/-- An engine serves: one works, in a domain that is awake, with FABRIC awake (01 R27, R29). -/
def Chip.engineRuns (c : Chip) : Bool :=
  decide (0 < c.working) && c.awake .fabric && (c.awake .enga || c.awake .engb) && c.rd 0x4008 1 != 3 && !c.start.muxHeld

/-- The oldest frame of a PTP ring not yet judged is judged. -/
def Chip.ptpNext (c : Chip) (p k : Nat) : Chip :=
  match (c.rxRing p k).findIdx? (fun d => d.want.isNone) with
  | some i => c.ptpAccept p k i
  | none => c

/-- Engines that run judge the PTP frames that a port has received (10 R255, log 27). -/
def Chip.ptpWatch (c : Chip) (p : Nat) : Chip :=
  c.iff c.engineRuns (fun c => c.overAll [0, 1] (fun k c => c.each (c.rxRing p k).length (fun _ c => c.ptpNext p k)))

/-- An engine works, in a domain that is awake. -/
def Chip.engWorks (c : Chip) (e : Nat) : Bool := c.engState e == 1 && c.awake (engDom e)

/-- The duties of share `k` are done: its engine works, or they went to another when it was left without one (10 R267, R269). -/
def Chip.shareRuns (c : Chip) (k : Nat) : Bool :=
  c.engineRuns && (match c.sess.bounds[k]? with
    | some (_, g) => g == 0xFF || c.engWorks g
    | none => false)

/-- The duty of servo `k` is done: it goes with share `k` modulo their number (10 R267). -/
def Chip.servoWorks (c : Chip) (k : Nat) : Bool := c.shareRuns (k % c.sess.bounds.length)

/-- ESMC and TPP over the network are done: they go with the last share (10 R267). -/
def Chip.lastRuns (c : Chip) : Bool := c.shareRuns (c.sess.bounds.length - 1)

/-! ### Commits (10 R257–R262) -/

/-- The code with which a commit of a host half is refused, if any (10 R257). -/
def Chip.commitErr (c : Chip) (idx h : Nat) : Option Nat :=
  let p := sPort h
  let i := sInst h
  let prof := c.profileOf i
  let tr := sTransport h
  let trOk := if prof = 1 ∨ prof = 2 then decide (tr ≤ 2) else if prof = 3 ∨ prof = 5 then tr == 0
    else if prof = 4 then tr == 1 || tr == 2 else false
  let logOk (l : Int) : Bool := (hands c.handLen l).isSome
  let annOk := if c.p2p i && sLogAnnounce h == 127 then true else sLogAnnounce h != 127 && logOk (sLogAnnounce h)
  if c.grade.sessions ≤ idx then some gradeErr
  else if c.grade.ports ≤ p ∨ !c.masterOn i p then some rangeErr
  else if !trOk then some rangeErr
  else if sAuth h ∧ !c.saUsed (sSa h) then some rangeErr
  else if !(logOk (sLogSync h) && annOk && logOk (sLogDelay h)) then some rangeErr
  else if sMode h = 3 then some rangeErr
  else if 16384 ≤ c.sess.commits.length then some stateErr
  else none

/-- COMMIT (10 R258). -/
def Chip.commit (c : Chip) : Chip :=
  c.modSess (fun u => { u with commits := u.commits ++ [⟨c.rd 0x6100 1, u.window, false, 0⟩] })

/-- COMMIT_PENDING of INDEX (10 R260). -/
def Chip.commitPending (c : Chip) : Bool := c.sess.commits.any (fun x => x.index == c.rd 0x6100 1)

/-- The reserved bits of a host half read 0 (10 R256). -/
def hostMask (h : Nat) : Nat := setField 246 243 h 0

/-- A message of best-effort work from a session to its peer. -/
def Chip.sessionSend (c : Chip) (h type seq : Nat) (body own : List Nat) (w : SendAs) : Chip :=
  let p := sPort h
  let i := sInst h
  let auth := if sAuth h then some (sSa h) else none
  if (match auth with
      | some sa => c.saErased sa
      | none => false) then c
  else
    let m := c.ptpHead p i type seq (flagsFor false (!sGroup h)) 0 127 body
    c.sendBest p (c.ptpFrame p i (sParty h) (c.ptpFinish i auth (c.tebSend p) own m) w)

/-- targetPortIdentity of a Signaling message. -/
def signalBody (peer : Nat) : List Nat := toBytes 10 peer

/-- The bits of GRANTED and the messageTypes they stand for. -/
def grantTypes : List (Nat × Nat) := [(gAnnounce, tyAnnounce), (gSync, tySync), (gDelay, tyDelayResp)]

/-- A CANCEL or ACKNOWLEDGE_CANCEL TLV. -/
def cancelTlv (ack : Bool) (ty : Nat) : List Nat := [0, if ack then 7 else 6, 0, 2, ty * 16, 0]

/-- CANCEL_UNICAST_TRANSMISSION for each granted type (10 R259). -/
def Chip.cancelAll (c : Chip) (h d : Nat) : Chip :=
  let ts := grantTypes.filter (fun g => dGrantedBit d g.1)
  if ts.isEmpty then c
  else c.sessionSend h tySignaling 0 (signalBody (dPeerId d)) (ts.flatMap (fun g => cancelTlv false g.2)) plainSend

/-- The bits of the host half whose change resets the device half (10 R259): MODE, TRANSPORT, PORT, INSTANCE, PEER_MAC,
PEER_ADDR. -/
def identBits (h : Nat) : Nat × Nat × Nat × Nat × Nat × Nat := (sMode h, sTransport h, sPort h, sInst h, sMac h, sAddr h)

/-- A commit is applied at a deal (10 R259, R271, R272). -/
def Chip.applyCommit (c : Chip) (x : Commit) : Chip :=
  let s := c.session x.index
  let c := c.iff (sMode x.host == 0 && sMode s.host != 0 && !x.device) (fun c => c.cancelAll s.host s.dev)
  let d :=
    if x.device && sMode x.host = 3 && sMode s.host ≠ 3 then x.dev
    else if identBits x.host ≠ identBits s.host then
      if sMode x.host = 0 then 0
      else 1 * 2 ^ 248
    else s.dev
  c.putSession ⟨x.index, x.host, d, if d = s.dev then s.saved else d, s.shown, s.reqTeb⟩

/-- A static session whose new host half the engine has read waits for nothing more: it is ACTIVE (10 R259, R263, log 45). -/
def staticActive (s : Session) : Session :=
  if sMode s.host = 1 ∧ dState s.dev = 1 then { s with dev := setField 251 248 s.dev 2 } else s

/-! ### Unicast negotiation (10 R270–R272) -/

/-- A device commit joins the queue (10 R261). -/
def Chip.deviceCommit (c : Chip) (idx host dev : Nat) : Chip :=
  c.modSess (fun u => { u with commits := u.commits ++ [⟨idx, host, true, dev⟩] })

/-- A host half with the interval of a message type. -/
def setLog (h ty : Nat) (l : Int) : Nat :=
  let v := wrapInt 8 l
  if ty = tySync then setField 239 232 h v else if ty = tyAnnounce then setField 231 224 h v else setField 223 216 h v

/-- The grant bit of a message type. -/
def grantBit (ty : Nat) : Option Nat := (grantTypes.find? (fun g => g.2 == ty)).map (·.1)

/-- The period of a request may be granted by an instance (10 R270). -/
def Chip.periodOk (c : Chip) (i ty : Nat) (l : Int) : Bool :=
  (grantBit ty).isSome && (hands c.handLen l).isSome && decide (c.rdi (0x6210 + i) 8 8 ≤ l)

/-- The entry that a queued device commit prepares for a peer, with its halves. -/
def Chip.prepared (c : Chip) (p : Nat) (a : Party) : Option Commit :=
  (c.sess.commits.filter (fun x => x.device && sMode x.host == 3 && sPort x.host == p && (sParty x.host).same a)).getLast?

/-- The lowest-indexed free entry of a port's pool (10 R271). -/
def Chip.poolEntry (c : Chip) (p : Nat) : Option Nat :=
  let lo := c.rd (0x6108 + p) 1
  let n := c.rd (0x6108 + p) 2
  let kinds := (bankList (c.bank p (c.activeBank p)) (c.activeCount p)).filter (fun e =>
    !trServo e && Nat.land (trKinds e) 0x3F != 0)
  ((kinds.map trSession).filter (fun i => decide (lo ≤ i) && decide (i < lo + n) && sMode (c.session i).host == 0 &&
    !c.sess.commits.any (fun x => x.device && x.index == i))).min?

/-- The host half of a device-created session (10 R271). -/
def Chip.templateHost (c : Chip) (p idx : Nat) (a : Party) : Nat :=
  let t := c.rd (0x6108 + p) 3
  3 * 2 ^ 254 + a.transport * 2 ^ 252 + (bit 14 t).toNat * 2 ^ 251 + p * 2 ^ 248 + (bit 15 t).toNat * 2 ^ 247 +
    field 13 11 t * 2 ^ 240 + field 7 0 t * 2 ^ 208 + idx % 65536 * 2 ^ 192 + a.vlan % 65536 * 2 ^ 176 + a.mac * 2 ^ 128 + a.addr

/-- A requested grant: message type, log interval, duration. -/
structure GrantAsk where
  ty : Nat
  log : Int
  secs : Nat
  deriving DecidableEq, Repr

/-- The REQUEST_UNICAST_TRANSMISSION TLVs of a message. -/
def grantAsks (m : List Nat) : List GrantAsk :=
  ((tlvs m).filter (fun t => t.1 == 4 && t.2.1 == 6)).map (fun t =>
    ⟨byteAt t.2.2 0 / 16, sext 8 (byteAt t.2.2 1), beN t.2.2 2 4⟩)

/-- The GRANT_UNICAST_TRANSMISSION TLV that answers a request with a duration. -/
def grantTlv (g : GrantAsk) (secs : Nat) : List Nat :=
  [0, 5, 0, 8, g.ty * 16, wrapInt 8 g.log] ++ toBytes 4 secs ++ [0, if secs = 0 then 0 else 1]

/-- The device half after a grant: GRANTED, GRANT_EXPIRY at the latest end, PEER_PORT_ID if not learned. -/
def Chip.grantDev (c : Chip) (d peer bitN secs : Nat) : Nat :=
  let left := (dExpiry d + 65536 - c.time.seconds % 65536) % 65536
  let longer := dGranted d ≠ 0 ∧ secs < left ∧ left < 32768
  let e := if longer then dExpiry d else (c.time.seconds + secs) % 65536
  let d := setField 239 224 (setBit (240 + bitN) d true) e
  if dPeerId d = 0 then setField 223 144 d peer else d

/-- A request from a peer is granted or denied: the duration, and the device (10 R270, R271). -/
def Chip.grantOne (c : Chip) (p : Nat) (a : Party) (peer : Nat) (g : GrantAsk) : Nat × Chip :=
  let pool := 0x6108 + p
  let c := c.inc pool 4
  let deny (c : Chip) : Nat × Chip := (0, c.inc pool 6)
  let secs (i : Nat) : Nat := min g.secs (c.rd (0x6210 + i) 7)
  match c.sessionOf p a with
  | some s =>
    let i := sInst s.host
    if sMode s.host = 1 || dState s.dev == 4 || !c.periodOk i g.ty g.log || secs i = 0 then deny c
    else
      let b := (grantBit g.ty).getD 0
      let d := c.grantDev s.dev peer b (secs i)
      let d := if dState d = 1 ∨ dState d = 3 then setField 251 248 d 2 else d
      let h := match (c.sess.commits.filter (fun x => x.index == s.index)).getLast? with
        | some x => x.host
        | none => s.host
      let c := c.putSession { s with dev := d }
      (secs i, (c.deviceCommit s.index (setLog h g.ty g.log) d).inc pool 5)
  | none =>
    let i := c.rdf pool 3 13 11
    match c.prepared p a with
    | some x =>
      if !c.periodOk i g.ty g.log || secs i = 0 then deny c
      else
        let d := c.grantDev x.dev peer ((grantBit g.ty).getD 0) (secs i)
        let h := setLog x.host g.ty g.log
        let c := c.modSess (fun u => { u with commits := u.commits.map (fun y =>
          if y.device && y.index == x.index then { y with host := h, dev := d } else y) })
        (secs i, c.inc pool 5)
    | none =>
      if !c.periodOk i g.ty g.log || secs i = 0 then deny c
      else
        match c.poolEntry p with
        | none => (0, c)
        | some idx =>
          let d := c.grantDev (2 * 2 ^ 248) peer ((grantBit g.ty).getD 0) (secs i)
          (secs i, (c.deviceCommit idx (setLog (c.templateHost p idx a) g.ty g.log) d).inc pool 5)

/-- An answer in a Signaling message to the peer of a frame, under the session or the port's template. -/
def Chip.answer (c : Chip) (p : Nat) (a : Party) (peer seq : Nat) (own : List Nat) : Chip :=
  let h := match c.sessionOf p a with
    | some s => s.host
    | none =>
      match c.prepared p a with
      | some x => x.host
      | none => c.templateHost p 0 a
  c.sessionSend (setField 175 128 h a.mac) tySignaling seq (signalBody peer) own plainSend

/-- A Signaling message with a TLV of a type. -/
def signalWith (t : Nat) (d : RxDesc) : Bool := msgType (ptpOf d.bytes) == tySignaling && hasTlv t (ptpOf d.bytes)

/-- A request from a new peer finds no entry in the port's pool (10 R271). -/
def Chip.poolFull (c : Chip) (p : Nat) (a : Party) (gs : List GrantAsk) : Bool :=
  let i := c.rdf (0x6108 + p) 3 13 11
  (c.sessionOf p a).isNone && (c.prepared p a).isNone && (c.poolEntry p).isNone &&
    gs.any (fun g => c.periodOk i g.ty g.log && decide (0 < min g.secs (c.rd (0x6210 + i) 7)))

/-- The engine serves the oldest request for unicast transmission (10 R270, R271). On the LO clock requests are held (01 R35).
REQUESTS counts each message type asked for; a request that finds the pool full counts in REFUSED_FULL once for its message, as in
the worked example of chapter 10, and not in DENIALS (DESIGN CHOICE, log 76). -/
def Chip.unicastRequest (c : Chip) (p : Nat) : Chip :=
  if !c.engineRuns || c.shedding then c
  else
    match c.rxFind p 1 useSession (signalWith 4) with
    | (none, c) => c
    | (some f, c) =>
      let m := ptpOf f.bytes
      let a := senderOf f.bytes
      let c := c.iff (c.poolFull p a (grantAsks m)) (fun c => (c.inc (0x6108 + p) 7).raise 100 p 0)
      let r := (grantAsks m).foldl (fun (r : List Nat × Chip) g =>
        let (n, c) := r.2.grantOne p a (msgSource m) g
        (r.1 ++ grantTlv g n, c)) ([], c)
      r.2.answer p a (msgSource m) (msgSeq m) r.1

/-- A session without a grant left: EXPIRED, and released if the device created it (10 R272). -/
def Chip.grantsEnd (c : Chip) (s : Session) : Chip :=
  let p := sPort s.host
  let d := setField 251 248 (setField 247 240 s.dev 0) 3
  let c := (c.putSession { s with dev := d }).inc (0x6108 + p) 8
  c.iff (sMode s.host == 3) (fun c => c.deviceCommit s.index (setField 255 254 s.host 0) 0)

/-- The latest grant of a session ends (10 R272). -/
def Chip.grantExpiry (c : Chip) (idx : Nat) : Chip :=
  let s := c.session idx
  if (sMode s.host = 2 ∨ sMode s.host = 3) ∧ dGranted s.dev ≠ 0 then c.grantsEnd s else c

/-- The engine serves the oldest CANCEL_UNICAST_TRANSMISSION (10 R272). -/
def Chip.unicastCancel (c : Chip) (p : Nat) : Chip :=
  if !c.engineRuns || c.shedding then c
  else
    match c.rxFind p 1 useSession (signalWith 6) with
    | (none, c) => c
    | (some f, c) =>
      let m := ptpOf f.bytes
      let a := senderOf f.bytes
      let ts := ((tlvs m).filter (fun t => t.1 == 6)).map (fun t => byteAt t.2.2 0 / 16)
      let c := match c.sessionOf p a with
        | some s =>
          let d := ts.foldl (fun d t => match grantBit t with
            | some b => setBit (240 + b) d false
            | none => d) s.dev
          let c := (c.putSession { s with dev := d }).inc (0x6108 + p) 9
          if dGranted s.dev ≠ 0 ∧ dGranted d = 0 then c.grantsEnd { s with dev := d } else c
        | none =>
          let ks := match c.instFor p m with
            | some i => c.hearing p i a
            | none => []
          c.overAll ks (fun k c => c.modSess (fun u => { u with servos := modNth u.servos k (fun v => { v with
            granted := v.granted.filter (fun g => !ts.contains g.1) }) }))
      c.answer p a (msgSource m) (msgSeq m) (ts.flatMap (fun t => cancelTlv true t))

/-! ### Requests (10 R264, R266) -/

/-- The fields of a pending request written into a device half. -/
def setPending (d seq stamp : Nat) : Nat :=
  let d := setField 127 112 d seq
  let d := setField 111 96 d (field 49 34 stamp)
  let d := setField 95 64 d (tsSec stamp % 2 ^ 32)
  let d := setField 63 32 d (2 ^ 31 + tsNs stamp)
  setField 19 18 d 0

/-- The pending stamp with the high bits of its seconds restored from the counter (10 R256), as TS128 fields. -/
def Chip.pendingStamp (c : Chip) (d : Nat) : Nat × Nat × Nat :=
  let low := field 95 64 d
  let now := c.time.seconds
  let top := now / 2 ^ 32 * 2 ^ 32
  let s := if low ≤ now % 2 ^ 32 then top + low else top - 2 ^ 32 + low
  (s, field 61 32 d, field 111 96 d)

def sessKey (h idx : Nat) : Nat := sPort h * 65536 + idx
def sessWeight (h : Nat) : Nat := if sAuth h then 3 else 1

/-- The position of the share that holds a key. -/
def shareOf (bounds : List (Nat × Nat)) (key : Nat) : Nat := (bounds.filter (fun b => b.1 ≤ key)).length - 1

/-- The engine of a session works. -/
def Chip.sessionRuns (c : Chip) (s : Session) : Bool :=
  c.engineRuns && (match c.sess.bounds[shareOf c.sess.bounds (sessKey s.host s.index)]? with
    | some (_, g) => c.engWorks g
    | none => false)

/-- The oldest Delay_Req of a session's peer, or Pdelay_Req of a peer-delay session, whose engine works is copied into the device
half (10 R264). -/
def Chip.delayReq (c : Chip) (p : Nat) : Chip :=
  let mine (d : RxDesc) : Option Session := (c.reqSession p d).filter c.sessionRuns
  match c.rxFind p 0 useSession (fun d => (mine d).isSome) with
  | (none, c) => c
  | (some f, c') =>
    match mine f with
    | none => c'
    | some s =>
      let m := ptpOf f.bytes
      let c := c'.iff (dPending s.dev) (fun c => c.inc (0x6230 + p) 8)
      let d := setPending s.dev (msgSeq m) f.stamp
      let d := if dPeerId d = 0 && !sGroup s.host then setField 223 144 d (msgSource m) else d
      c.putSession { s with dev := d, reqTeb := tsTeb f.stamp }

/-- A Delay_Req addressed to a multicast session's group is answered by a multicast Delay_Resp in the hand after its receipt (10
R266). -/
def Chip.multicastResp (c : Chip) (p : Nat) : Chip :=
  if !c.engineRuns || c.shedding then c
  else
    let mine (d : RxDesc) : Option Session := if (c.reqSession p d).isSome then none else
      (c.groupReq p d).filter (fun s => dState s.dev == 2 && !(sAuth s.host && c.saErased (sSa s.host)) && c.sessionRuns s)
    match c.rxFind p 0 useSession (fun d => (mine d).isSome && decide (d.hand < c.handNo)) with
    | (none, c) => c
    | (some f, c') =>
      match mine f with
      | none => c'
      | some s =>
        let m := ptpOf f.bytes
        let h := s.host
        let i := sInst h
        let auth := if sAuth h then some (sSa h) else none
        let t := (tsUnits f.stamp : Int)
        let body := timeBytes t ++ toBytes 10 (msgSource m)
        let msg := c'.ptpHead p i tyDelayResp (msgSeq m) (flagsFor false false) (msgCorr m - timeFrac t) (sLogDelay h) body
        c'.sendBest p (c'.ptpFrame p i (sParty h) (c'.ptpFinish i auth (tsTeb f.stamp) [] msg) plainSend)

/-! ### Shares (10 R267–R269) -/

/-- The engine that serves an entry. -/
def Chip.engineOf (c : Chip) (s : Session) : Option Nat :=
  (c.sess.bounds[shareOf c.sess.bounds (sessKey s.host s.index)]?).map (·.2)

/-- The sessions of a share, by key. -/
def Chip.shareKeys (c : Chip) (k : Nat) : List (Nat × Nat) :=
  let own := (c.sess.table.filter (fun s => sMode s.host != 0 && shareOf c.sess.bounds (sessKey s.host s.index) == k)).map
    (fun s => (sessKey s.host s.index, sessWeight s.host))
  own.foldl (fun l x => (l.filter (fun y => y.1 < x.1)) ++ [x] ++ l.filter (fun y => x.1 < y.1)) []

def loadOf (l : List (Nat × Nat)) : Nat := l.foldl (fun a x => a + x.2) 0

/-- Sessions to move across a boundary toward balance, from the side that is heavier, at most 256. -/
def moveCount : Nat → Nat → Nat → List (Nat × Nat) → Nat
  | 0, _, _, _ => 0
  | _, _, _, [] => 0
  | n + 1, heavy, light, x :: t => if light + x.2 ≤ heavy - x.2 then 1 + moveCount n (heavy - x.2) (light + x.2) t else 0

/-- The boundary between shares `k` and `k + 1` moves, if both have an engine (10 R267). -/
def Chip.rebalanceAt (c : Chip) (k : Nat) : Chip :=
  let idle (k : Nat) : Bool := (c.sess.bounds[k]?).any (fun b => b.2 == 0xFF)
  let a := c.shareKeys k
  let b := c.shareKeys (k + 1)
  let la := loadOf a
  let lb := loadOf b
  let th := c.rd 0x6101 7
  let setB (c : Chip) (key : Nat) : Chip :=
    c.modSess (fun u => { u with bounds := modNth u.bounds (k + 1) (fun x => (key, x.2)) })
  if idle k || idle (k + 1) then c
  else if la > lb + th then
    let n := moveCount 256 la lb a.reverse
    if n = 0 then c else (setB c ((a[a.length - n]?).getD (0, 0)).1).incBy 0x6101 8 n
  else if lb > la + th then
    let n := moveCount 256 lb la b
    let key := match b[n]? with
      | some x => x.1
      | none => ((b.getLast?).getD (0, 0)).1 + 1
    if n = 0 then c else (setB c key).incBy 0x6101 8 n
  else c

/-- Every pair of neighbouring shares, in order. -/
def Chip.rebalance (c : Chip) : Chip := c.each (c.sess.bounds.length - 1) (fun k c => c.rebalanceAt k)

/-- ENGINE_LOAD, ACTIVE, SUSPENDED and COMMIT_QUEUE_LEVEL (10 0x6101). -/
def Chip.engineLoad (c : Chip) (e : Nat) : Nat :=
  match c.sess.bounds.findIdx? (fun b => b.2 == e) with
  | some k => loadOf (c.shareKeys k)
  | none => 0
def Chip.sessionsIn (c : Chip) (st : Nat) : Nat :=
  (c.sess.table.filter (fun s => sMode s.host != 0 && dState s.dev == st)).length

/-! ### Writes -/

/-- The bytes of HOST, DEVICE (10 R260). -/
def Chip.hostRead (c : Chip) : List Nat := toBytes 32 (c.session (c.rd 0x6100 1)).host
def Chip.deviceRead (c : Chip) : List Nat := toBytes 32 (c.session (c.rd 0x6100 1)).shown
/-- HOST fills the window buffer. -/
def Chip.windowWrite (c : Chip) (b : List Nat) : Chip := c.modSess (fun u => { u with window := hostMask (beN b 0 32) })

/-- Pools of different ports overlap or pass SESSION_LIMIT: "value out of range" (10 R271), where 00 R5 alone would give the grade
code, which a POOL_FIRST that is itself no session of the grade gets (DESIGN CHOICE, log 61). -/
def Chip.poolBad (c : Chip) (p lo n : Nat) : Bool :=
  n != 0 && (decide (c.grade.sessions < lo + n) ||
    (List.range c.grade.ports).any (fun q =>
      let l := c.rd (0x6108 + q) 1
      let k := c.rd (0x6108 + q) 2
      q != p && k != 0 && decide (lo < l + k) && decide (l < lo + n)))

/-- The ports of an instance in any role: master, transparent, or slave through a servo (10 R254). -/
def Chip.instPorts (c : Chip) (j : Nat) : Nat :=
  (List.range 4).foldl (fun a n => if c.rd (0x6220 + n) 2 = j then Nat.lor a (c.rd (0x6220 + n) 3) else a)
    (Nat.lor (c.rd (0x6210 + j) 3) (c.rd (0x6210 + j) 4))

/-- The configuration of an instance fits its profile (10 R254): no excluded rate, no two instances on a port with one domain. -/
def Chip.instBad (c : Chip) (i : Nat) : Bool :=
  let prof := c.profileOf i
  let mask (j : Nat) : Nat := c.instPorts j
  prof != 0 &&
    ((prof == 5 && (List.range 8).any (fun p => bit p (mask i) && c.rateOf p == 3)) ||
     ((prof == 3 || prof == 4 || prof == 5) && c.rd (0x6210 + i) 4 != 0) ||
     (List.range 8).any (fun j => j != i && c.profileOf j != 0 && c.rd (0x6210 + j) 2 == c.rd (0x6210 + i) 2 &&
       Nat.land (mask j) (mask i) != 0))

/-- A write names what the grade lacks (12 check 8; 10 0x6100:01). -/
def Chip.sessGrade (c : Chip) (idx sub v : Nat) : Bool :=
  ((idx == 0x6100 && sub == 1) || (decide (0x6108 ≤ idx) && decide (idx < 0x6110) && sub == 1)) && decide (c.grade.sessions ≤ v)

/-- PORT of a unicast master table entry (10 0x6220:09). -/
def masterPort (v : Nat) : Nat := field 183 176 v

/-- A unicast master table entry with a reserved TRANSPORT, or a PORT that no grade has (00 R10). -/
def masterBad (v : Nat) : Bool := decide (3 ≤ field 191 184 v) || decide (8 ≤ masterPort v)

/-- A write breaks a rule that relates it to other values (12 check 9; 10 R254, R271). -/
def Chip.sessRel (c : Chip) (idx sub v : Nat) : Bool :=
  if 0x6108 ≤ idx ∧ idx < 0x6110 then
    if sub = 1 then c.poolBad (idx % 8) v (c.rd idx 2) else if sub = 2 then c.poolBad (idx % 8) (c.rd idx 1) v else false
  else if 0x6210 ≤ idx ∧ idx < 0x6218 ∧ sub ≤ 4 then (c.wr idx sub v).instBad (idx - 0x6210)
  else if 0x6220 ≤ idx ∧ idx < 0x6224 ∧ (sub = 2 ∨ sub = 3) then
    let c := c.wr idx sub v
    c.instBad (c.rd idx 2)
  else if 0x6220 ≤ idx ∧ idx < 0x6224 ∧ 9 ≤ sub ∧ sub ≤ 0x0C then masterBad v
  else false

/-- A write is not allowed in the present state (12 check 10; 10 R254: RATE of a port of an 802.1AS instance). -/
def Chip.sessState (c : Chip) (idx sub v : Nat) : Bool :=
  decide (0x5000 ≤ idx) && decide (idx < 0x5008) && sub == 2 && v == 3 &&
    (List.range 8).any (fun i => c.profileOf i == 5 &&
      bit (idx % 8) (c.instPorts i))

end Sys2Proof.Machine
end

