-- ==== Sys2Proof/Machine/Servos.lean ====
section
/-!
DEFINITION. Sys2Proof/Machine/Servos.lean: the servos behind PKT0–PKT3 (10 R277, R278), peer delay, the transparent clock (10
R279), and SyncE quality levels in ESMC (10 R280, R281).
-/

namespace Sys2Proof.Machine

def Chip.servo (c : Chip) (k : Nat) : Servo := nth c.sess.servos k default
def Chip.modServo (c : Chip) (k : Nat) (f : Servo → Servo) : Chip :=
  c.modSess (fun u => { u with servos := modNth u.servos k f })
def Chip.servoInst (c : Chip) (k : Nat) : Nat := c.rd (0x6220 + k) 2

/-- The servo is kept while the engine clock is on the LO: its candidate is selected or in SOAK (01 R35). -/
def Chip.servoKept (c : Chip) (k : Nat) : Bool :=
  !c.shedding || c.qState (24 + k) == 1 ||
    (List.range c.grade.chans).any (fun ch => c.sel ch == 24 + k || c.selPhase ch == 24 + k)

/-- The selected master. -/
def Chip.master (c : Chip) (k : Nat) : Option Master :=
  (c.servo k).selected.bind (fun id => (c.servo k).masters.find? (fun m => m.portId == id))

/-- SERVO_STATE: off, listening, negotiating, running. -/
def Chip.servoState (c : Chip) (k : Nat) : Nat :=
  let nego := c.profileOf (c.servoInst k) == 4
  let table := (List.range 4).any (fun i => (c.masterEntry k i).isSome)
  let has (t : Nat) : Bool := (c.servo k).granted.any (fun g => g.1 == t)
  if !c.servoOn k then 0
  else if (c.master k).isSome && (!nego || (has tySync && has tyDelayResp)) then 3
  else if nego && table then 2
  else 1

/-- The status objects of a servo follow it. -/
def Chip.servoShow (c : Chip) (k : Nat) : Chip :=
  let c := c.wr (0x6228 + k) 1 (c.servoState k)
  match c.master k with
  | some m => ((c.wr (0x6228 + k) 2 m.portId).wr (0x6228 + k) 3 m.class_).wr (0x6228 + k) 4 m.steps
  | none => ((c.wr (0x6228 + k) 2 0).wr (0x6228 + k) 3 255).wr (0x6228 + k) 4 0

/-- A servo follows whether it is enabled; off, it forgets its masters and exchanges. On the LO clock, an exchange in progress
is marked (01 R26). -/
def Chip.servoWatch (c : Chip) (k : Nat) : Chip :=
  let c := c.iff (!c.servoOn k) (fun c => c.modServo k (fun _ => default))
  let c := c.iff (c.onLo && ((c.servo k).sync.isSome || (c.servo k).delay.isSome)) (fun c =>
    c.modServo k (fun s => { s with
      sync := s.sync.map (fun (x : SyncRec) => { x with onLo := true })
      delay := s.delay.map (fun (x : DelayRec) => { x with onLo := true }) }))
  c.servoShow k

/-- On the LO clock a peer-delay measurement in progress is marked (01 R26). -/
def Chip.pdelayWatch (c : Chip) (p : Nat) : Chip :=
  c.iff (c.onLo && (c.port p).pdelay.isSome) (fun c => c.modPort p (fun y => { y with
    pdelay := y.pdelay.map (fun (x : Pdelay) => { x with onLo := true }) }))

/-- The oldest message for the servo of a type, with a test, in a ring of its ports, in port order; the servo works. -/
def Chip.servoFind (c : Chip) (k ring ty : Nat) (f : RxDesc → Bool) : Option (Nat × RxDesc) × Chip :=
  let mine (d : RxDesc) : Bool := msgType (ptpOf d.bytes) == ty && f d
  let ports := (List.range 8).filter (fun p => c.servoListens k p && (c.rxRing p ring).any (fun d => (d.want.getD []).contains k && mine d))
  match if c.servoWorks k && c.servoKept k then ports else [] with
  | [] => (none, c)
  | p :: _ =>
    let (d, c) := c.rxFind p ring k mine
    (d.map (fun d => (p, d)), c)

/-- A message comes from the selected master. -/
def Chip.fromMaster (c : Chip) (k p : Nat) (d : RxDesc) : Bool :=
  match c.master k with
  | some x => msgSource (ptpOf d.bytes) == x.portId && x.port == p
  | none => false

/-- The data set of an Announce as one number, lower better: the default comparison, or that of G.8275 (10 R277). -/
def Chip.announceRank (c : Chip) (inst : Nat) (m : List Nat) : Nat :=
  let p1 := byteAt m 47
  let cls := byteAt m 48
  let acc := byteAt m 49
  let var := be16 m 50
  let p2 := byteAt m 52
  let id := beN m 53 8
  let st := be16 m 61
  if c.profileOf inst = 3 ∨ c.profileOf inst = 4 then
    let tail := if cls ≤ 127 then st * 2 ^ 64 + id else id * 2 ^ 16 + st
    ((((cls * 256 + acc) * 65536 + var) * 256 + p2) * 256 + c.rd 0x6200 4) * 2 ^ 80 + tail
  else (((((p1 * 256 + cls) * 256 + acc) * 65536 + var) * 256 + p2) * 2 ^ 64 + id) * 65536 + st

/-- The best of the masters heard; equal data sets go by portIdentity. -/
def bestMaster : List Master → Option Master
  | [] => none
  | m :: t =>
    match bestMaster t with
    | some b => if m.rank < b.rank ∨ (m.rank = b.rank ∧ m.portId ≤ b.portId) then some m else some b
    | none => some m

/-- The master is selected by the best master clock algorithm among those heard within their announceReceiptTimeout; a new one
starts with nothing measured. -/
def Chip.selectMaster (c : Chip) (k : Nat) : Chip :=
  let c := c.modServo k (fun s => { s with masters := s.masters.filter (fun m => decide (c.time.mono < m.until_)) })
  let best := (bestMaster (c.servo k).masters).map (fun (m : Master) => m.portId)
  let c := if best = (c.servo k).selected then c
    else
      let c := c.modServo k (fun s => { s with selected := best, sync := none, delay := none, paths := [], out := none })
      c.modCand (24 + k) (fun x => { x with declared := none })
  c.servoShow k

/-- mono at which announceReceiptTimeout intervals from now have passed (10 R277): of the Announce's own logMessageInterval, or,
where that names none (0x7F), of the interval that the servo asks for. -/
def Chip.announceUntil (c : Chip) (k : Nat) (m : List Nat) : Nat :=
  let l := if byteAt m 33 = 0x7F then c.rdi (0x6220 + k) 4 8 else sext 8 (byteAt m 33)
  let n := c.rd (0x6210 + c.servoInst k) 6 * 1000000000 * nsUnit
  c.time.mono + (if 0 ≤ l then n * 2 ^ l.toNat else n / 2 ^ (-l).toNat)

/-- An Announce (10 R277). One of the device itself, or with stepsRemoved 255 or more, does not take part (IEEE 1588-2019, log 28). -/
def Chip.servoAnnounce (c : Chip) (k : Nat) : Chip :=
  match c.servoFind k 1 tyAnnounce (fun _ => true) with
  | (none, c) => c
  | (some (p, d), c) =>
    let m := ptpOf d.bytes
    if 255 ≤ be16 m 61 ∨ msgSource m / 65536 = c.rd 0x6200 1 then c
    else
      let src := senderOf d.bytes
      let dst := targetOf d.bytes
      let a : Party := if dst.group then { dst with vlan := src.vlan } else src
      let x : Master := ⟨msgSource m, p, c.announceRank (c.servoInst k) m, byteAt m 48, be16 m 61, be16 m 44, byteAt m 7,
        a.transport, a.mac, a.addr, a.vlan, c.announceUntil k m⟩
      let old := (c.servo k).selected
      let c := c.modServo k (fun s => { s with masters := s.masters.filter (fun y => y.portId != x.portId) ++ [x] })
      let c := c.selectMaster k
      match c.master k with
      | none => c
      | some y =>
        if y.portId = x.portId ∨ old ≠ some y.portId then
          let c := c.setQuality (24 + k) (classRank y.class_) y.class_
          c.iff (c.selPhase 0 == 24 + k) (fun c =>
            c.utcReceived y.utc (bit 2 y.flags) (bit 1 y.flags) (bit 0 y.flags))
        else c

/-- announceReceiptTimeout intervals without an Announce of the selected master (10 R277). -/
def Chip.announceTimeout (c : Chip) (k : Nat) : Chip :=
  match (c.servo k).selected with
  | none => c
  | some id =>
    let c := c.modServo k (fun s => { s with
      masters := s.masters.filter (fun m => m.portId != id), selected := none, sync := none, delay := none, paths := [],
      out := none })
    let c := c.modCand (24 + k) (fun x => { x with declared := none, ql := none })
    (c.inc (0x6228 + k) 9).servoShow k

/-- Picoseconds of a time in 2^−16 ns. -/
def psOf (t : Rat) : Rat := t * 1000 / 65536

/-- An exchange is complete (10 R278): shown, and a sample computed, at most one per hand. The sample is the instant nearest to t2 at
which the master's clock, `off` behind the counter, passed a whole second. `lo`: the exchange overlapped a period on the LO clock. -/
def Chip.exchangeDone (c : Chip) (k p : Nat) (off : Rat) (t2 : Int) (path : Rat) (lo : Bool) : Chip :=
  let offPs := psOf off - c.rdi (0x6220 + k) 7 32
  let paths := (path :: (c.servo k).paths).take 64
  let least := paths.foldl min path
  let unc := 2 * c.portUnc p + ratCeil (psOf (ratAbs (path - least)))
  let near (x : Rat) : Int := (x + 1 / 2).floor
  let c := (c.wr (0x6228 + k) 5 (satInt 64 (near (psOf path)))).wr (0x6228 + k) 6 (satInt 64 (near offPs))
  let c := (c.wr (0x6228 + k) 7 (min unc (2 ^ 32 - 1))).inc (0x6228 + k) 8
  let secs := near ((psOf t2 - offPs) / 1000000000000)
  let reading := (secs : Rat) * 1000000000000 + offPs
  let scale := (25 / 8 : Rat) * ((c.increment : Rat) * c.nominal / (1000000000 * nsUnit))
  let t := c.laneNow + (reading - c.readPs) / scale
  let coarse := (t / 1024).floor
  let phase := near (t - 1024 * (coarse : Rat))
  let old := (c.servo k).sampled == some c.handNo
  c.modServo k (fun s => { s with
    paths := paths, delay := none, sampled := some c.handNo,
    out := if old then s.out else some ⟨phase, wrapInt 32 coarse, unc, secs.toNat, lo⟩ })

/-- In the peer-to-peer mechanism an exchange is complete once t1 of the Sync is known (10 R278). -/
def Chip.syncKnown (c : Chip) (k p : Nat) : Chip :=
  match (c.servo k).sync, (c.port p).peerDelay with
  | some x, some d =>
    match x.t1 with
    | some t1 => c.iff (c.p2p (c.servoInst k)) (fun c => c.exchangeDone k p ((x.t2 : Rat) - t1 - d) x.t2 d (x.onLo || (c.port p).peerLo))
    | none => c
  | _, _ => c

/-- In the request-response mechanism an exchange is complete once its t1, t3 and t4 are known (10 R278). -/
def Chip.delayKnown (c : Chip) (k p : Nat) : Chip :=
  match (c.servo k).delay with
  | some x =>
    match x.pair.t1, x.t3, x.t4 with
    | some t1, some t3, some t4 =>
      let d21 : Rat := x.pair.t2 - t1
      let d43 : Rat := t4 - t3
      c.exchangeDone k p ((d21 - d43) / 2) x.pair.t2 ((d21 + d43) / 2) (x.onLo || x.pair.onLo)
    | _, _, _ => c
  | none => c

/-- A Sync (10 R278); one that the selected master did not send is served without effect. -/
def Chip.servoSync (c : Chip) (k : Nat) : Chip :=
  match c.servoFind k 0 tySync (fun _ => true) with
  | (none, c) => c
  | (some (p, d), c) =>
    if !c.fromMaster k p d then c
    else
      let m := ptpOf d.bytes
      let t2 : Int := tsUnits d.stamp
      let c := c.modCand (24 + k) (fun x => { x with declared := c.tebOf m })
      let t1 := if msgTwoStep m then none else some (msgTime m 34)
      (c.modServo k (fun s => { s with sync := some ⟨msgSeq m, t1, t2 - msgCorr m, t2, false⟩ })).syncKnown k p

/-- The Follow_Up of a two-step Sync gives its t1, also to the exchange that has paired it. -/
def Chip.servoFollow (c : Chip) (k : Nat) : Chip :=
  match c.servoFind k 1 tyFollowUp (fun _ => true) with
  | (none, c) => c
  | (some (p, d), c) =>
    if !c.fromMaster k p d then c
    else
      let m := ptpOf d.bytes
      let t1 := msgTime m 34 + msgCorr m
      let fits (x : SyncRec) : Bool := x.seq == msgSeq m && x.t1.isNone
      let give (x : SyncRec) : SyncRec := if fits x then { x with t1 := some t1 } else x
      let new := ((c.servo k).sync).any fits
      let c := c.modServo k (fun s => { s with
        sync := s.sync.map give, delay := s.delay.map (fun (x : DelayRec) => { x with pair := give x.pair }) })
      (c.iff new (fun c => c.syncKnown k p)).delayKnown k p

/-- A message of the servo to its master. -/
def Chip.servoFrame (c : Chip) (k : Nat) (x : Master) (type seq : Nat) (body own : List Nat) (w : SendAs) : Option TxDesc :=
  let i := c.servoInst k
  let auth := if c.rdb (0x6220 + k) 8 8 then some (c.rdf (0x6220 + k) 8 7 0) else none
  if (match auth with
      | some sa => c.saErased sa
      | none => false) then none
  else
    let a : Party := ⟨x.transport, x.mac, x.addr, x.vlan⟩
    let m := c.ptpHead x.port i type seq (flagsFor false (!a.group)) 0 127 body
    some (c.ptpFrame x.port i a (c.ptpFinish i auth (c.tebSend x.port) own m) w)

/-- A Delay_Req may be sent: request-response mechanism, running, and a Sync to pair it with received (10 R278). -/
def Chip.delayDue (c : Chip) (k : Nat) : Bool :=
  c.servoState k == 3 && !c.p2p (c.servoInst k) && (c.servo k).sync.isSome

/-- The Delay_Req composed, with the exchange it begins. -/
def Chip.composeDelayReq (c : Chip) (k ring : Nat) (trick : Option Nat) (launch : Bool) (time : Nat) :
    Chip × Option TxDesc :=
  match c.master k, (c.servo k).sync with
  | some x, some y =>
    let seq := ((c.servo k).seq + 1) % 65536
    match c.servoFrame k x tyDelayReq seq (List.replicate 10 0) [] ⟨0, time, true, seq, ring, trick, launch⟩ with
    | some d => (c.modServo k (fun s => { s with seq := seq, delay := some ⟨seq, none, y, none, false⟩ }), some d)
    | none => (c, none)
  | _, _ => (c, none)

/-- The servo has a trick with DELAY_REQ in a port's active plan. -/
def Chip.servoTrick (c : Chip) (k p : Nat) : Bool :=
  (bankList (c.bank p (c.activeBank p)) (c.activeCount p)).any (fun e => trServo e && trSession e == k && bit 6 (trKinds e))

/-- A servo without a trick sends its Delay_Req as best-effort work (10 R278). -/
def Chip.servoDelayReq (c : Chip) (k : Nat) : Chip :=
  if !c.servoWorks k || c.shedding || !c.delayDue k then c
  else
    match c.master k with
    | none => c
    | some x =>
      if c.servoTrick k x.port then c
      else
        match c.composeDelayReq k 1 none false 0 with
        | (c', some d) => (c'.txQueue x.port d).getD c
        | (_, none) => c

/-- The Delay_Resp to the servo's request (10 R278). -/
def Chip.servoDelayResp (c : Chip) (k : Nat) : Chip :=
  match c.servoFind k 1 tyDelayResp (fun _ => true) with
  | (none, c) => c
  | (some (p, d), c) =>
    let m := ptpOf d.bytes
    if !c.fromMaster k p d || beN m 44 10 != c.portIdent p then c
    else
      (c.modServo k (fun s => { s with delay := s.delay.map (fun (x : DelayRec) =>
        if x.seq = msgSeq m then { x with t4 := some (msgTime m 34 - msgCorr m) } else x) })).delayKnown k p

/-- The servo's requests for grants, sent to every master of its table and renewed at half the granted duration (10 R277). -/
def Chip.servoRequest (c : Chip) (k : Nat) : Chip :=
  if !c.servoWorks k || c.shedding || !c.servoOn k || c.profileOf (c.servoInst k) != 4 then c
  else
    c.each 4 (fun i c =>
      match c.masterEntry k i with
      | none => c
      | some (p, a) =>
        if !c.servoListens k p then c
        else
          let dur := toBytes 4 (c.rd (0x6220 + k) 6)
          let ask (ty l : Nat) : List Nat := [0, 4, 0, 6, ty * 16, l] ++ dur
          let own := ask tyAnnounce (c.rd (0x6220 + k) 4) ++ ask tySync (c.rd (0x6220 + k) 4) ++
            ask tyDelayResp (c.rd (0x6220 + k) 5)
          let seq := ((c.servo k).seq + 1) % 65536
          let x : Master := ⟨0, p, 0, 0, 0, 0, 0, a.transport, a.mac, a.addr, a.vlan, 0⟩
          match c.servoFrame k x tySignaling seq (signalBody (2 ^ 80 - 1)) own plainSend with
          | some d => (c.modServo k (fun s => { s with seq := seq })).sendBest p d
          | none => c)

/-- Grants received by the servo (10 R277). -/
def Chip.servoGranted (c : Chip) (k : Nat) : Chip :=
  if c.shedding || !c.servoOn k then c
  else
    match c.servoFind k 1 tySignaling (signalWith 5) with
    | (none, c) => c
    | (some (_, d), c) =>
      let gs := ((tlvs (ptpOf d.bytes)).filter (fun t => t.1 == 5 && t.2.1 == 8)).map (fun t =>
        (byteAt t.2.2 0 / 16, beN t.2.2 2 4))
      let c := gs.foldl (fun c g =>
        let c := c.iff (g.2 == 0) (fun c => c.inc (0x6228 + k) 0x0A)
        c.modServo k (fun s => { s with granted := (s.granted.filter (fun y => y.1 != g.1)) ++ (if g.2 = 0 then [] else [g]) })) c
      c.servoShow k

/-- The computed sample is written to the mailbox (01 R26, 10 R278). -/
def Chip.servoWrite (c : Chip) (k : Nat) : Chip :=
  match (c.servo k).out with
  | none => c
  | some x => (c.modServo k (fun s => { s with out := none })).pktSample k x.phase x.coarse x.unc x.secs x.onLo

/-! ### Peer delay (10 R278: "the port's peer delay") -/

/-- A Pdelay_Resp or its follow-up for the request in progress on a port. -/
def Chip.pdelayResp (c : Chip) (p : Nat) : Chip :=
  if !c.engineRuns then c
  else
    match (c.port p).pdelay with
    | none => c
    | some x =>
      let mine (d : RxDesc) : Bool :=
        let m := ptpOf d.bytes
        msgSeq m == x.seq && beN m 44 10 == c.portIdent p &&
          (if x.resp.isNone then msgType m == tyPdelayResp else msgType m == tyPdelayFollow)
      let done (c : Chip) (turn : Int) (t4 : Int) : Chip :=
        match x.t1 with
        | some t1 => c.modPort p (fun y => { y with peerDelay := some (((t4 : Rat) - t1 - turn) / 2), peerLo := x.onLo, pdelay := none })
        | none => c
      match c.rxFind p (if x.resp.isNone then 0 else 1) useSession mine with
      | (none, c) => c
      | (some d, c) =>
        let m := ptpOf d.bytes
        match x.resp with
        | none =>
          let t4 : Int := tsUnits d.stamp
          if msgTwoStep m then
            c.modPort p (fun y => { y with pdelay := some { x with resp := some (t4, msgTime m 34 - msgCorr m) } })
          else done c (msgCorr m) t4
        | some (t4, t2) => done c (msgTime m 34 + msgCorr m - t2) t4

/-! ### Transparent clock (10 R279) -/

/-- The other TC ports of an instance. -/
def Chip.tcOthers (c : Chip) (i p : Nat) : List Nat :=
  (List.range c.grade.ports).filter (fun q => q != p && c.tcOnPort i q)

/-- The PTP message's correctionField raised, and a UDP checksum computed anew. -/
def addCorr (b : List Nat) (v : Int) : List Nat :=
  let o := ptpOffset b
  let f := frameInfo b
  let b := putBytes b (o + 8) (toBytes 8 (wrapInt 64 (sext 64 (beN b (o + 8) 8) + v)))
  if f.udp && !(f.ipv4 && be16 b (f.l4 + 6) == 0) then setUdpCheck b f.l3 f.l4 f.ipv6 else b

/-- A frame forwarded unchanged in its addresses, with what the MAC adds. -/
def forwarded (b : List Nat) (oneStep time : Nat) (stamp : Bool) : TxDesc :=
  let f := frameInfo b
  let o := ptpOffset b
  { bytes := b, flags := 128 + stamp.toNat * 16 + oneStep * 2, prio := if f.tagged then f.tci / 8192 else 0, tsId := 0,
    l3 := if f.udp then f.l3 else 0, l4 := f.l4, ptp := o,
    trailer := if oneStep ≠ 0 && f.udp && f.ipv6 then o + be16 b (o + 2) else 0, teb := 0, time := time, trick := none,
    ring := 1, tebTx := 0, cells := [] }

/-- A frame joins a port's best-effort ring or is not forwarded. -/
def Chip.tcSend (c : Chip) (q : Nat) (d : TxDesc) : Chip :=
  match if c.up q then c.txQueue q d else none with
  | some c => c
  | none => c.inc (0x6230 + q) 0x0A

/-- Forwarding for an instance is done: it goes with the share that holds the lowest key of the instance's TC ports (10 R267). -/
def Chip.forwardRuns (c : Chip) (i : Nat) : Bool :=
  match (List.range 8).find? (fun q => c.tcOnPort i q) with
  | some q => c.shareRuns (shareOf c.sess.bounds (sessKey (q * 2 ^ 248) 0))
  | none => false

/-- The residence times of the event message before a follow-up are not all known: the message still waits in a port's best-effort
ring (10 R279). -/
def Chip.residenceDue (c : Chip) (p i : Nat) (m : List Nat) : Bool :=
  c.sess.held.any (fun h => h.port == p && h.source == msgSource m && h.seq == msgSeq m) &&
    (c.tcOthers i p).any (fun q => (c.txRing q 1).any (fun t =>
      t.tsRequest && msgSource (ptpOf t.bytes) == msgSource m && msgSeq (ptpOf t.bytes) == msgSeq m))

/-- The oldest PTP frame of a TC port that can be is forwarded out of every other TC port of its instance (10 R279). A follow-up
waits for the residence times of its event message; one without such a message is not forwarded (DEDUCED, log 77). -/
def Chip.tcForward (c : Chip) (p : Nat) : Chip :=
  let inst (d : RxDesc) : Option Nat := (c.instFor p (ptpOf d.bytes)).filter (fun i => c.tcOnPort i p && c.forwardRuns i)
  let follow (m : List Nat) : Bool := msgType m == tyFollowUp || msgType m == tyPdelayFollow
  let ready (d : RxDesc) : Bool :=
    let m := ptpOf d.bytes
    match inst d with
    | some i => !(follow m && c.residenceDue p i m)
    | none => false
  let k := if (c.rxRing p 0).any (fun d => (d.want.getD []).contains useForward && ready d) then 0 else 1
  match c.rxFind p k useForward ready with
  | (none, c) => c
  | (some d, c') =>
    let i := (inst d).getD 0
    let others := c'.tcOthers i p
    let m := ptpOf d.bytes
    let ty := msgType m
    if c.shedding then c'.overAll others (fun q c => c.inc (0x6230 + q) 0x0A)
    else if isEvent ty then
      let peer : Int := if c.p2p i && ty = tySync then ((c.port p).peerDelay.getD 0).floor else 0
      let b := if peer = 0 then d.bytes else addCorr d.bytes peer
      if msgTwoStep m then
        let h : Held := ⟨p, msgSource m, msgSeq m, [], c.handNo⟩
        let c' := c'.modSess (fun u => { u with held := u.held ++ [h] })
        c'.overAll others (fun q c => c.tcSend q (forwarded b 0 d.stamp true))
      else c'.overAll others (fun q c => c.tcSend q (forwarded b 2 d.stamp false))
    else if follow m then
      let h := c'.sess.held.find? (fun h => h.port == p && h.source == msgSource m && h.seq == msgSeq m)
      let c' := c'.modSess (fun u => { u with held := u.held.filter (fun x => some x != h) })
      c'.overAll others (fun q c =>
        match (h.map Held.residence).bind (fun l => l.find? (fun r => r.1 == q)) with
        | some r => c.tcSend q (forwarded (addCorr d.bytes r.2) 0 0 false)
        | none => c.inc (0x6230 + q) 0x0A)
    else c'.overAll others (fun q c => c.tcSend q (forwarded d.bytes 0 0 false))

/-- A two-step event message waited one hand for its Follow_Up (10 R279). -/
def Chip.tcTimeout (c : Chip) (p : Nat) : Chip :=
  c.modSess (fun u => { u with held := u.held.filter (fun h => !(h.port == p && decide (h.hand < c.handNo))) })

/-! ### ESMC (10 R280, R281) -/

/-- The payload of an ESMC PDU after the MAC header. -/
def esmcPayload (b : List Nat) : List Nat := b.drop (frameInfo b).l3

/-- SSM and enhanced codes of a usable PDU (10 R280); a missing or ignored extended TLV leaves the enhanced code none. -/
def esmcCodes (m : List Nat) (essm : Bool) : Option (Nat × Option Nat) :=
  if m.take 6 = [0x0A, 0x00, 0x19, 0xA7, 0x00, 0x01] ∧ byteAt m 6 / 16 = 1 ∧ byteAt m 10 = 1 ∧ be16 m 11 = 4 then
    let ext := if essm ∧ byteAt m 14 = 2 ∧ be16 m 15 = 0x14 ∧ 34 ≤ m.length then some (byteAt m 17) else none
    some (byteAt m 13 % 16, ext)
  else none

/-- A received ESMC PDU is served (10 R280). -/
def Chip.esmcReceive (c : Chip) (p : Nat) : Chip :=
  if !c.lastRuns then c
  else
    match c.rxTake p 2 with
    | (none, c) => c
    | (some d, c) =>
      match esmcCodes (esmcPayload d.bytes) (c.rdb 0x6300 2 0) with
      | none => c.inc (0x6230 + p) 0x0B
      | some (ssm, ext) =>
        let opt2 := c.rd 0x6300 1 == 2
        let r := ssmRank opt2 ssm (ext.getD 0xFF)
        (c.inc (0x6308 + p) 4).setQuality (16 + p) r ((ext.getD 0xFF) * 256 + ssm)

/-- QL_FAILED_TIMEOUT without a usable PDU (10 R280). -/
def Chip.esmcTimeout (c : Chip) (p : Nat) : Chip :=
  match (c.cand (16 + p)).ql with
  | some (15, 0xFF00) => c
  | _ => (c.setQuality (16 + p) 15 0xFF00).inc (0x6308 + p) 5

/-- The code of the best rank of an option that is not better than a rank; DNU or DUS when there is none (10 R281, 02 table
"Quality-level ranks"). Answers the SSM and enhanced codes. -/
def codeFor (opt2 : Bool) (rank : Nat) : Nat × Nat :=
  let t : List (Nat × Nat × Nat) := if opt2 then
      [(3, 0x1, 0xFF), (4, 0x7, 0xFF), (5, 0xD, 0xFF), (7, 0xA, 0xFF), (8, 0x0, 0xFF), (9, 0xC, 0xFF)]
    else [(0, 0x2, 0x21), (1, 0x2, 0x20), (2, 0x2, 0x23), (3, 0x2, 0xFF), (4, 0x4, 0xFF), (5, 0x8, 0xFF), (6, 0xB, 0x22),
      (7, 0xB, 0xFF)]
  match t.find? (fun x => rank ≤ x.1) with
  | some x => (x.2.1, x.2.2)
  | none => (0xF, 0xFF)

/-- The quality level sent on a port (10 table "ESMC quality level sent on port p"): SSM and enhanced codes. -/
def Chip.qlSent (c : Chip) (p : Nat) : Nat × Nat :=
  let g := c.rd (0x5000 + p) 6
  let opt2 := c.rd 0x6300 1 == 2
  let dnu := (0xF, 0xFF)
  let essm := c.rdb 0x6300 2 0
  if 8 ≤ g ∨ c.rdb (0x5010 + p) 1 8 then dnu
  else if c.sel g = 16 + p then dnu
  else
    let st := c.tcState g
    let r := if st = 1 ∨ st = 2 then c.rank (c.sel g) else if essm then 6 else 7
    let q := codeFor opt2 r
    if essm then q else (q.1, 0xFF)

/-- The bytes of an ESMC PDU (10 table "ESMC PDU"). -/
def Chip.esmcFrame (c : Chip) (p : Nat) (event : Bool) : List Nat :=
  let q := c.qlSent p
  let ext := if c.rdb 0x6300 2 0 then
      [2, 0, 0x14, q.2] ++ toBytes 8 (c.rd 0x6200 1) ++ [0, 1, 0] ++ List.replicate 5 0 else []
  let b := toBytes 6 0x0180C2000002 ++ toBytes 6 (c.rd (0x5000 + p) 4) ++ [0x88, 0x09, 0x0A, 0, 0x19, 0xA7, 0, 1,
    if event then 0x18 else 0x10, 0, 0, 0, 1, 0, 4, q.1] ++ ext
  b ++ List.replicate (60 - b.length) 0

/-- An ESMC PDU is sent, at most 10 in any second, one per second on the LO clock (10 R281, 01 R35). -/
def Chip.esmcSend (c : Chip) (p : Nat) (event : Bool) : Chip :=
  let now := c.time.mono
  let second := nsUnit * 1000000000
  let recent := (c.port p).esmcSent.filter (fun t => now < t + second)
  if !c.lastRuns || !c.rdb (0x6308 + p) 1 0 || !c.up p || 10 ≤ recent.length || (event && !(c.port p).esmcChanged) ||
      (event && c.shedding) then c
  else
    let q := c.qlSent p
    let d : TxDesc := ⟨c.esmcFrame p event, 128, 0, 0, 0, 0, 0, 0, 0, 0, none, 1, 0, []⟩
    match c.txQueue p d with
    | none => c
    | some c =>
      let c := c.modPort p (fun x => { x with esmcSent := now :: recent, esmcChanged := false })
      (c.wr (0x6308 + p) 2 (q.2 * 256 + q.1)).inc (0x6308 + p) 3

/-- A change of the quality level a port sends is remembered until a PDU carries it (10 R281). -/
def Chip.esmcWatch (c : Chip) (p : Nat) : Chip :=
  let q := c.qlSent p
  if c.rdb (0x6308 + p) 1 0 && c.rd (0x6308 + p) 2 != q.2 * 256 + q.1 && !(c.port p).esmcSent.isEmpty then
    c.modPort p (fun x => { x with esmcChanged := true })
  else c

/-! ### Stamps of frames sent -/

/-- The stamp of a frame an engine sent reaches it: a servo's t3, a peer-delay t1, the residence of a forwarded two-step message. -/
def Chip.stampTaken (c : Chip) (p : Nat) (d : TxDesc) (s : Nat) : Chip :=
  let m := ptpOf d.bytes
  let t : Int := tsUnits s
  if d.ring = 2 ∨ !d.tsRequest then c
  else if msgSource m ≠ c.portIdent p then
    c.modSess (fun u => { u with held := u.held.map (fun h =>
      if h.source == msgSource m && h.seq == msgSeq m then { h with residence := (p, (t - tsUnits d.time).toNat) :: h.residence }
      else h) })
  else if msgType m = tyDelayReq then
    c.each 4 (fun k c =>
      match (c.servo k).delay, c.master k with
      | some x, some y =>
        if x.seq = msgSeq m && x.t3.isNone && y.port == p then
          let pair := match (c.servo k).sync with
            | some s => if s.at_ < t then s else x.pair
            | none => x.pair
          (c.modServo k (fun s => { s with delay := some { x with t3 := some t, pair := pair } })).delayKnown k p
        else c
      | _, _ => c)
  else if msgType m = tyPdelayReq then
    match (c.port p).pdelay with
    | some x => c.iff (x.seq == msgSeq m) (fun c => c.modPort p (fun y => { y with pdelay := some { x with t1 := some t } }))
    | none => c
  else c

end Sys2Proof.Machine
end

