-- ==== Sys2Proof/Machine/Engines.lean ====
section
/-!
DEFINITION. Sys2Proof/Machine/Engines.lean: the timing engines, the rotating spare and failures (01 R27–R29, 10 R267–R269, 17
R416), and the engine clock with SYSPLL (01 R30–R36).
-/

namespace Sys2Proof.Machine

def Chip.modStart (c : Chip) (f : StartUnit → StartUnit) : Chip := { c with start := f c.start }

/-- The state of an engine set, and the spare. -/
def Chip.setEng (c : Chip) (e st : Nat) : Chip := c.wr 0xE000 (3 + e) st
def Chip.spare (c : Chip) : Nat := c.rd 0xE000 1
def Chip.rotating (c : Chip) : Bool := c.rdb 0xE000 2 0

/-! ### Failures and the spare -/

/-- What an engine's cache holds beyond the last write-back is lost (10 R268). -/
def Chip.cacheLost (c : Chip) (e : Nat) : Chip :=
  let mine (s : Session) : Bool := c.engineOf s == some e
  let n := (c.sess.table.filter (fun s => mine s && s.dev != s.saved)).length
  let c' := c.modSess (fun u => { u with table := u.table.map (fun s => if mine s then { s with dev := s.saved } else s) })
  c'.incBy 0x6101 6 n

/-- An engine becomes FAILED (17 R416, 10 R268). -/
def Chip.engineFailed (c : Chip) (e : Nat) : Chip :=
  let st := c.engState e
  if c.grade.engines ≤ e ∨ (st = 0 ∧ !c.awake (engDom e)) ∨ st = 3 then c
  else
    let c := c.iff (st == 1) (fun c => c.cacheLost e)
    let c := (c.setEng e 3).modStart (fun s => { s with
      fails := modNth s.fails e (fun l => c.time.mono :: l),
      backLoaded := s.backLoaded.filter (· != e), backReady := s.backReady.filter (· != e) })
    let c := c.iff (c.spare == e) (fun c => (c.wr 0xE000 1 0xFF).wrb 0xE000 2 0 false)
    c.post 0x40 (e * 2 ^ 20)

/-- An engine's source is raised with a cause, and the engine fails. -/
def Chip.engineFault (c : Chip) (e cause : Nat) : Chip := (c.raise (104 + e) e cause).engineFailed e

/-- Failures of an engine within the last 3,600 s. -/
def Chip.recentFails (c : Chip) (e : Nat) : Nat :=
  ((nth c.start.fails e []).filter (fun t => c.time.mono < t + 3600 * 1000000000 * nsUnit)).length

/-- The sessions of share `k` between two states. -/
def Chip.shareState (c : Chip) (k old new : Nat) : Chip :=
  c.modSess (fun u => { u with table := u.table.map (fun s =>
    if sMode s.host != 0 && shareOf u.bounds (sessKey s.host s.index) == k && dState s.dev == old then
      { s with dev := setField 251 248 s.dev new, saved := setField 251 248 s.saved new }
    else s) })

/-- Share `k` is served by another engine; 0xFF none. -/
def Chip.setShare (c : Chip) (k e : Nat) : Chip :=
  c.modSess (fun u => { u with bounds := modNth u.bounds k (fun b => (b.1, e)) })

/-- The shares of engines that do not work: the spare takes one over, or its sessions are suspended (01 R29, 10 R269). -/
def Chip.takeOver (c : Chip) : Chip :=
  c.each c.sess.bounds.length (fun k c =>
    match c.sess.bounds[k]? with
    | none => c
    | some (_, e) =>
      if e = 0xFF || c.engState e == 1 || c.engState e == 0 then c
      else
        let s := c.spare
        if s < 16 then
          let c := ((c.setShare k s).setEng s 1).wr 0xE000 1 0xFF
          (c.wrb 0xE000 2 0 false).post 0x41 (e * 2 ^ 20 + s * 2 ^ 16)
        else ((c.setShare k 0xFF).shareState k 2 4).raise 101 0 0)

/-- A FULL session names the engine (15 R393, R398). -/
def Chip.heldFull (c : Chip) (e : Nat) : Bool := c.rd 0xB100 1 == 2 && bit e c.sec.debugMask

/-- An engine alone is reset: both of its memories are cleared, and it is RETURNING (17 R416). -/
def Chip.engineReset (c : Chip) (e : Nat) : Chip :=
  (c.modStart (fun s => { s with
    ram := s.ram.filter (fun w => !(decide (0x50000000 ≤ w.1) && decide (w.1 < 0x51000000) && (w.1 - 0x50000000) / 0x100000 == e))
    backLoaded := s.backLoaded.filter (· != e), backReady := s.backReady.filter (· != e) })).setEng e 5

/-- Failed engines are reset and return (17 R416 step 1). -/
def Chip.beginReturn (c : Chip) : Chip :=
  c.each c.grade.engines (fun e c =>
    if c.engState e == 3 && !c.heldFull e && !c.start.retryWait.contains e && decide (c.recentFails e < 3) then c.engineReset e else c)

/-- Engines that passed their test return to service: to a share without an engine, else as the spare (17 R416 step 3, 10 R269). -/
def Chip.endReturn (c : Chip) : Chip :=
  c.overAll c.start.backReady (fun e c =>
    if c.engState e != 5 || c.heldFull e then c
    else
      let c := (c.inc 0xE000 0x13).modStart (fun s => { s with backReady := s.backReady.filter (· != e), backLoaded := s.backLoaded.filter (· != e) })
      match c.sess.bounds.findIdx? (fun b => b.2 == 0xFF) with
      | some k => ((c.setShare k e).setEng e 1).shareState k 4 2
      | none =>
        if c.spare = 0xFF then ((c.setEng e 2).wr 0xE000 1 e).wrb 0xE000 2 0 true
        else c.setEng e 1)

/-- The next spare in ascending cyclic order: the next present engine that works (01 R28). -/
def Chip.nextWorking (c : Chip) : Option Nat :=
  let n := c.grade.engines
  ((List.range n).map (fun i => (c.spare + 1 + i) % n)).find? (fun e => c.engState e == 1)

/-- The spare role moves: the outgoing spare takes over the share of the incoming one (01 R28). -/
def Chip.rotate (c : Chip) (e : Nat) : Chip :=
  let s := c.spare
  if !c.rotating || c.engState e != 1 || c.engState s != 2 then c
  else
    let c := match c.sess.bounds.findIdx? (fun b => b.2 == e) with
      | some k => c.setShare k s
      | none => c
    ((c.setEng s 1).setEng e 2).wr 0xE000 1 e

/-- Engines named for FULL debug are drained at the deal (15 R393). -/
def Chip.debugDrain (c : Chip) : Chip :=
  if c.rd 0xB100 1 ≠ 2 then c
  else
    let c := c.each c.grade.engines (fun e c =>
      c.iff (bit e c.sec.debugMask && c.engState e != 0 && c.engState e != 4) (fun c => c.setEng e 4))
    { c with sec := { c.sec with drained := c.sec.debugMask } }

/-- The engine duties of a deal take effect: takeovers, returns, rotation, balance (09 R245 step 9). -/
def Chip.engineDeal (c : Chip) : Chip :=
  let c := c.debugDrain.endReturn.takeOver.beginReturn
  let c := match c.hand.nextSpare with
    | some e => c.rotate e
    | none => c
  { c.rebalance with hand := { c.hand with nextSpare := none } }

/-- Key ranges of equal width for `n` shares. -/
def firstBounds (es : List Nat) : List (Nat × Nat) :=
  (List.range es.length).map (fun i => (i * 524288 / es.length, nth es i 0))

/-- Loaded engines whose domain is awake start. At a first start TE0, or the lowest that passed, is the spare, and the others
take equal key ranges (DESIGN CHOICE, log 29). Later each takes up again what it did: the spare, or its share. -/
def Chip.enginesStart (c : Chip) : Chip :=
  let es := (List.range c.grade.engines).filter (fun e => c.engState e == 0 && c.awake (engDom e))
  if c.sess.bounds = [] ∧ c.spare = 0xFF then
    match es with
    | [] => c
    | s :: ws =>
      let c := ((c.setEng s 2).wr 0xE000 1 s).wrb 0xE000 2 0 true
      (c.overAll ws (fun e c => c.setEng e 1)).modSess (fun u => { u with bounds := firstBounds ws })
  else c.overAll es (fun e c => c.setEng e (if c.spare == e then 2 else 1))

/-- An engine domain loses its content: its engines stop and their caches are lost (14 R363, R369). A failed engine and one under
FULL debug stay so; one that was returning is loaded and tested again before it returns (17 R416). -/
def Chip.enginesLost (c : Chip) (d : Dom) : Chip :=
  let c := c.each c.grade.engines (fun e c =>
    if engDom e == d then
      let c := c.iff (c.engState e == 1) (fun c => c.cacheLost e)
      c.iff (c.engState e == 1 || c.engState e == 2) (fun c => c.setEng e 0)
    else c)
  c.modStart (fun s => { s with
    backLoaded := s.backLoaded.filter (fun e => engDom e != d), backReady := s.backReady.filter (fun e => engDom e != d)
    ram := s.ram.filter (fun w =>
      !(decide (0x50000000 ≤ w.1) && decide (w.1 < 0x51000000) && engDom ((w.1 - 0x50000000) / 0x100000) == d)) })

/-- FABRIC loses its memory but what is retained (14 R363, R364). -/
def Chip.fabricRamLost (c : Chip) : Chip :=
  c.modStart (fun s => { s with ram := s.ram.filter (fun w =>
    !(decide (0x40800000 ≤ w.1) && decide (w.1 < 0x40C00000))) })

/-! ### The engine clock (01 R30–R36) -/

/-- FABRIC, ENGA, ENGB or PORT is awake. -/
def Chip.clockUsed (c : Chip) : Bool := c.awake .fabric || c.awake .enga || c.awake .engb || c.awake .port

def Chip.syspllLocked (c : Chip) : Bool := c.rdb 0x4008 2 0
/-- The core APLL source is eligible. -/
def Chip.apllEligible (c : Chip) : Bool := c.awake .synth && c.apllLocked && c.rd 0x4001 1 == 10000000
/-- A source is eligible: 0 SYSPLL, 1 core APLL, 2 LO. -/
def Chip.eligible (c : Chip) (s : Nat) : Bool :=
  if s = 0 then c.syspllLocked else if s = 1 then c.apllEligible else s == 2 && c.loPresent
/-- The most preferred eligible source. -/
def Chip.bestSource (c : Chip) : Option Nat := [0, 1, 2].find? c.eligible

/-- The multiplexer begins a move. -/
def Chip.muxMove (c : Chip) (s : Nat) : Chip := c.modStart (fun u => { u with muxTo := some s })

/-- SYSPLL is restarted with none of its users awake (01 R33). -/
def Chip.syspllRestart (c : Chip) : Chip :=
  (c.iff (!c.clockUsed) (fun c => c.inc 0x4008 6)).modStart (fun u => { u with sysRestarting := true, sysGood := 0 })

/-- SYSPLL loses lock (01 R31–R33). -/
def Chip.syspllLoss (c : Chip) : Chip :=
  let c := c.wrb 0x4008 2 0 false
  let c := match c.bestSource with
    | some s => c.iff (c.clockUsed && c.rd 0x4008 1 == 0) (fun c => c.muxMove s)
    | none => c
  (c.modStart (fun u => { u with sysRestarts := 0 })).syspllRestart

/-- A SYSPLL lock window ends (01 R31). -/
def Chip.syspllWindow (c : Chip) (count : Nat) : Chip :=
  let w := roundDiv (c.nominal * 128) 100000000
  let exp := w * 1000000000 / c.nominal
  let d := if exp ≤ count then count - exp else exp - count
  if !(c.awake .syspll || c.waking .syspll) || !c.loPresent || c.start.untrusted.contains .syspll then c
  else if c.syspllLocked then
    if exp < 100 * d then c.syspllLoss else c
  else
    let g := if d ≤ 1 ∨ 1000 * d ≤ exp then c.start.sysGood + 1 else 0
    if 4 ≤ g then
      (c.wrb 0x4008 2 0 true).modStart (fun u => { u with sysGood := 0, sysRestarting := false, sysRestarts := 0, sysFailed := false })
    else c.modStart (fun u => { u with sysGood := g })

/-- SYSPLL has not locked within 100 µs of a restart (01 R33). -/
def Chip.syspllTimeout (c : Chip) : Chip :=
  if !c.start.sysRestarting || c.syspllLocked then c
  else
    let n := c.start.sysRestarts + 1
    let c := c.iff (n == 3) (fun c => (c.raise 58 0 0).modStart (fun u => { u with sysFailed := true }))
    (c.modStart (fun u => { u with sysRestarts := n % 3 })).syspllRestart

/-- The old clock has stopped (01 R32). -/
def Chip.clockStop (c : Chip) : Chip :=
  if c.start.muxTo.isSome then c.modStart (fun u => { u with muxHeld := true }) else c

/-- LO_TIME_NS is brought up to date. -/
def Chip.loTime (c : Chip) : Chip :=
  let n := (c.time.mono - c.start.loSince) / nsUnit
  let c := c.iff (c.onLo) (fun c => c.wr 0x4008 7 (satAdd 64 (c.rd 0x4008 7) n))
  c.modStart (fun u => { u with loSince := c.time.mono })

/-- The engine clock is taken from a source from now on: time on the LO ends or begins, work shed on the LO stays shed until a deal,
and F057 is live while the source is the LO (01 R32, R35). No count. -/
def Chip.clockTake (c : Chip) (s : Nat) : Chip :=
  let c := c.loTime.modStart (fun u => { u with muxTo := none, muxHeld := false, shed := u.shed || c.onLo })
  (c.wr 0x4008 1 s).follow 57 0 0 (s == 2)

/-- The new source starts: the move is counted (01 R32, R34). A move to a more preferred source counts in RETURNS alone, be it from
the LO to the core APLL, or to SYSPLL from a core APLL that stopped being eligible: neither counts as a move to the core APLL or
raises F056 (DESIGN CHOICE, log 57). -/
def Chip.clockStart (c : Chip) : Chip :=
  match c.start.muxTo with
  | none => c
  | some s =>
    if !c.start.muxHeld then c
    else
      let old := c.rd 0x4008 1
      let c := c.clockTake s
      if s < old then c.inc 0x4008 5
      else if s = 1 then (c.inc 0x4008 3).raise 56 0 0
      else c.inc 0x4008 4

/-- A first user of the clock wakes: it is served on the most preferred eligible source, which is no move (01 R30, R33). -/
def Chip.clockServe (c : Chip) : Chip :=
  match c.bestSource with
  | some s => if s = c.rd 0x4008 1 then c else c.clockTake s
  | none => c

/-- A wake of a user can be served: others already run, or SYSPLL is locked, or no restart of it is awaited and another source is
eligible (01 R33). -/
def Chip.clockReady (c : Chip) : Bool :=
  c.clockUsed || c.syspllLocked || ((!c.start.sysRestarting || c.start.sysFailed) && c.bestSource.isSome)

/-- The clock follows: eligibility is shown, and the instant since which each preferred source has been eligible is kept. A source
other than SYSPLL that stops being eligible under its users is left too (log 30); without users nothing moves (01 R33). -/
def Chip.clockWatch_ (c : Chip) : Chip :=
  let c := c.wrb 0x4008 2 1 c.apllEligible
  let since (ok : Bool) (old : Option Nat) : Option Nat := if ok then some (old.getD c.time.mono) else none
  let c := c.modStart (fun u => { u with
    sysSince := since c.syspllLocked u.sysSince, apllSince := since c.apllEligible u.apllSince })
  let cur := c.rd 0x4008 1
  if cur = 3 || !c.clockUsed || c.eligible cur || !c.loPresent || c.start.muxTo.isSome then c
  else
    match c.bestSource with
    | some s => c.muxMove s
    | none => c

/-- The source has been eligible without a break since a hand before an instant (01 R34). -/
def Chip.eligibleSince (c : Chip) (s at_ : Nat) : Bool :=
  match if s = 0 then c.start.sysSince else c.start.apllSince with
  | some t => decide (t + c.handLen * nsUnit ≤ at_)
  | none => false

/-- After the processing of the deal at `at_` the clock returns to the most preferred source that has been eligible for a hand (01
R34). While the LO is absent no move is made on the PLLs' account (01 R36). -/
def Chip.clockReturn (c : Chip) (at_ : Nat) : Chip :=
  if c.start.muxTo.isSome || !c.loPresent then c
  else
    match [0, 1].find? (fun s => decide (s < c.rd 0x4008 1) && c.rd 0x4008 1 != 3 && c.eligible s && c.eligibleSince s at_) with
    | some s => c.muxMove s
    | none => c

/-- The LO is declared absent with the engine clock on it: the clock stops and the engines halt (01 R36). -/
def Chip.clockHalt (c : Chip) : Chip := if c.onLo then c.clockTake 3 else c

/-- The LO returns after such a halt: ENGA and ENGB are block-reset (01 R36). -/
def Chip.clockResume (c : Chip) : Chip :=
  if c.rd 0x4008 1 ≠ 3 then c
  else
    let c := c.clockTake (c.bestSource.getD 2)
    { c with power := { c.power with resetDoms := c.power.resetDoms ++ [.enga, .engb] } }

end Sys2Proof.Machine
end

