-- ==== Sys2Proof/Machine/Hands.lean ====
section
/-!
DEFINITION. Sys2Proof/Machine/Hands.lean: what a trick sends and how it ends (09 R239–R243, R252; 10 R263–R265), and the deal
(09 R244–R250).
-/

namespace Sys2Proof.Machine

def Chip.modHand (c : Chip) (f : HandUnit → HandUnit) : Chip := { c with hand := f c.hand }

/-! ### Due messages (10 R263, R264) -/

/-- Kinds of a trick entry by bit, in the order their frames are sent (09 table "Trick kinds"). -/
def kindOrder : List Nat := [0, 1, 2, 4, 5, 6, 3]

/-- A session sends two-step: asked for, or because it authenticates (10 R275). -/
def twoStepOf (h : Nat) : Bool := sTwoStep h || sAuth h

/-- The session of an entry serves on the port: ACTIVE, or SUSPENDED, whose tricks are missed (10 R269); an association without
its key makes its tricks null (10 R275). -/
def Chip.sessionLive (c : Chip) (p : Nat) (s : Session) : Bool :=
  sMode s.host != 0 && sPort s.host == p && (dState s.dev == 2 || dState s.dev == 4) && !(sAuth s.host && c.saErased (sSa s.host))

/-- A response to the session's pending request is composed already and waits in the SCHED ring or the LTU (10 R264). -/
def Chip.answering (c : Chip) (s : Session) : Bool :=
  let p := sPort s.host
  (c.txRing p 0 ++ (c.port p).ltu ++ (c.port p).late).any (fun d =>
    let m := ptpOf d.bytes
    d.trick.any (fun i => !trServo (c.trickAt p i) && trSession (c.trickAt p i) == s.index) &&
      (msgType m == tyDelayResp || msgType m == tyPdelayResp) && msgSeq m == dReqSeq s.dev)

/-- A kind is due for a session in the present hand. -/
def Chip.sessionDue (c : Chip) (s : Session) (kind : Nat) : Bool :=
  let h := s.host
  let d := s.dev
  let open_ (b : Nat) : Bool := sMode h == 1 || sGroup h || dGrantedBit d b
  let now (l : Int) : Bool := dueIn c.handLen c.handNo (sPhase h) l
  let peer := c.peerDelaySession h
  match kind with
  | 0 => !peer && open_ gSync && now (sLogSync h)
  | 1 => !peer && open_ gSync && now (sLogSync h) && twoStepOf h
  | 2 => !peer && !sGroup h && open_ gDelay && dPending d && !c.answering s
  | 3 => !peer && open_ gAnnounce && now (sLogAnnounce h)
  | 4 => peer && now (sLogSync h)
  | 5 => peer && dPending d && !c.answering s
  | _ => false

/-- Servo `k` runs on the port. -/
def Chip.servoHere (c : Chip) (k p : Nat) : Bool :=
  c.servoState k == 3 && (match c.master k with
    | some x => x.port == p
    | none => false) &&
    !(c.rdb (0x6220 + k) 8 8 && c.saErased (c.rdf (0x6220 + k) 8 7 0))

/-- A kind is due for a servo: its requests at LOG_DELAY, counted from hand 0 (log 28). -/
def Chip.servoDue (c : Chip) (k kind : Nat) : Bool :=
  let now := dueIn c.handLen c.handNo 0 (c.rdi (0x6220 + k) 5 8)
  if kind = 6 then now && c.delayDue k else kind == 4 && now && c.p2p (c.servoInst k)

/-- The trick's consumer is active on the port (09 R241). -/
def Chip.trickActive (c : Chip) (p e : Nat) : Bool :=
  if trServo e then c.servoHere (trSession e) p else c.sessionLive p (c.session (trSession e))

/-- The kinds of a trick that are due in the present hand, in sending order; a Follow_Up is that of a Sync of the same trick. -/
def Chip.trickKinds (c : Chip) (p e : Nat) : List Nat :=
  if !c.trickActive p e then []
  else kindOrder.filter (fun k => bit k (trKinds e) && (k != 1 || bit 0 (trKinds e)) &&
    (if trServo e then c.servoDue (trSession e) k else c.sessionDue (c.session (trSession e)) k))

/-- A Pdelay_Resp is sent two-step also where a launch time takes the place of its ingress stamp (08 R217, log 28). -/
def Chip.respTwoStep (c : Chip) (e : Nat) : Bool := twoStepOf (c.session (trSession e)).host || trLtu e

/-- Frames of a kind: a two-step Pdelay_Resp brings its follow-up. -/
def Chip.framesOf (c : Chip) (e k : Nat) : Nat := if k = 5 ∧ c.respTwoStep e then 2 else 1

/-- The number of due frames of a trick. -/
def Chip.dueCount (c : Chip) (p e : Nat) : Nat := (c.trickKinds p e).foldl (fun a k => a + c.framesOf e k) 0

/-! ### Composition (09 R239, 10 R263, R264, R274) -/

/-- A message of a session as a frame of a trick. -/
def Chip.sessionFrame (c : Chip) (h type seq flags : Nat) (corr log : Int) (body : List Nat) (teb : Nat) (w : SendAs) : TxDesc :=
  let p := sPort h
  let i := sInst h
  let auth := if sAuth h then some (sSa h) else none
  c.ptpFrame p i (sParty h) (c.ptpFinish i auth teb [] (c.ptpHead p i type seq flags corr log body)) w

/-- A follow-up with its precise time and bound (10 R274). -/
def Chip.followFrame (c : Chip) (h type seq : Nat) (t : Int) (teb : Nat) (req : Nat) (trick : Option Nat) : TxDesc :=
  let uni := !sGroup h
  let log := if type = tyFollowUp then logFor uni (sLogSync h) else 127
  let body := timeBytes t ++ (if type = tyPdelayFollow then toBytes 10 req else [])
  c.sessionFrame h type seq (flagsFor false uni) (timeFrac t) log body teb ⟨0, 0, false, seq, 0, trick, false⟩

/-- The frames of a kind of a session's trick. -/
def Chip.composeKind (c : Chip) (e idx : Nat) (launch : Bool) (k : Nat) : List TxDesc :=
  let s := c.session (trSession e)
  let h := s.host
  let d := s.dev
  let p := sPort h
  let uni := !sGroup h
  let start := c.trickStart_ e
  let at_ := packTs (start / 1000000000) (start % 1000000000) 0 0 0
  let two := twoStepOf h
  let send (one : Nat) (time : Nat) (stamp : Bool) (id : Nat) : SendAs := ⟨one, time, stamp, id, 0, some idx, launch⟩
  let syncSeq := seqIn c.handLen c.handNo (sPhase h) (sLogSync h)
  let zero := List.replicate 10 0
  match k with
  | 0 =>
    if two then
      let teb := encodeTeb (c.bound.map (fun b => b + c.portUnc p + trLen e * 64000))
      [c.sessionFrame h tySync syncSeq (flagsFor true uni) 0 (logFor uni (sLogSync h)) (timeBytes ((start : Int) * 65536)) teb
        (send 0 at_ true syncSeq)]
    else [c.sessionFrame h tySync syncSeq (flagsFor false uni) 0 (logFor uni (sLogSync h)) zero 0 (send 1 at_ false syncSeq)]
  | 1 => [c.followFrame h tyFollowUp syncSeq ((start : Int) * 65536) (c.tebSend p) 0 (some idx)]
  | 2 =>
    let (sec, ns, frac) := c.pendingStamp d
    let t : Int := ((sec * 1000000000 + ns) * 65536 + frac : Nat)
    [c.sessionFrame h tyDelayResp (dReqSeq d) (flagsFor false uni) (-(frac : Int)) (sLogDelay h)
      (timeBytes t ++ toBytes 10 (dPeerId d)) s.reqTeb (send 0 at_ false 0)]
  | 3 =>
    let seq := seqIn c.handLen c.handNo (sPhase h) (sLogAnnounce h)
    [c.sessionFrame h tyAnnounce seq (c.announceFlags uni) 0 (sLogAnnounce h) c.announceBody (c.tebSend p) (send 0 at_ false 0)]
  | 4 => [c.sessionFrame h tyPdelayReq syncSeq (flagsFor false uni) 0 127 (zero ++ zero) (c.tebSend p) (send 0 at_ true syncSeq)]
  | 5 =>
    let (sec, ns, frac) := c.pendingStamp d
    let ts := packTs sec ns frac 0 0
    let t : Int := (tsUnits ts : Nat)
    if c.respTwoStep e then
      [c.sessionFrame h tyPdelayResp (dReqSeq d) (flagsFor true uni) (-(frac : Int)) 127 (timeBytes t ++ toBytes 10 (dPeerId d))
         s.reqTeb (send 0 at_ true (dReqSeq d)),
       c.followFrame h tyPdelayFollow (dReqSeq d) t (c.tebSend p) (dPeerId d) (some idx)]
    else
      [c.sessionFrame h tyPdelayResp (dReqSeq d) (flagsFor false uni) 0 127 (zero ++ toBytes 10 (dPeerId d)) (c.tebSend p)
        (send 2 ts false 0)]
  | _ => []

/-- The frames of a trick, and the device with the exchanges they begin. -/
def Chip.composeTrick (c : Chip) (p idx : Nat) : Chip × List TxDesc :=
  let e := c.trickAt p idx
  (c.trickKinds p e).foldl (fun (r : Chip × List TxDesc) k =>
    let launch := trLtu e && r.2.isEmpty
    let start := c.trickStart_ e
    let time := packTs (start / 1000000000) (start % 1000000000) 0 0 0
    if trServo e && k = 6 then
      match r.1.composeDelayReq (trSession e) 0 (some idx) launch time with
      | (c', some d) => (c', r.2 ++ [d])
      | (c', none) => (c', r.2)
    else if trServo e then
      let s := trSession e
      let seq := ((r.1.servo s).seq + 1) % 65536
      match r.1.master s with
      | some x =>
        match r.1.servoFrame s x tyPdelayReq seq (List.replicate 20 0) [] ⟨0, time, true, seq, 0, some idx, launch⟩ with
        | some d => ((r.1.modServo s (fun v => { v with seq := seq })).modPort p (fun y => { y with
            pdelay := some ⟨seq, none, none, false⟩ }), r.2 ++ [d])
        | none => r
      | none => r
    else
      let ds := (r.1.composeKind e idx launch k).map (fun d => { d with time := if d.launch then time else d.time })
      let c' := r.1.iff (k == 4) (fun c => c.modPort p (fun y => { y with
        pdelay := some ⟨seqIn c.handLen c.handNo (sPhase (c.session (trSession e)).host)
          (sLogSync (c.session (trSession e)).host), none, none, false⟩ }))
      (c', r.2 ++ ds)) (c, [])

/-- The engine that serves the trick works. -/
def Chip.trickServed (c : Chip) (e : Nat) : Bool :=
  if trServo e then c.servoKept (trSession e) && c.servoWorks (trSession e)
  else !c.shedding && dState (c.session (trSession e)).dev == 2 && c.sessionRuns (c.session (trSession e))

/-- A trick's reason set before it begins. -/
def Chip.markTrick (c : Chip) (p idx reason : Nat) : Chip :=
  c.modPort p (fun x => { x with
    due := x.due.map (fun t => if t.idx = idx then { t with reason := reason } else t)
    open_ := x.open_.map (fun t => if t.idx = idx then { t with reason := reason } else t) })

/-- Its frames still queued are dropped. -/
def Chip.dropTrick (c : Chip) (p idx : Nat) : Chip :=
  let ds := (c.txRing p 0).filter (fun d => d.trick == some idx)
  let c := ds.foldl (fun c d => (c.txStatus p d 6).noStamp p d) c
  c.modPort p (fun x => { x with tx := modNth x.tx 0 (fun l => l.filter (fun d => d.trick != some idx)) })

/-- A frame of a trick has been started: counted for the trick (09 R241). -/
def Chip.trickStarted (c : Chip) (p : Nat) (d : TxDesc) : Chip :=
  match d.trick with
  | none => c
  | some i =>
    let up (t : Trick) : Trick := if t.idx = i then { t with started := t.started + 1 } else t
    c.modPort p (fun x => { x with due := x.due.map up, open_ := x.open_.map up })

/-- The session whose message a frame sent is: that of its trick, or for best-effort work that of the party it goes to. -/
def Chip.sessionFor (c : Chip) (p : Nat) (d : TxDesc) : Option Session :=
  match d.trick with
  | some i => if trServo (c.trickAt p i) then none else some (c.session (trSession (c.trickAt p i)))
  | none =>
    let m := ptpOf (c.port p).wire
    let a := targetOf (c.port p).wire
    if d.ring ≠ 1 ∨ msgSource m ≠ c.portIdent p ∨ msgType m = tyDelayReq ∨ hasTlv 4 m then none
    else if a.group then c.groupSession p a else c.sessionOf p a

/-- What a sent frame means for its session (10 R256, R264): LAST_TEB, EXCHANGES, and the pending request is answered. -/
def Chip.sessionSent (c : Chip) (p : Nat) (d : TxDesc) : Chip :=
  match c.sessionFor p d with
  | none => c
  | some x =>
    let m := ptpOf (c.port p).wire
    let ty := msgType m
    let v := setField 17 0 x.dev ((c.tebOf m).getD (c.tebSend p))
    let v := if ty = tyDelayResp ∨ ty = tyPdelayResp then
        setField 143 128 (if dReqSeq v = msgSeq m then setBit 63 v false else v) (field 143 128 v + 1)
      else v
    c.putSession { x with dev := v }

/-- The follow-up of a two-step message of a trick takes its stamp; without it, it is not sent (DESIGN CHOICE, log 75). -/
def Chip.followSent (c : Chip) (p : Nat) (d : TxDesc) (stamp : Option Nat) : Chip :=
  match c.sessionFor p d, d.trick with
  | some x, some i =>
    let m := ptpOf (c.port p).wire
    if !msgTwoStep m then c
    else
      let want := if msgType m = tySync then tyFollowUp else tyPdelayFollow
      let mine (y : TxDesc) : Bool := y.trick == some i && msgType (ptpOf y.bytes) == want && msgSeq (ptpOf y.bytes) == msgSeq m
      match stamp with
      | some s =>
        let f := c.followFrame x.host want (msgSeq m) (tsUnits s) (tsTeb s) (dPeerId x.dev) (some i)
        c.modPort p (fun y => { y with tx := modNth y.tx 0 (List.map (fun y => if mine y then { f with cells := y.cells } else y)) })
      | none =>
        let c := ((c.txRing p 0).filter mine).foldl (fun c y => c.txStatus p y 6) c
        c.modPort p (fun y => { y with tx := modNth y.tx 0 (List.filter (fun y => !mine y)) })
  | _, _ => c

/-- An engine reads the stamp it asked for from its partition, where it has not been lost (07 R191, R192). -/
def Chip.engineStamp (c : Chip) (p : Nat) (d : TxDesc) (s : Nat) : Bool × Chip :=
  if d.ring != 2 && d.tsRequest && c.engineRuns && (c.port p).tsEngine.contains s then
    (true, (c.modPort p (fun x => { x with tsEngine := x.tsEngine.erase s })).showQueue p)
  else (false, c)

/-- A frame has been sent with its stamp: its trick, its session and the engine that asked for the stamp learn of it. -/
def Chip.sent (c : Chip) (p : Nat) : Option (TxDesc × Nat) → Chip
  | none => c
  | some (d, s) =>
    let r := ((c.trickStarted p d).sessionSent p d).engineStamp p d s
    let c := r.2.followSent p d (if r.1 then some s else none)
    c.iff r.1 (fun c => c.stampTaken p d s)

/-- A transmission and what follows a frame that was sent. -/
def sending (p : Nat) (x : Chip × Option (TxDesc × Nat)) : Chip := x.1.sent p x.2

/-- A late launch is sent once the MAC may start it (07 R200). -/
def Chip.lateWatch (c : Chip) (p : Nat) : Chip := c.iff (!(c.port p).late.isEmpty) (fun c => sending p (c.lateSend p))

/-- The frames of a trick are composed into the SCHED ring (09 R239, R240, 10 R262). `late`: the entry was not in the cache in
time; `miss`: it was fetched outside prefetch. -/
def Chip.trickCompose (c : Chip) (p : Nat) (late miss : Bool) : Chip :=
  let idx := (c.port p).composed
  if c.activeCount p ≤ idx || (c.port p).closed || !c.portOn p then c
  else
    let e := c.trickAt p idx
    let n := c.dueCount p e
    let c := c.modPort p (fun x => { x with composed := idx + 1, due := x.due ++ [⟨idx, n, 0, 0, false⟩] })
    let c := c.iff miss (fun c => c.inc 0x6101 4)
    let c := c.iff (late && n != 0) (fun c => c.inc 0x6101 5)
    if late || n = 0 || !c.engineRuns || !c.trickServed e then c
    else
      let (c, ds) := c.composeTrick p idx
      match ds with
      | [] => c
      | d :: t =>
        let queue (c : Chip) (l : List TxDesc) : Chip := l.foldl (fun c d => (c.txQueue p d).getD c) c
        if d.launch && c.grade.ltu then
          let (c, r) := c.ltuEnter p d
          let held := (c.port p).ltu.any (fun y => y.trick == some idx)
          if r.isNone && held then queue c t else c.markTrick p idx 7
        else queue c ds

/-! ### Start and end of a trick -/

/-- The reason of a miss known at the start (09 R252): the first that applies. -/
def Chip.startReason (c : Chip) (p e reason : Nat) : Nat :=
  if c.shedding && !(trServo e && c.servoKept (trSession e)) then 1
  else if !c.up p then 2
  else if c.hand.stage = 3 then 4
  else if !c.awake .port || !(c.awake .enga || c.awake .engb) then 5
  else reason

/-- A trick ends with its outcome (09 R241, R252). -/
def Chip.trickEnd (c : Chip) (p : Nat) : Chip :=
  match (c.port p).open_ with
  | none => c
  | some t =>
    let e := c.trickAt p t.idx
    let left := (c.txRing p 0).filter (fun d => d.trick == some t.idx)
    let d0 := left.head?
    let stuck := match d0 with
      | some d => !(c.rd (0x5000 + p) 8 == 2) && (c.rdb (0x5010 + p) 1 2 || c.rdb (0x5010 + p) 2 d.prio)
      | none => false
    let c := c.incBy (0x6020 + p) 5 left.length
    let c := (c.dropTrick p t.idx).modPort p (fun x => { x with open_ := none })
    let window := Nat.land (trKinds e) 0x7F == 0 && trExpect e && c.trickActive p e
    if t.due = 0 then
      if window then (if t.reason = 0 then c.inc (0x6020 + p) 1 else c.trickMissed p t.idx t.reason)
      else c.inc (0x6020 + p) 4
    else if t.due ≤ t.started then c.inc (0x6020 + p) 1
    else if 0 < t.started then c.inc (0x6020 + p) 2
    else c.trickMissed p t.idx (if t.reason ≠ 0 then t.reason else if t.paused || stuck then 6 else 8)

/-- The next trick of the port starts (09 R239, R240): its first frame is started if it may. `ps`: its timestamp point after the
present tick. -/
def Chip.trickStart (c : Chip) (p ps : Nat) : Chip :=
  let c := c.trickEnd p
  let idx := (c.port p).begun
  if c.activeCount p ≤ idx || !c.portOn p || (c.hand.stage ≠ 0 && c.hand.stage ≠ 3) then c
  else
    let e := c.trickAt p idx
    let t := ((c.port p).due.find? (fun t => t.idx == idx)).getD ⟨idx, c.dueCount p e, 0, 0, false⟩
    let r := c.startReason p e t.reason
    let mine := (c.txRing p 0).filter (fun d => d.trick == some idx)
    let held := match mine.head? with
      | some d => c.held p 0 d.prio
      | none => false
    let c := c.modPort p (fun x => { x with
      begun := idx + 1, composed := max x.composed (idx + 1), due := x.due.filter (fun y => y.idx != idx),
      open_ := some { t with reason := if t.due = 0 ∧ r = 7 then 0 else r, paused := held } })
    if r ≠ 0 || t.due = 0 then c
    else
      match (c.txRing p 0).head? with
      | some d =>
        if d.trick = some idx then
          let (c, s) := c.transmit p 0 ps none
          c.sent p s
        else c
      | none => c

/-- A trick is passed over by a step (09 R250). -/
def Chip.trickStepped (c : Chip) (p i : Nat) : Chip :=
  let e := c.trickAt p i
  let n := c.dueCount p e
  let window := Nat.land (trKinds e) 0x7F == 0 && trExpect e && c.trickActive p e
  let c := c.dropTrick p i
  if n = 0 && !window then c.inc (0x6020 + p) 4 else c.trickMissed p i 3

/-- Tricks not begun whose start instants a test names are missed with reason STEP; they stand at the head (`front`) or at the
tail of those left. -/
def Chip.stepTricks (c : Chip) (p : Nat) (gone : Nat → Bool) : Chip :=
  let is := ((List.range (c.activeCount p)).drop (c.port p).begun).filter (fun i => gone (c.trickStart_ (c.trickAt p i)))
  c.overAll is (fun i c => c.trickStepped p i)

/-! ### The deal (09 R245–R249) -/

/-- No port is enabled and none of ENGA, ENGB and PORT is awake: the Steward makes the deal alone (09 R249). -/
def Chip.dealIdle (c : Chip) : Bool :=
  !(List.range 8).any (fun p => c.portOn p) && !c.awake .enga && !c.awake .engb && !c.awake .port

/-- Step 1 (09 R245). -/
def Chip.dealClose (c : Chip) : Chip :=
  c.each c.grade.ports (fun p c =>
    let c := c.trickEnd p
    (c.staleStamps p).modPort p (fun x => { x with closed := true, fresh := 0 }))

/-- Step 3 on a port: residue of the closing hand is returned (09 R245). -/
def Chip.residue (c : Chip) (p : Nat) : Chip :=
  let n := (c.txRing p 1).length - (c.port p).fresh
  let ds := c.txRing p 0 ++ (c.txRing p 1).take n
  if ds.isEmpty then c
  else
    let c := ds.foldl (fun c d => (c.txStatus p d 6).noStamp p d) c
    let c := c.modPort p (fun x => { x with tx := modNth (setNth x.tx 0 []) 1 (List.drop n) })
    ((c.incBy (0x6020 + p) 7 ds.length).inc (0x6020 + p) 6).raise 98 0 0

/-- Step 4: what engines changed is written back (09 R245, 10 R262). -/
def Chip.writeBack (c : Chip) : Chip :=
  let dirty := c.sess.table.filter (fun s => s.dev != s.saved)
  let per (e : Nat) : Nat := (dirty.filter (fun s => c.engineOf s == some e)).length
  let w := (List.range 16).foldl (fun a e => max a (per e)) 0
  (c.modSess (fun u => { u with table := u.table.map (fun s => { s with saved := s.dev }) })).wr 0x6001 0x0B (w % 65536)

/-- Step 5: engine-class descriptors older than the closed hand are released unserved (09 R244). -/
def Chip.staleRx (c : Chip) (p : Nat) : Chip :=
  let old (d : RxDesc) : Bool := decide (d.hand < c.dealHand)
  let n := ((List.range 4).map (fun k => ((c.rxRing p k).filter old).length)).foldl (· + ·) 0
  if n = 0 then c
  else
    let keep (l : List RxDesc) : List RxDesc := l.filter (fun d => !old d)
    let c := c.modPort p (fun x => { x with
      rx := modNth (modNth (modNth (modNth x.rx 0 keep) 1 keep) 2 keep) 3 keep })
    ((c.incBy (0x6020 + p) 9 n).showRings p).showPool

/-- Step 6: the commits made before the drain limit are applied in order, up to the limit (09 R245, R249). Those beyond it are
deferred; later ones wait uncounted. Answers their number. -/
def Chip.dealCommits (c : Chip) : Nat × Chip :=
  let cut := match c.hand.drained with
    | d :: _ => d.cut
    | [] => c.sess.commits.length
  let n := min cut (if c.onLo then 64 else c.rd 0x6000 4)
  let now := c.sess.commits.take n
  let c := c.modSess (fun u => { u with commits := u.commits.drop n })
  let c := c.modHand (fun x => { x with drained := x.drained.map (fun (d : Drained) => { d with cut := d.cut - n }) })
  (now.length, (now.foldl Chip.applyCommit c).incBy 0x6001 8 (cut - n))

/-- The number of the hand that the coming deal begins (09 R234). -/
def Chip.nextHand (c : Chip) : Nat := if c.handLen = 0 then 0 else c.hand.ends / c.handLen

/-- A key names an RWD subindex. -/
def isRwd (k : Nat) : Bool :=
  match rowOf (k / 256) (k % 256) with
  | some r => r.acc == .rwd
  | none => false

/-- Step 7 of the deal of hand `n`: swaps that fall due are readied, RWD values, and the spare's move (09 R238, R245, 12 R312, 01 R28). -/
def Chip.dealPrepare (c : Chip) (n : Nat) : Chip :=
  let c := c.each c.grade.ports (fun p c =>
    c.iff (c.swapPending p && decide (c.rd (0x6008 + p) 4 ≤ n)) (fun c => c.modPort p (fun x => { x with swapReady := true })))
  c.modHand (fun x => { x with
    nextSpare := if n % 16 = 0 ∧ c.rotating then c.nextWorking else none, rwd := c.staged.filter (fun x => isRwd x.1) })

/-- The drain limit of the deal in progress. -/
def Chip.dealLimit (c : Chip) : Nat :=
  match c.hand.drained with
  | d :: _ => d.limit
  | [] => c.drainLimit

/-- The drain limit has come: the commits made before it are those the deal may apply (09 R245 step 6). -/
def Chip.drainNote (c : Chip) : Chip :=
  c.modHand (fun x => { x with drained := x.drained ++ [⟨c.drainLimit, c.sess.commits.length⟩] })

/-- Steps 4 to 8 of the deal of a hand, with the length of steps 3 to 8 (09 R245, R249). -/
def Chip.dealProcess (c : Chip) (hand : Nat) : Chip :=
  let c := c.writeBack
  let c := c.each c.grade.ports (fun p c => c.staleRx p)
  let (n, c) := c.dealCommits
  let c := c.dealPrepare hand
  let t := 4 * c.rd 0x6001 0x0B + 1000 + 16 * n + 2000
  let t := if c.onLo then ceilDiv (t * 1000000000) c.nominal else t
  c.modHand (fun x => { x with proc := t })

/-- A request still pending when its age would reach 3 is dropped (10 R264). -/
def Chip.ageRequests (c : Chip) : Chip :=
  let drop := c.sess.table.filter (fun s => dPending s.dev && dReqAge s.dev == 2)
  let c := drop.foldl (fun c s => c.inc (0x6230 + sPort s.host) 9) c
  c.modSess (fun u => { u with table := u.table.map (fun s =>
    if !dPending s.dev then s
    else if dReqAge s.dev = 2 then { s with dev := setField 19 18 (setBit 63 s.dev false) 0 }
    else { s with dev := setField 19 18 s.dev (dReqAge s.dev + 1) }) })

/-- The deal instant: the hand's number and the next boundary (09 R234, R246, R250). -/
def Chip.nextDeal (c : Chip) : Chip :=
  let h := c.handLen
  let b := c.hand.ends
  let c := c.iff (decide (b ≤ c.hand.deal) && b != 0) (fun c => c.inc 0x6001 0x0A)
  let c := (c.wr 0x6001 1 c.nextHand).wr 0x6001 2 (packTs (b / 1000000000) (b % 1000000000) 0 (c.tebNow 0) 0)
  let c := c.modHand (fun x => { x with deal := b, ends := b + h, late := 0 })
  let c := { c with ports := c.ports.map (fun (x : Port) => { x with composed := 0, begun := 0, due := [], open_ := none, tppTaken := 0 }) }
  c.ageRequests

/-- The RWD values readied at step 7 take effect; one written since waits for the next deal (12 R312). -/
def Chip.mergeRwd (c : Chip) : Chip :=
  let now := c.hand.rwd
  let c := now.foldl (fun c x => c.wr (x.1 / 256) (x.1 % 256) x.2) c
  { c with staged := c.staged.filter (fun x => !now.contains x), hand := { c.hand with rwd := [] } }

/-- LAST_PROC_NS and WORST_PROC_NS. -/
def Chip.noteProc (c : Chip) (n : Nat) : Chip :=
  let n := min n (2 ^ 32 - 1)
  (c.wr 0x6001 3 n).wr 0x6001 4 (max n (c.rd 0x6001 4))

/-- The instant of the deal whose processing ends, as a counter total in ns: with later deals past theirs, before them (09 R248). -/
def Chip.dealAt (c : Chip) : Nat := c.hand.deal - c.hand.behind * c.handLen

/-- The same on the model's clock for durations. -/
def Chip.dealMono (c : Chip) : Nat := c.time.mono - (c.time.total - c.dealAt * nsUnit)

/-- Step 9, and what waits for it (09 R245, R246). Work shed on the LO resumes with the first deal on another source (01 R35). -/
def Chip.dealEffect (c : Chip) : Chip :=
  let c := c.each c.grade.ports (fun p c => (c.swapNow p).modPort p (fun x => { x with closed := false }))
  let c := c.mergeRwd.engineDeal
  let c := c.modSess (fun u => { u with table := u.table.map (fun s => staticActive { s with shown := s.saved }) })
  let c := { c with
    hand := { c.hand with stepOpen := true }, power := { c.power with downReady := c.power.downTo.isSome }
    start := { c.start with shed := c.onLo } }
  (c.modHand (fun x => { x with drained := x.drained.drop 1 })).clockReturn c.dealMono

/-- DEAL_CLOSE (09 R245, R248). -/
def Chip.dealStep1 (c : Chip) : Chip :=
  if c.dealIdle then c
  else if c.hand.stage = 0 then c.dealClose.modHand (fun x => { x with stage := 1 })
  else if c.hand.stage = 3 ∧ c.hand.backlog = 0 then
    let c := c.dealClose.inc 0x6001 7
    c.modHand (fun x => { x with backlog := 1 })
  else c

/-- DEAL_DISCARD: the drain limit (09 R245, R248). -/
def Chip.dealStep3 (c : Chip) : Chip :=
  if c.hand.stage = 1 then
    let c := (c.drainNote.each c.grade.ports (fun p c => c.residue p)).dealProcess c.nextHand
    c.modHand (fun x => { x with stage := 2 })
  else if c.hand.stage = 3 ∧ c.hand.backlog = 1 then
    let c := c.drainNote.each c.grade.ports (fun p c => c.residue p)
    c.modHand (fun x => { x with backlog := 2 })
  else c.iff (c.hand.stage == 0 && c.dealIdle) Chip.drainNote

/-- A deal overrun is counted (09 R247). -/
def Chip.overrunNote (c : Chip) : Chip := (c.inc 0x6001 5).raise 99 0 0

/-- Step 9 of a deal from its drain limit to `done`, with the times of the deal (09 R246). -/
def Chip.dealEnd (c : Chip) (limit done : Nat) : Chip := (c.noteProc (done - limit)).dealEffect

/-- DEAL_INSTANT (09 R234, R246, R247). A deal whose steps 1 to 5 had nothing to do, as none of the domains was awake at its guard
start, is the Steward's (09 R249). -/
def Chip.dealInstant (c : Chip) : Chip :=
  let b := c.hand.ends
  let lim := c.dealLimit
  if c.hand.stage = 2 then
    if lim + c.hand.proc ≤ b then (c.nextDeal.modHand (fun x => { x with stage := 0 })).dealEnd lim b
    else c.nextDeal.overrunNote.modHand (fun x => { x with stage := 3 })
  else if c.hand.stage = 3 ∧ c.hand.backlog = 2 then
    c.nextDeal.overrunNote.modHand (fun x => { x with backlog := 0, behind := x.behind + 1 })
  else if c.hand.stage = 0 then
    let c := ((c.dealCommits.2).dealPrepare c.nextHand).wr 0x6001 0x0B 0
    c.nextDeal.dealEnd lim b
  else c

/-- A bank that became active after its hand began serves the tricks that start from now on; those of the bank before it that had
started were missed (09 R247). -/
def Chip.skipPast (c : Chip) (p : Nat) : Chip :=
  let n := ((List.range (c.activeCount p)).takeWhile (fun i => decide (c.trickStart_ (c.trickAt p i) < c.totalNs))).length
  c.modPort p (fun x => { x with begun := n, composed := n, due := [] })

/-- The deal after the one just ended goes on: its steps 4 to 8 follow, if they have waited (09 R248). -/
def Chip.dealNext (c : Chip) : Chip :=
  let shut (c : Chip) : Chip := { c with ports := c.ports.map (fun (x : Port) => { x with closed := true }) }
  if 0 < c.hand.behind then
    (c.dealProcess (c.dealHand + 1)).modHand (fun x => { x with behind := x.behind - 1 })
  else if c.hand.backlog = 0 then c.modHand (fun x => { x with stage := 0 })
  else if c.hand.backlog = 1 then (shut c).modHand (fun x => { x with stage := 1, backlog := 0 })
  else
    let late := c.totalNs - c.dealLimit
    ((shut c).dealProcess c.nextHand).modHand (fun x => { x with stage := 2, backlog := 0, proc := late + x.proc })

/-- PREFETCH_END: step 8 has ended after the deal instant (09 R246–R248). -/
def Chip.prefetchEnd (c : Chip) : Chip :=
  if c.hand.stage ≠ 3 then c
  else
    let now := c.totalNs
    let swapped := (List.range c.grade.ports).filter (fun p => (c.port p).swapReady)
    let c := c.overAll swapped (fun p c => c.trickEnd p)
    let c := (c.wr 0x6001 6 (min (now - c.dealAt) (2 ^ 32 - 1))).dealEnd c.dealLimit now
    (c.overAll swapped (fun p c => c.skipPast p)).dealNext

/-- A step of the counter reaches the hand (09 R250): `old` and `new` are the readings in ns. -/
def Chip.handStep (c : Chip) (old new : Nat) : Chip :=
  let h := c.handLen
  if h = 0 then c
  else
    let ends := (new / h + 1) * h
    let c := c.iff (old ≤ new) (fun c => c.incBy 0x6001 9 (new / h - old / h))
    let c := c.modHand (fun x => { x with ends := ends })
    let c := c.iff (c.hand.stage == 0 || c.hand.stage == 3) (fun c => c.each c.grade.ports (fun p c =>
      let hit (t : Nat) : Bool := decide (ends ≤ t) || (decide (old ≤ new) && decide (old < t) && decide (t ≤ new))
      let head := ((List.range (c.activeCount p)).drop (c.port p).begun).takeWhile (fun i =>
        decide (c.trickStart_ (c.trickAt p i) ≤ new) && decide (old ≤ new))
      let c := c.stepTricks p hit
      c.modPort p (fun x => { x with begun := x.begun + head.length, composed := max x.composed (x.begun + head.length) })))
    let guardStart := ends - c.guard
    if guardStart ≤ new && c.hand.stage = 0 then
      c.dealStep1.modHand (fun x => { x with late := new })
    else c

/-- HAND_LENGTH takes effect at a start, with the boundaries of the reading (09 R233, 12 R312). -/
def Chip.handRestart (c : Chip) : Chip :=
  let h := c.handLen
  let n := if h = 0 then 0 else c.totalNs / h
  let c := c.wr 0x6001 1 n
  c.modHand (fun x => { x with
    deal := n * h, ends := (n + 1) * h, stage := 0, backlog := 0, behind := 0, drained := [], late := 0, stepOpen := false, rwd := [] })

end Sys2Proof.Machine
end

