-- ==== Sys2Proof/Machine/Ttu.lean ====
section
/-!
DEFINITION. Sys2Proof/Machine/Ttu.lean: the time-trigger units (07 R194–R198), the time-of-day message sent for their pulses
(02 R64), software settings of the time counter (07 R180), and the execution of a step with everything it reaches (07 R182).
-/

namespace Sys2Proof.Machine

def Chip.ttu (c : Chip) (u : Nat) : Ttu := nth c.ttus u default
def Chip.modTtu (c : Chip) (u : Nat) (f : Ttu → Ttu) : Chip := { c with ttus := modNth c.ttus u f }

/-- START and PERIOD of a unit, in ps. -/
def Chip.ttuAt (c : Chip) (u : Nat) : Nat := c.rd (0x7000 + u) 2 * 1000000000000 + c.rd (0x7000 + u) 3 * 1000
def Chip.ttuPeriod (c : Chip) (u : Nat) : Nat := c.rd (0x7000 + u) 4
def Chip.ttuOneShot (c : Chip) (u : Nat) : Bool := c.rd (0x7000 + u) 1 == 1
def Chip.ttuArmed (c : Chip) (u : Nat) : Bool := c.rdb (0x7008 + u) 1 0
def Chip.ttuActive (c : Chip) (u : Nat) : Bool := c.rdb (0x7008 + u) 1 1

/-- The first instant of START, START + PERIOD, … not before `t`, in ps. -/
def gridFrom (start period t : Nat) : Nat := if t ≤ start then start else start + ceilDiv (t - start) period * period

/-- The first grid instant at least 2 µs after the present reading (07 R195). -/
def Chip.ttuGrid (c : Chip) (u : Nat) : Nat := gridFrom (c.ttuAt u) (c.ttuPeriod u) (ratCeil c.readPs + 2000000)

/-- A one-shot whose instant is gone: MISSED, and it disarms (07 R195, R196). -/
def Chip.ttuMiss (c : Chip) (u : Nat) (counts : Bool) : Chip :=
  let c := (c.wrb (0x7008 + u) 1 2 true).wrb (0x7008 + u) 1 0 false
  c.iff counts (fun c => c.inc (0x7008 + u) 4)

/-- The unit takes its next instant (07 R195): a grid instant, or START or nothing. -/
def Chip.ttuChoose (c : Chip) (u : Nat) : Chip :=
  if !c.ttuArmed u || (c.ttu u).final then c
  else if c.ttuOneShot u then
    if (c.ttuAt u : Rat) < c.readPs + 2000000 then c.ttuMiss u true
    else c.modTtu u (fun x => { x with next := c.ttuAt u })
  else c.modTtu u (fun x => { x with next := c.ttuGrid u })

/-- MODE 1 or 2 arms the unit (07 R195). -/
def Chip.ttuArm (c : Chip) (u mode : Nat) : Chip :=
  let c := (((c.wr (0x7000 + u) 1 mode).wrb (0x7008 + u) 1 2 false).wrb (0x7008 + u) 1 0 true)
  (c.modTtu u (fun x => { x with fired := 0, last := none, final := false })).ttuChoose u

/-- MODE 0 disarms it; a pulse in progress completes (07 R195). -/
def Chip.ttuDisarm (c : Chip) (u : Nat) : Chip := (c.wr (0x7000 + u) 1 0).wrb (0x7008 + u) 1 0 false

/-- MODE written. -/
def Chip.ttuMode (c : Chip) (u mode : Nat) : Chip := if mode = 0 then c.ttuDisarm u else c.ttuArm u mode

/-- The next leading edge is reached (07 R195, R196). -/
def Chip.ttuLead (c : Chip) (u : Nat) : Chip :=
  if !c.ttuArmed u || (c.ttu u).final then c
  else
    let x := c.ttu u
    let after := x.next + c.ttuPeriod u
    if !c.awake .synth then
      if c.ttuOneShot u then c.ttuMiss u false else c.modTtu u (fun y => { y with next := after })
    else if !c.apllLocked then
      if c.ttuOneShot u then c.ttuMiss u true
      else (c.inc (0x7008 + u) 4).modTtu u (fun y => { y with next := after })
    else
      let n := x.fired + 1
      let count := c.rd (0x7000 + u) 6
      let s := c.stampAt x.next 100 0
      let c := (c.inc (0x7008 + u) 3).wrb (0x7008 + u) 1 1 true
      c.modTtu u (fun y => { y with
        next := after, fired := n, last := some x.next, stamp := s,
        final := c.ttuOneShot u || (count != 0 && n == count) })

/-- The trailing edge is reached: the pulse ends, and the unit disarms after its last one. -/
def Chip.ttuTrail (c : Chip) (u : Nat) : Chip :=
  if !c.ttuActive u then c
  else
    let c := c.wrb (0x7008 + u) 1 1 false
    c.iff (c.ttu u).final (fun c => c.wrb (0x7008 + u) 1 0 false)

/-- Relock of the core APLL, or a wake of the synthesis part (07 R196). -/
def Chip.ttusChoose (c : Chip) : Chip := c.each 8 (fun u c => c.ttuChoose u)

/-- A lock window of the core APLL ends (06 R149); a relock lets the units choose again (07 R196). -/
def Chip.apllJudge (c : Chip) (count : Nat) : Chip :=
  let d := c.apllWindow count
  d.iff (d.apllLocked && !c.apllLocked && d.awake .synth) Chip.ttusChoose

/-- The synthesis part loses its supplies or is reset: a pulse in progress ends with it. -/
def Chip.ttusStop (c : Chip) : Chip := c.each 8 (fun u c => c.ttuTrail u)

/-- The level of a TRIG pin (07 R198, 18 R427): an input, the active level during a pulse of its unit, else the inactive level. POLARITY 0
makes the leading edge rising. -/
def Chip.trigLevel (c : Chip) (i : Nat) : Level :=
  let v := c.rd 0x7010 (i + 1)
  let u := field 2 0 v
  let falling := c.rdb (0x7000 + u) 7 0
  if !bit 7 v || c.start.stage < 2 || c.start.rstLow then .z
  else if (c.awake .synth && c.ttuActive u) != falling then .high else .low

/-- The TRIG pins follow. -/
def Chip.trigWatch (c : Chip) : Chip :=
  let l := (List.range 4).map c.trigLevel
  c.iff (c.synth.trigs != l) (fun c => c.modSynth (fun x => { x with trigs := l }))

/-- At a start, units whose stored MODE names an operation are armed (log 31). -/
def Chip.ttusStart (c : Chip) : Chip :=
  c.each 8 (fun u c => c.iff (c.rd (0x7000 + u) 1 != 0 && !c.ttuArmed u) (fun c => c.ttuArm u (c.rd (0x7000 + u) 1)))

/-- A step of the counter, from reading `old` to the present one, in ps (07 R195). -/
def Chip.ttuStep (c : Chip) (u : Nat) (old : Rat) : Chip :=
  if !c.ttuArmed u || (c.ttu u).final then c
  else
    let was := (c.ttu u).next
    let last := (c.ttu u).last
    let d := c.ttuChoose u
    if c.ttuOneShot u then d
    else if old ≤ c.readPs then d.iff (decide ((was : Rat) ≤ c.readPs)) (fun c => c.inc (0x7008 + u) 5)
    else
      match last with
      | some l => d.iff (decide ((d.ttu u).next ≤ l)) (fun c => c.inc (0x7008 + u) 6)
      | none => d

/-- NEXT_EDGE (07 0x7008:02). -/
def Chip.nextEdge (c : Chip) (u : Nat) : Nat :=
  if !c.ttuArmed u || (c.ttu u).final then 0
  else
    let n := (c.ttu u).next
    packTs (n / 1000000000000) (n / 1000 % 1000000000) (n % 1000 * 65536 / 1000) (c.tebNow 100) 0

/-! ### Time of day sent (02 R64) -/

/-- The binary message for the last pulse of TX_TTU. -/
def Chip.todTransmit (c : Chip) : Chip :=
  let x := c.ttu (c.rd 0x1240 9)
  match x.last with
  | none => c
  | some t =>
    if !c.rdb 0x1240 8 0 then c
    else
      let flags := (c.rdb 0x1201 1 0).toNat * 128 + (c.rdb 0x1210 2 1).toNat * 64 + (c.rdb 0x1210 2 2).toNat * 32 +
        c.utcValid.toNat * 16
      let st := nth [2, 3, 0, 1] (c.tcState 0) 2
      let ql := if c.tcState 0 = 0 then 15 else (match (c.chan 0).lastPick with
        | some n => c.rank n
        | none => 15)
      let body := [0x01, 18] ++ toBytes 6 (t / 1000000000000) ++ [0, flags] ++ toBytes 2 (c.rd 0x1210 1) ++ [st, ql] ++
        toBytes 4 (tsTeb x.stamp) ++ [0, 0]
      c.modTod (fun u => { u with sent := [0x49, 0x54] ++ body ++ toBytes 2 (crc16 body) })

/-! ### Software settings of the counter (07 R180, R182, R183) -/

/-- The range of SECONDS, in ns of the counter. -/
def counterTop : Int := 2 ^ 48 * 1000000000

/-- A write to TIME_ADJUST or UTC_TIME breaks a rule on its value (07 R180, R186). -/
def Chip.timeRel (c : Chip) (idx sub v : Nat) : Bool :=
  if idx = 0x1202 then
    match sub with
    | 1 => decide (999999999 < tsNs v)
    | 2 =>
      let t : Int := (c.totalNs : Int) + sext 64 v
      decide (t < 0) || decide (counterTop ≤ t)
    | 3 =>
      let t : Rat := c.readPs - (sext 64 v : Int)
      decide (t < 0) || decide (((counterTop * 1000 : Int) : Rat) ≤ t)
    | _ => false
  else idx == 0x1210 && sub == 2 && bit 1 v && bit 2 v

/-- A write to TIME_ADJUST is not allowed now (07 R180). -/
def Chip.timeState (c : Chip) (idx sub : Nat) : Bool :=
  idx == 0x1202 && (c.tcState 0 == 1 || c.tcState 0 == 2 || c.stepPending || (sub == 3 && !c.tcOn 0))

/-- The effect of a write to TIME_ADJUST, UTC_TIME or MODE of a time-trigger unit. -/
def Chip.timePut (c : Chip) (idx sub v : Nat) : Option Chip :=
  if idx = 0x1202 then
    match sub with
    | 1 => some (c.requestStep 0 (some (tsSec v, tsNs v, field 49 34 v * 65536)) 3 0)
    | 2 => some (c.requestStep (sext 64 v) none 2 0)
    | 3 => some (c.timeSlew (sext 64 v))
    | _ => none
  else if 0x7000 ≤ idx ∧ idx < 0x7008 ∧ sub = 1 then some (c.ttuMode (idx - 0x7000) v)
  else if idx = 0x1210 ∧ sub = 2 then
    let same := field 2 1 (c.rd idx sub) == field 2 1 v
    let c := c.wr idx sub (v % 8)
    some (if same then c else c.planLeap)
  else if idx = 0x1210 ∧ sub = 1 then
    let c' := c.wr idx sub v
    some (if c.rd 0x1210 4 = 0 then c' else c'.planLeap)
  else none

/-! ### The execution of a step (07 R181, R182) -/

/-- A frame of the LTU found late: a trick frame discarded so misses its trick (09 R252). -/
def Chip.ltuLateHead (c : Chip) (p : Nat) : Chip :=
  match (c.port p).ltu with
  | [] => c
  | d :: _ =>
    let (c, s) := c.ltuLate p
    let c := c.sent p s
    match d.trick, s with
    | some i, none => c.iff (!(c.port p).late.contains d) (fun c => (c.markTrick p i 7).dropTrick p i)
    | _, _ => c

/-- Launches passed over by a forward step are late (07 R200). -/
def Chip.ltuPassed (c : Chip) (p : Nat) : Nat → Chip
  | 0 => c
  | fuel + 1 =>
    match (c.port p).ltu with
    | d :: _ => if (tsUnits d.time : Rat) / 65536 ≤ c.totalRat then (c.ltuLateHead p).ltuPassed p fuel else c
    | [] => c

/-- TC0's shadows move with the counter (04 R115, 07 R182): by the whole of what TC0 asked for, and by the rest modulo each
candidate's period (log 32). What TC0 asked for is taken off what its mode slews or builds out, so that the remainder is slewed; the
rest shows in the waiting phase errors, but not in those of a frequency selection, which absorbs no phase (04 R119). -/
def Chip.phaseStep (c : Chip) (own rest : Rat) : Chip :=
  let part (n : Nat) : Rat := reduce rest (c.periodPs n)
  let apart := c.hybrid 0 && c.sel 0 != 0xFF && c.sel 0 != c.selPhase 0
  let err (n : Nat) (e : Rat) : Rat := reduce (e + part n) (c.periodPs n)
  let looping := c.tcState 0 == 1 || c.tcState 0 == 2
  let c := c.modChan 0 (fun h =>
    let slews := looping && (h.slew != 0 || h.buildOut == 0)
    { h with
      errs := if apart then h.errs else h.errs.map (err (c.driver 0)), errsP := h.errsP.map (err (c.selPhase 0))
      slew := if slews then h.slew + own else h.slew
      buildOut := if looping && !slews then h.buildOut + own else h.buildOut
      freqOff := if apart then h.freqOff + own + part (c.sel 0) else h.freqOff
      shadows := (h.shadows.zip (List.range h.shadows.length)).map (fun s =>
        ⟨s.1.diffs.map (fun d => d + own + part (c.entryCand 0 (s.2 + 1)))⟩) })
  c.each 28 (fun k c => c.iff (!(c.shadow 0 (k + 1)).diffs.isEmpty) (fun c => c.showShadow 0 (k + 1)))

/-- An engine or port domain is awake: a step waits for a deal's processing (07 R181). -/
def Chip.stepWaits (c : Chip) : Bool := c.awake .enga || c.awake .engb || c.awake .port

/-- The counter value a step loads, in 2^−32 ns, from the value the tick would have had. -/
def StepReq.target (r : StepReq) (cur : Nat) : Nat :=
  let base : Int := match r.load with
    | some (s, n, f) => (s * 1000000000 + n) * nsUnit + f
    | none => cur
  ((base + r.delta * nsUnit) % (counterTop * nsUnit)).toNat

/-- A pending step executes at this tick. -/
def Chip.stepExecute (c : Chip) : Chip :=
  match c.time.pendingStep with
  | none => c
  | some r =>
    if c.stepWaits && !c.hand.stepOpen then c
    else
      let minute := c.time.seconds / 60
      let c := c.tick
      let from_ := c.time
      let old := c.readPs
      let c := c.modTime (fun t => { t.ofTotal (r.target t.total) with pendingStep := none, run := none })
      let moved : Int := ((c.time.total : Int) - (from_.total : Int))
      let c := c.modHand (fun h => { h with stepOpen := false })
      let c := (c.wrb 0x1201 1 2 false).inc 0x1201 4
      let c := c.wr 0x1201 5 (packTs c.time.seconds c.time.nanoseconds (c.time.fraction / 65536) 0x3FFFF 0)
      let c := c.wr 0x1201 6 (satInt 64 (Int.tdiv moved nsUnit))
      let c := c.postAt 0x30 (r.who * 2 ^ 22) from_.seconds from_.nanoseconds 0x3FFFF
      let c := c.postAt 0x31 (r.who * 2 ^ 22) c.time.seconds c.time.nanoseconds 0x3FFFF
      let c := c.iff (r.load.isSome || r.aligned) Chip.timeValid
      let own : Rat := (r.tc0 * 1000 : Int)
      let c := c.phaseStep own ((moved : Rat) * 1000 / nsUnit - own)
      let c := c.iff (c.rd 0x1210 4 != 0) Chip.planLeap
      let c := c.minuteClose minute
      let c := c.syncGroup 0
      let c := c.each 8 (fun u c => c.ttuStep u old)
      let c := c.iff (decide (0 ≤ moved)) (fun c => c.each c.grade.ports (fun p c => c.ltuPassed p 256))
      c.handStep (from_.total / nsUnit) c.totalNs

end Sys2Proof.Machine
end

