-- ==== Sys2Proof/Machine/Security.lean ====
section
/-!
DEFINITION. Sys2Proof/Machine/Security.lean: the NV security region and its changes, the lifecycle, keys, TAMPER, firmware image
checks, the re-key grant and debug sessions (15, 12 R325–R328).
-/

namespace Sys2Proof.Machine

def Chip.modSec (c : Chip) (f : SecUnit → SecUnit) : Chip := { c with sec := f c.sec }
def Chip.modTpp (c : Chip) (f : TppUnit → TppUnit) : Chip := { c with tpp := f c.tpp }
def Chip.peer (c : Chip) (n : Nat) : Peer := nth c.tpp.peers n default
def Chip.modPeer (c : Chip) (n : Nat) (f : Peer → Peer) : Chip := c.modTpp (fun t => { t with peers := modNth t.peers n f })

/-- Bytes that a destructive read removed and has not returned (12 R320). -/
def Transfer.loses (t : Transfer) : Bool := t.destructive && decide (t.lastFrom + t.lastLen < t.data.length)

/-- A key event card (15 R384). -/
def Chip.keyCard (c : Chip) (code : Nat) : Chip := c.post 0x65 (code * 2 ^ 20)

/-- 32 random bytes (15 R383, R392). -/
def Chip.draw32 (c : Chip) : Nat × Chip :=
  (Config.random c.sec.draws % 2 ^ 256, c.modSec (fun s => { s with draws := s.draws + 1 }))

/-! ### Peer entries (12 R325) -/

def Chip.peerUsed (c : Chip) (n : Nat) : Bool := c.rdb (0x1110 + n) 1 7
def Chip.peerErased (c : Chip) (n : Nat) : Bool := c.rdb (0x1110 + n) 1 3
def Chip.peerId (c : Chip) (n : Nat) : Nat := c.rd (0x1110 + n) 2
def Chip.peerKey (c : Chip) (n : Nat) : Nat := nth c.sec.peerKeys n 0

/-- FLAGS byte, PEER_ID and key of an entry as they stand. -/
def Chip.peerNow (c : Chip) (n : Nat) : Nat × Nat × Nat := (c.rd (0x1110 + n) 1, c.peerId n, c.peerKey n)

/-- The same with a write taken into account. The value written to KEY_ERASED is ignored; KEY clears it. -/
def Chip.peerAfter (c : Chip) (w : JobWhy) (n : Nat) : Nat × Nat × Nat :=
  let (f, i, k) := c.peerNow n
  match w with
  | .peer m s v =>
    if m ≠ n then (f, i, k)
    else if s = 1 then (setBit 3 v (bit 3 f), i, k)
    else if s = 2 then (f, v, k)
    else (setBit 3 f false, i, v)
  | _ => (f, i, k)

/-- FLAGS byte, SPP, KEY_ID and key of an association, with a write taken into account. -/
def Chip.saAfter (c : Chip) (w : JobWhy) (i : Nat) : Nat × Nat × Nat × Nat :=
  let now := ((c.saUsed i).toNat * 128 + (c.saErased i).toNat * 64, c.saSpp i, c.saKeyId i, c.saKey i)
  match w with
  | .sa j b => if j ≠ i then now else (byteAt b 0 / 128 * 128, byteAt b 1, beN b 4 4, beN b 8 32)
  | _ => now

/-! ### Records of the region (15 R385) -/

/-- Address of a group in the array, its MAGIC and slot size. -/
def groupAt (g : Nat) : Nat × Nat × Nat := if g < 8 then (0x1A40 + 192 * g, 0x5047, 192) else (0x2040 + 320 * (g - 8), 0x5341, 320)

/-- The payload of a group, with a write taken into account. -/
def Chip.groupPayload (c : Chip) (w : JobWhy) (g : Nat) : List Nat :=
  if g < 8 then
    (List.range 4).flatMap (fun i =>
      let (f, p, k) := c.peerAfter w (4 * g + i)
      let k := if bit 3 f then 0 else k
      [f, 0, 0, 0] ++ toBytes 4 p ++ toBytes 32 k)
  else
    (List.range 8).flatMap (fun i =>
      let (f, s, id, k) := c.saAfter w (8 * (g - 8) + i)
      let k := if bit 6 f then 0 else k
      [f, s] ++ toBytes 4 id ++ toBytes 32 k)

/-- The next SEQ of a group's record. -/
def Chip.groupSeq (c : Chip) (g : Nat) : Nat :=
  let (a, m, n) := groupAt g
  match c.recordAt a m n with
  | some (s, _) => (s + 1) % 2 ^ 32
  | none => 1

/-- The image of a group's new record. -/
def Chip.groupImage (c : Chip) (w : JobWhy) (g : Nat) : List Nat :=
  recordImage (groupAt g).2.1 (c.groupSeq g) (c.groupPayload w g)

/-- The two slots of a two-slot record, its MAGIC and slot size. -/
def slotsOf : SecRec → Nat × Nat × Nat × Nat
  | .lifecycle => (0x1000, 0x1020, 0x4C43, 32)
  | .marker => (0x1040, 0x1060, 0x4453, 32)
  | .identity => (0x1080, 0x1100, 0x494B, 128)
  | .previous => (0x1180, 0x12A0, 0x504B, 288)
  | .fwKey => (0x13C0, 0x1420, 0x4346, 96)
  | .debugKey => (0x1480, 0x14E0, 0x4344, 96)
  | .floors => (0x1540, 0x1660, 0x5346, 288)
  | .journal _ => (0x1780, 0x18E0, 0x4A4E, 352)
  | .group _ => (0, 0, 0, 0)

/-- PREVIOUS_KEYS after a rotation. -/
def Chip.previousAfter (c : Chip) : Nat :=
  (c.rd 0xB001 4 / 2 ^ 544) + (c.rd 0xB001 1 * 2 ^ 512 + c.rd 0xB001 2) * 2 ^ 1632

/-- The sequence floors, with a change taken into account (12 R328). -/
def Chip.floorsAfter (c : Chip) (w : JobWhy) (n : Nat) : Nat × Nat :=
  let p := c.peer n
  match w with
  | .peer m 3 _ => if m = n then (0, 0) else (p.rxFloor, p.txFloor)
  | .floors m tx =>
    if m ≠ n then (p.rxFloor, p.txFloor)
    else if tx then (p.rxFloor, c.rd (0x1110 + n) 5 / 65536 * 65536) else (c.rd (0x1110 + n) 4 / 65536 * 65536, p.txFloor)
  | _ => (p.rxFloor, p.txFloor)

/-- The payload of a two-slot record for a change. A second lifecycle record of a retirement or an erasure is the last of its job. -/
def Chip.recPayload (c : Chip) (j : Job) : SecRec → List Nat
  | .lifecycle =>
    let last := j.recs.length ≤ 1
    match j.why with
    | .change t => [t, if t = 3 then 128 else 0, 0, 0, 0, 0, 0, 0]
    | .tamper => [c.lifecycle % 256, if last then 0 else 64, 0, 0, 0, 0, 0, 0]
    | _ => [c.lifecycle % 256, 0, 0, 0, 0, 0, 0, 0]
  | .marker =>
    match j.why with
    | .marker b => b
    | _ => List.replicate 8 0
  | .identity =>
    match j.why with
    | .newIdentity g k _ => [g % 256, 0, 0, 0] ++ toBytes 32 k ++ toBytes 64 (Config.publicKey k)
    | _ => [c.rd 0xB001 1 % 256, 0, 0, 0] ++ toBytes 32 (c.sec.identity.getD 0) ++ toBytes 64 (c.rd 0xB001 2)
  | .previous => toBytes 272 c.previousAfter
  | .fwKey =>
    match j.why with
    | .fwKey k => toBytes 64 k
    | _ => toBytes 64 c.sec.fwKey
  | .debugKey =>
    match j.why with
    | .debugKey k => toBytes 64 k
    | _ => toBytes 64 c.sec.debugKey
  | .floors => (List.range 32).flatMap (fun n =>
      let f := c.floorsAfter j.why n
      toBytes 4 f.1 ++ toBytes 4 f.2)
  | .journal g => toBytes 2 ((groupAt g).1 - 0x1000) ++ [0, 0] ++ c.groupImage j.why g
  | .group _ => []

/-- The slot and SEQ a two-slot record is written with next (11 R290). -/
def Chip.nextSlot (c : Chip) (r : SecRec) : Nat × Nat :=
  let (a, b, m, n) := slotsOf r
  match (c.twoSlot a b m n).1 with
  | some (0, s, _) => (b, (s + 1) % 2 ^ 32)
  | some (_, s, _) => (a, (s + 1) % 2 ^ 32)
  | none => (a, 1)

/-- The address and image of the first record of a job. -/
def Chip.recImage (c : Chip) (j : Job) (r : SecRec) : Nat × List Nat :=
  match r with
  | .group g => ((groupAt g).1, c.groupImage j.why g)
  | _ =>
    let (a, s) := c.nextSlot r
    (a, recordImage (slotsOf r).2.2.1 s (c.recPayload j r))

/-- The tag of the region's programs. -/
def secTag : Nat := 1

/-- A change is added behind those waiting. -/
def Chip.jobAdd (c : Chip) (j : Job) : Chip := c.modSec (fun s => { s with jobs := s.jobs ++ [j] })

/-- A lifecycle change or a retirement: an erasure waits for it (15 R398). -/
def JobWhy.ofLifecycle : JobWhy → Bool
  | .change _ => true
  | .retire => true
  | _ => false

/-- A change is added right behind the one in progress, or a lifecycle change in front. -/
def Chip.jobNext (c : Chip) (j : Job) : Chip :=
  let behind := c.sec.busy || (match c.sec.jobs with
    | h :: _ => h.why.ofLifecycle
    | [] => false)
  c.modSec (fun s => { s with jobs := if behind then s.jobs.take 1 ++ [j] ++ s.jobs.drop 1 else j :: s.jobs })

/-- A request is answered, its records written or not. -/
def Chip.jobAnswer (c : Chip) (j : Job) (ok : Bool) : Chip :=
  match j.ask with
  | some (q, call) => c.modSec (fun x => { x with answers := x.answers ++ [(q, call, ok)] })
  | none => c

/-- Waiting changes of a kind fail; the one in progress goes on. -/
def Chip.jobsFail (c : Chip) (p : JobWhy → Bool) : Chip :=
  let head := if c.sec.busy then c.sec.jobs.take 1 else []
  let rest := if c.sec.busy then c.sec.jobs.drop 1 else c.sec.jobs
  let c := c.modSec (fun s => { s with jobs := head ++ rest.filter (fun j => !p j.why) })
  (rest.filter (fun j => p j.why)).foldl (fun c j => c.jobAnswer j false) c

/-- A write of a peer or association key (15 R390). -/
def JobWhy.sharedKey : JobWhy → Bool
  | .peer _ s _ => s == 3
  | .sa _ _ => true
  | _ => false

/-- A request that a new lifecycle state bars (15 table "Lifecycle permissions"). -/
def JobWhy.barredIn (t : Nat) : JobWhy → Bool
  | .fwKey _ => t == 2 || t == 3
  | .debugKey _ => t == 2 || t == 3
  | .peer _ _ _ => t == 3
  | .sa _ _ => t == 3
  | .newIdentity _ _ r => r && t == 3
  | _ => false

/-- The journal and target writes of every group. -/
def allGroups : List SecRec := (List.range 40).flatMap (fun g => [SecRec.journal g, SecRec.group g])

/-! ### Effects of changes -/

/-- The fingerprint of a key (15 R382). -/
def fingerprint (k : Nat) : Nat := if k = 0 then 0 else ofBytes ((sha256 (toBytes 64 k)).take 8)

/-- The peer and SA keys leave key RAM, and every entry reads KEY_ERASED (15 R380, R390). -/
def Chip.eraseShared (c : Chip) : Chip :=
  let c := c.each 32 (fun n c => c.wrb (0x1110 + n) 1 3 true)
  let c := c.modSess (fun u => { u with sas := u.sas.map (fun x => (x.1, true)) })
  c.modSec (fun s => { s with peerKeys := s.peerKeys.map (fun _ => 0), saKeys := s.saKeys.map (fun _ => 0) })

/-- Every key that RETIRED erases (15 table "Keys"). -/
def Chip.eraseAll (c : Chip) : Chip :=
  ((c.eraseShared.modSec (fun s => { s with identity := none, fwKey := 0, debugKey := 0 })).wr 0xB002 2 0).wr 0xB002 4 0

/-- The records of a retirement: both slots of each key record, every group, and the lifecycle record. -/
def retireRecs : List SecRec :=
  [.identity, .identity, .fwKey, .fwKey, .debugKey, .debugKey] ++ allGroups ++ [.lifecycle]

/-- The re-key grant ends (15 R391). -/
def Chip.rekeyEnd (c : Chip) : Chip := if c.rdb 0xB100 0x0A 0 then (c.wrb 0xB100 0x0A 0 false).keyCard 0xB else c

/-- A key written while TAMPER's erasure is due is erased too (15 R398). -/
def Chip.erasedToo (c : Chip) : Chip := c.iff (c.rdb 0xB000 3 2) Chip.eraseShared

/-- The records of a change have committed: its effect (15 R380, R383, R384, R390, 12 R325). -/
def Chip.jobDone (c : Chip) (w : JobWhy) : Chip :=
  match w with
  | .peer n s v =>
    if s = 3 then
      let c := (c.modSec (fun x => { x with peerKeys := setNth x.peerKeys n v })).wrb (0x1110 + n) 1 3 false
      let c := ((c.wr (0x1110 + n) 4 0).wr (0x1110 + n) 5 0).modPeer n (fun _ => default)
      (c.keyCard 5).erasedToo
    else c.wr (0x1110 + n) s (if s = 1 then setBit 3 v (c.peerErased n) else v)
  | .sa i b => ((c.saWrite i b).keyCard 6).erasedToo
  | .fwKey k => ((c.modSec (fun s => { s with fwKey := k })).wr 0xB002 2 (fingerprint k)).keyCard 3
  | .debugKey k => ((c.modSec (fun s => { s with debugKey := k })).wr 0xB002 4 (fingerprint k)).keyCard 4
  | .newIdentity g k rot =>
    let c := if rot then c.wr 0xB001 4 c.previousAfter else c
    let c := (c.modSec (fun s => { s with identity := some k, changing := if rot then s.changing else none }))
    ((c.wr 0xB001 1 g).wr 0xB001 2 (Config.publicKey k)).keyCard (if rot then 2 else 1)
  | .change t =>
    let old := c.lifecycle
    let c := (((c.wr 0xB000 1 t).post 0x62 (old * 2 ^ 20 + t * 2 ^ 16)).rekeyEnd).jobsFail (JobWhy.barredIn t)
    if t = 3 then
      let c := c.eraseAll.wrb 0xB000 3 0 true
      c.jobNext ⟨.retire, retireRecs, none⟩
    else if old = 0 && c.grade.sgn then
      let (k, c) := c.draw32
      c.jobNext ⟨.newIdentity 1 k false, [.identity], none⟩
    else c.modSec (fun s => { s with changing := none })
  | .retire => ((c.wrb 0xB000 3 0 false).keyCard 8).modSec (fun s => { s with changing := none })
  | .tamper => (c.wrb 0xB000 3 2 false).keyCard 7
  | .floors n tx =>
    let f := c.floorsAfter (.floors n tx) n
    c.modPeer n (fun p => { p with rxFloor := f.1, txFloor := f.2 })
  | .marker _ => c

/-- The first record of the change in progress has failed for good (11 R284, 15 R384): a change is given up; an erasure goes on. -/
def Chip.jobFailed (c : Chip) (j : Job) : Chip :=
  match j.why with
  | .change _ => c.modSec (fun s => { s with changing := none })
  | .newIdentity _ _ false => c.modSec (fun s => { s with changing := none })
  | _ => c

/-- The record in progress has committed, or has failed. -/
def Chip.jobStep (c : Chip) (ok : Bool) : Chip :=
  match c.sec.jobs with
  | [] => c.modSec (fun s => { s with busy := false })
  | j :: t =>
    let goOn := ok || (match j.why with
      | .retire => true
      | .tamper => true
      | _ => false)
    let rest := j.recs.drop 1
    if !goOn then
      ((c.modSec (fun s => { s with busy := false, jobs := t })).jobFailed j).jobAnswer j false
    else if rest.isEmpty then
      ((c.modSec (fun s => { s with busy := false, jobs := t })).jobDone j.why).jobAnswer j true
    else c.modSec (fun s => { s with busy := false, jobs := { j with recs := rest } :: t })

/-- A program of the region runs or waits. -/
def Chip.secWriting (c : Chip) : Bool :=
  let mine (p : NvProg) : Bool := p.why == .recBody secTag || p.why == .recCommit secTag
  (match c.nv.prog with
    | some p => mine p
    | none => false) || c.nv.queue.any mine

/-- The seal's cards have not all committed (15 R398). -/
def Chip.sealBusy (c : Chip) : Bool := c.nv.sealing || !c.nv.sealCards.isEmpty

/-- The change in front may start its next record now. -/
def Chip.jobMay (c : Chip) (j : Job) : Bool :=
  !c.nv.flushing && !(c.sealBusy && (match j.why with
    | .change _ => true
    | _ => false))

/-- The region follows its programs: results are taken, and the next record starts. -/
def Chip.secWatch (c : Chip) : Chip :=
  let done := c.nv.committed.contains secTag
  let fail := c.nv.failed.contains secTag
  let c := c.iff (done || fail) (fun c =>
    (c.modNv (fun n => { n with
      committed := n.committed.filter (· != secTag), failed := n.failed.filter (· != secTag) })).jobStep done)
  let c := c.iff (c.sec.busy && !c.secWriting) (fun c => c.modSec (fun s => { s with busy := false }))
  match c.sec.jobs with
  | [] => c
  | j :: _ =>
    if c.sec.busy || !c.jobMay j then c
    else
      match j.recs with
      | [] => c.jobStep true
      | r :: _ =>
        let (a, img) := c.recImage j r
        let c := c.modSec (fun s => { s with busy := true })
        (c.modNv (fun n => { n with queue := n.queue ++ recordPrograms secTag a img })).nvNext false

/-! ### Requests (15 R379, R383, R384, R390, 12 R325) -/

/-- The records that a peer or association write needs. -/
def Chip.peerJob (n sub v : Nat) (ask : Option (Envelope × Call)) : Job :=
  ⟨.peer n sub v, [.journal (n / 4), .group (n / 4)] ++ (if sub = 3 then [.floors] else []), ask⟩

/-- Another entry in use holds the PEER_ID. -/
def Chip.idTaken (c : Chip) (n id : Nat) : Bool :=
  (List.range 32).any (fun m => m != n && c.peerUsed m && c.peerId m == id)

/-- A write breaks a rule on its value (12 R325, 10 R275, 15 R379, R387). -/
def Chip.secRel (c : Chip) (idx sub v : Nat) : Bool :=
  if 0x1110 ≤ idx ∧ idx < 0x1130 then
    let n := idx - 0x1110
    match sub with
    | 1 => bit 7 v && (c.peerId n == 0 || c.idTaken n (c.peerId n))
    | 2 => v == 0 || c.idTaken n v
    | _ => false
  else if idx = 0x6280 ∧ sub = 2 then
    byteAt (toBytes 40 v) 2 != 1
  else if idx = 0xB000 ∧ sub = 2 then v % 2 ^ 24 != 0x434F4E
  else if idx = 0xB002 ∧ (sub = 5 ∨ sub = 6) then decide (v < c.rd idx sub)
  else false

/-- The lifecycle transition exists (15 table "Lifecycle transitions"). -/
def Chip.changeOk (c : Chip) (t : Nat) : Bool :=
  match c.lifecycle, t with
  | 0, 1 => true
  | 0, 3 => true
  | 1, 2 => c.sec.fwKey != 0
  | 1, 3 => true
  | 2, 3 => true
  | _, _ => false

/-- KEY_GEN once every rotation that waits has been made. -/
def Chip.genAhead (c : Chip) : Nat :=
  c.rd 0xB001 1 + (c.sec.jobs.filter (fun j => match j.why with
    | .newIdentity _ _ _ => true
    | _ => false)).length

/-- A write is not allowed in the present state (15 R379, R383, R387, R390, R392, table "Lifecycle permissions"). -/
def Chip.secState (c : Chip) (idx sub v : Nat) : Bool :=
  if 0x1110 ≤ idx ∧ idx < 0x1130 then c.lifecycle == 3 && sub == 3
  else if idx = 0x6280 ∧ sub = 2 then c.lifecycle == 3
  else if idx = 0xB000 ∧ sub = 2 then c.sec.changing.isSome || !c.changeOk (v / 2 ^ 24)
  else if idx = 0xB001 ∧ sub = 3 then
    v == 1 && (!c.grade.sgn || decide (255 ≤ c.genAhead) || c.sealBusy || !(c.lifecycle == 1 || c.lifecycle == 2))
  else if idx = 0xB002 then
    if sub = 5 ∨ sub = 6 then !(c.lifecycle == 1 || c.lifecycle == 2) else c.lifecycle != 1
  else if idx = 0xB004 ∧ sub = 1 then v == 0 && decide (2 ≤ c.lifecycle)
  else if idx = 0xB100 ∧ sub = 2 then v == 2 && c.lifecycle == 3
  else false

/-- The response of a write waits for its records (12 R325, 15 R384). -/
def secDefers (idx sub v : Nat) : Bool :=
  (decide (0x1110 ≤ idx) && decide (idx < 0x1130) && decide (sub ≤ 3)) || (idx == 0x6280 && sub == 2) ||
    (idx == 0xB002 && (sub == 1 || sub == 3)) || (idx == 0xB001 && sub == 3 && v == 1)

/-- The change that a deferred write asks for. -/
def Chip.secAsk (c : Chip) (ask : Option (Envelope × Call)) (idx sub v : Nat) : Chip :=
  if 0x1110 ≤ idx ∧ idx < 0x1130 then c.jobAdd (Chip.peerJob (idx - 0x1110) sub v ask)
  else if idx = 0x6280 then
    let i := c.rd 0x6280 1
    c.jobAdd ⟨.sa i (toBytes 40 v), [.journal (8 + i / 8), .group (8 + i / 8)], ask⟩
  else if idx = 0xB002 then
    c.jobAdd (if sub = 1 then ⟨.fwKey v, [.fwKey], ask⟩ else ⟨.debugKey v, [.debugKey], ask⟩)
  else
    let (k, c) := c.draw32
    c.jobAdd ⟨.newIdentity (c.genAhead + 1) k true, [.previous, .identity, .identity], ask⟩

/-! ### Image checks (15 R386, R387) -/

/-- Result and VERSION of an image's check; `patch`: as a Steward patch. -/
def Chip.imageResult (c : Chip) (patch : Bool) (b : List Nat) : Nat × Nat :=
  let n := b.length - 160
  let t := b.drop n
  let version := beN t 4 4
  let flags := byteAt t 3
  let cust := bit 7 flags
  let msg := b.take n ++ t.take 16
  let zero (l : List Nat) : Bool := l.all (· == 0)
  let form := decide (160 ≤ b.length) && be16 t 0 == 0x5347 && byteAt t 2 == (if patch then 2 else 1) && flags % 128 == 0 &&
    beN t 8 4 == n && zero ((t.drop 12).take 4) && zero (t.drop 144)
  let both := decide (2 ≤ c.lifecycle)
  let check := both || (c.lifecycle == 1 && cust && c.sec.fwKey != 0)
  let r :=
    if !form then 2
    else if !Config.ecdsaVerify Config.vendorKey msg (beN t 16 64) then 3
    else if both && !cust then 4
    else if check && (c.sec.fwKey == 0 || !Config.ecdsaVerify c.sec.fwKey msg (beN t 80 64)) then 5
    else if version < c.rd 0xB002 (if patch then 6 else 5) then 6
    else 1
  (r, version)

/-- A check is shown and carded; a failure raises F020 (15 R387, R388). -/
def Chip.imageShow (c : Chip) (patch : Bool) (r version : Nat) : Chip :=
  let s := if patch then 3 else 1
  let c := (c.wr 0xB003 s r).wr 0xB003 (s + 1) version
  let c := c.post 0x64 (patch.toNat * 2 ^ 23 + (r == 1).toNat * 2 ^ 22 + version % 65536)
  c.iff (r != 1) (fun c => c.raise 20 0 0)

/-! ### Debug sessions (15 R392–R394) -/

/-- The marker of the present session is written, as it stands at the grant or at the end (15 table "Security region", R394). -/
def Chip.markerWrite (c : Chip) : Chip :=
  let m := c.rd 0xB100 1
  let b := if m = 0 then List.replicate 8 0 else [m, c.lifecycle % 256] ++ toBytes 2 c.sec.debugMask ++ toBytes 4 c.time.seconds
  c.jobAdd ⟨.marker b, [.marker], none⟩

/-- A session ends (15 R394): the engines named are reset and return to service. A JTAG instruction that only the session offered is
BYPASS from then on (15 R396). -/
def Chip.debugEnd (c : Chip) : Chip :=
  let m := c.rd 0xB100 1
  if m = 0 then c
  else
    let mask := c.sec.debugMask
    let c := (c.wr 0xB100 1 0).post 0x61 (m * 2 ^ 22 + c.lifecycle % 4 * 2 ^ 20)
    let c := c.each c.grade.engines (fun e c =>
      if m == 2 && bit e mask && [1, 2, 4, 5].contains (c.engState e) then
        let c := c.iff (c.engState e == 1) (fun c => c.cacheLost e)
        let c := c.iff (c.spare == e) (fun c => (c.wr 0xE000 1 0xFF).wrb 0xE000 2 0 false)
        c.engineReset e
      else c)
    (c.modSec (fun s => { s with
      debugMask := 0, drained := 0, fullAsked := false
      jtag := if s.jtag == .idcode || s.jtag == .factoryTest then s.jtag else .bypass })).markerWrite

/-- A session is granted; the spare, when named, needs no drain (15 R393). -/
def Chip.debugGrant (c : Chip) (mode : Nat) : Chip :=
  let c := c.debugEnd
  let mask := if mode = 2 then c.rd 0xB100 3 else 0
  let c := ((c.wr 0xB100 1 mode).inc 0xB100 7).post 0x60 (mode * 2 ^ 22 + c.lifecycle % 4 * 2 ^ 20)
  let s := c.spare
  let taken := decide (s < 16) && bit s mask
  let c := c.iff taken (fun c => ((c.setEng s 4).wr 0xE000 1 0xFF).wrb 0xE000 2 0 false)
  (c.modSec (fun x => { x with debugMask := mask, drained := if taken then 2 ^ s else 0, fullAsked := false })).markerWrite

/-- DEBUG_REQUEST (15 R392, R394). -/
def Chip.debugAsk (c : Chip) (v : Nat) : Chip :=
  if v = 0 then c.debugEnd
  else if v = 2 && c.lifecycle = 2 then c.modSec (fun s => { s with fullAsked := true })
  else if c.rd 0xB100 1 = v then c else c.debugGrant v

/-- SERIAL as 16 bytes. -/
def Chip.serialBytes (c : Chip) : List Nat := toBytes 16 (c.rd 0x1010 3)

/-- A signature that verifies under the customer debug key over a message with the unused challenge. -/
def Chip.answered (c : Chip) (head tail : List Nat) (sig : Nat) : Bool :=
  match c.sec.challenge with
  | some ch => c.sec.debugKey != 0 && Config.ecdsaVerify c.sec.debugKey (head ++ toBytes 32 ch ++ c.serialBytes ++ tail) sig
  | none => false

/-- A response that fails consumes the challenge and counts (15 R392). -/
def Chip.answerFails (c : Chip) : Chip :=
  (c.inc 0xB100 8).modSec (fun s => { s with challenge := none, lockout := true })

/-- RESPONSE: granted, or refused (15 R392). -/
def Chip.debugResponse (c : Chip) (sig : Nat) : Option Nat × Chip :=
  if c.rd 0xB100 1 = 2 then (some stateErr, c)
  else if c.sec.fullAsked && c.lifecycle == 2 &&
      c.answered [0x44, 0x42, 0x47, 0x31] ([2] ++ toBytes 2 (c.rd 0xB100 3)) sig then
    (none, (c.modSec (fun s => { s with challenge := none })).debugGrant 2)
  else (some stateErr, c.answerFails)

/-- A re-key grant can be opened (15 R391). -/
def Chip.rekeyPossible (c : Chip) : Bool :=
  c.lifecycle == 2 && c.sec.debugKey != 0 && (List.range 32).all (fun n => !c.peerUsed n || c.peerErased n)

/-- REKEY_RESPONSE (15 R391). -/
def Chip.rekeyResponse (c : Chip) (sig : Nat) : Option Nat × Chip :=
  if c.rekeyPossible && c.answered [0x52, 0x4B, 0x59, 0x31] [] sig then
    (none, ((c.modSec (fun s => { s with challenge := none })).wrb 0xB100 0x0A 0 true).keyCard 0xA)
  else (some stateErr, c.answerFails)

/-- CHALLENGE is read: 32 fresh bytes (15 R392). -/
def Chip.challengeRead (c : Chip) : Nat × Chip :=
  let (r, c) := c.draw32
  (r, c.modSec (fun s => { s with challenge := some r }))

/-! ### TAMPER (15 R390) -/

/-- An accepted opening. A device whose lifecycle record is invalid erases nothing (15 R381, DEDUCED, log 80). -/
def Chip.tamperOpen (c : Chip) : Chip :=
  if c.rdb 0xB004 3 0 || !c.panelInputs then c
  else
    let c := ((c.wrb 0xB004 3 0 true).inc 0xB004 4).wr 0xB004 5 c.now
    let uses := c.rd 0xB004 1 != 0
    let erases := uses && !c.rdb 0xB000 3 1
    let c := (c.iff erases Chip.eraseShared).post 0x63 0
    let c := c.iff uses (fun c => c.raise 19 0 0)
    let c := (c.iff (c.rd 0xB100 1 == 2) Chip.debugEnd).rekeyEnd
    if !erases then c
    else
      let c := (c.jobsFail JobWhy.sharedKey).wrb 0xB000 3 2 true
      c.jobNext ⟨.tamper, [.lifecycle] ++ allGroups ++ [.lifecycle], none⟩

/-- The pin has read closed for 32 samples. -/
def Chip.tamperClose (c : Chip) : Chip := c.iff c.panelInputs (fun c => c.wrb 0xB004 3 0 false)

/-! ### Lifecycle changes (15 R379, R380) -/

/-- An accepted LIFECYCLE_REQUEST. -/
def Chip.lifecycleChange (c : Chip) (t : Nat) : Chip :=
  let c := c.debugEnd.modSec (fun s => { s with changing := some t })
  c.jobAdd ⟨.change t, [.lifecycle], none⟩

/-- What a write of the security objects does beyond its store. -/
def Chip.secPut (c : Chip) (idx sub v : Nat) : Option Chip :=
  if idx = 0xB000 ∧ sub = 2 then some (c.lifecycleChange (v / 2 ^ 24))
  else if idx = 0xB100 ∧ sub = 2 then some (c.debugAsk v)
  else none

/-! ### Step 3 of a start (15 R380, R381, R385, R390, 17 R410) -/

/-- A record written at a start, before any request is served (log 34). -/
def Chip.putImage (c : Chip) (a : Nat) (img : List Nat) : Chip :=
  let b := img.take (img.length - 1) ++ [0xA5]
  ((List.range b.length).zip b).foldl (fun c x => c.nvPut (a + x.1) x.2) c

/-- The records of a change written at a start. -/
def Chip.putAll (c : Chip) (why : JobWhy) : List SecRec → Chip
  | [] => c
  | r :: t =>
    let (a, img) := c.recImage ⟨why, r :: t, none⟩ r
    (c.putImage a img).putAll why t

/-- The payload of a two-slot record in use, its conflict flagged. -/
def Chip.secLoad (c : Chip) (r : SecRec) : Option (List Nat) × Chip :=
  let (a, b, m, n) := slotsOf r
  let x := c.twoSlot a b m n
  (x.1.map (·.2.2), c.recordConflict x.2)

/-- The journal completes its target (15 R385). -/
def Chip.journalReplay (c : Chip) : Chip :=
  match c.secLoad (.journal 0) with
  | (none, c) => c
  | (some p, c) =>
    let a := be16 p 0 + 0x1000
    let img := p.drop 4
    let full := img.take (img.length - 1) ++ [0xA5]
    if c.nvBytes a full.length = full then c else c.putImage a img

/-- A group's entries are loaded; a record that is there and not valid gives none and raises F010. -/
def Chip.groupLoad (c : Chip) (g : Nat) : Chip :=
  let (a, m, n) := groupAt g
  let got := c.recordAt a m n
  let c := c.iff (got.isNone && (c.nvBytes a n).any (· != 0)) (fun c => c.raise 10 0 0)
  let p := match got with
    | some (_, p) => p
    | none => []
  if g < 8 then
    c.each 4 (fun i c =>
      let e := (p.drop (40 * i)).take 40
      let k := 4 * g + i
      let c := (c.wr (0x1110 + k) 1 (byteAt e 0)).wr (0x1110 + k) 2 (beN e 4 4)
      c.modSec (fun s => { s with peerKeys := setNth s.peerKeys k (beN e 8 32) }))
  else
    c.each 8 (fun i c =>
      let e := (p.drop (38 * i)).take 38
      let k := 8 * (g - 8) + i
      let f := byteAt e 0
      let entry := (bit 7 f).toNat * 2 ^ 63 + byteAt e 1 * 2 ^ 48 + 2 ^ 40 + beN e 2 4
      let c := c.modSess (fun u => { u with sas := setNth u.sas k (if bit 7 f then entry else 0, bit 6 f) })
      c.modSec (fun s => { s with saKeys := setNth s.saKeys k (beN e 6 32) }))

/-- The lifecycle record is read; neither slot valid: F021, and the device runs as RETIRED (15 R381). -/
def Chip.lifecycleLoad (c : Chip) : Chip :=
  match c.secLoad .lifecycle with
  | (some p, c) =>
    (((c.wr 0xB000 1 (byteAt p 0)).wrb 0xB000 3 1 false).wrb 0xB000 3 0 (bit 7 (byteAt p 1))).wrb 0xB000 3 2 (bit 6 (byteAt p 1))
  | (none, c) => ((c.wr 0xB000 1 3).wr 0xB000 3 2).raise 21 0 0

/-- The sequence floors at a MAST power-up: both numbers restart above them (12 R328). -/
def Chip.floorsLoad (c : Chip) : Chip :=
  let (p, c) := c.secLoad .floors
  let p := p.getD []
  c.each 32 (fun n c =>
    let rx := beN p (8 * n) 4
    let tx := beN p (8 * n + 4) 4
    let c := c.modPeer n (fun _ => ⟨0, rx, tx, decide (2 ^ 32 - 1 ≤ tx + 65536), false, false⟩)
    (c.wr (0x1110 + n) 4 (min (rx + 65536) (2 ^ 32 - 1))).wr (0x1110 + n) 5 (min (tx + 65536) (2 ^ 32 - 1)))

/-- Keys loaded into key RAM. -/
def Chip.keysLoad (c : Chip) : Chip :=
  let (i, c) := c.secLoad .identity
  let (v, c) := c.secLoad .previous
  let (f, c) := c.secLoad .fwKey
  let (d, c) := c.secLoad .debugKey
  let i := i.getD []
  let k := beN i 4 32
  let fw := beN (f.getD []) 0 64
  let dbg := beN (d.getD []) 0 64
  let c := c.modSec (fun s => { s with identity := if k = 0 then none else some k, fwKey := fw, debugKey := dbg })
  let c := ((c.wr 0xB001 1 (byteAt i 0)).wr 0xB001 2 (beN i 36 64)).wr 0xB001 4 (beN (v.getD []) 0 272)
  let c := (c.wr 0xB002 2 (fingerprint fw)).wr 0xB002 4 (fingerprint dbg)
  c.each 40 (fun g c => c.groupLoad g)

/-- Step 3: the lifecycle record, interrupted erasures, keys. `power`: the start is a MAST power-up. -/
def Chip.secStart (c : Chip) (power : Bool) : Chip :=
  let c := c.journalReplay.lifecycleLoad
  let c := c.modSec (fun s => { s with jobs := [], busy := false, answers := [], changing := none })
  let c := c.modNv (fun n => { n with queue := n.queue.filter (fun p => !(p.why == .recBody secTag || p.why == .recCommit secTag)) })
  let retire := c.rdb 0xB000 3 0
  let tamper := c.rdb 0xB000 3 2
  let c := c.keysLoad
  let c := if retire then (((c.eraseAll).putAll .retire retireRecs).wrb 0xB000 3 0 false).keyCard 9 else c
  let c := if tamper && !retire then
      (((c.eraseShared).putAll .tamper (allGroups ++ [.lifecycle])).wrb 0xB000 3 2 false).keyCard 9 else c
  c.iff power Chip.floorsLoad

/-- A session still marked open is ended, and its card posted after POWER_UP (15 R394). -/
def Chip.markerLoad (c : Chip) : Chip :=
  match c.secLoad .marker with
  | (some p, c) =>
    if byteAt p 0 = 0 then c
    else (c.post 0x61 (byteAt p 0 * 2 ^ 22 + byteAt p 1 % 4 * 2 ^ 20)).markerWrite
  | (none, c) => c

end Sys2Proof.Machine
end

