-- ==== Sys2Proof/Machine/Power.lean ====
section
/-!
DEFINITION. Sys2Proof/Machine/Power.lean: the domains (01 R17–R20), the power states and their transitions, power failure, the
content a domain keeps, doze, and the wake sequencer with its inrush budget (14).
-/

namespace Sys2Proof.Machine

def Chip.modPower (c : Chip) (f : PowerUnit → PowerUnit) : Chip := { c with power := f c.power }

/-- Bit of a domain in DOMAINS_AWAKE (14 0xA001:03). -/
def domBit : Dom → Nat
  | .sense => 7 | .loop => 6 | .enga => 5 | .engb => 4 | .fabric => 3 | .port => 2 | .synth => 1 | .syspll => 0 | .mast => 8

/-- WAKE_UNITS (14 R373). -/
def wakeUnits : Dom → Nat
  | .sense => 8 | .loop => 6 | .enga => 80 | .engb => 80 | .fabric => 24 | .port => 40 | .synth => 16 | .syspll => 2 | .mast => 0

/-- A domain of the grade (00 R1). -/
def Grade.hasDom (g : Grade) (d : Dom) : Bool := !(g == .e && d == .engb)

/-- Asleep in doze (14 R372). -/
def Chip.dozing (c : Chip) (d : Dom) : Bool := c.dom d == .gated || c.dom d == .retained

/-- DOMAINS_AWAKE and DOMAINS_DOZING (14 0xA001). -/
def domMask (f : Dom → Bool) : Nat :=
  switched.foldl (fun a d => a + (f d).toNat * 2 ^ domBit d) 0

/-! ### What a domain requires, and when it is needed (01 R17–R19, 14 R359) -/

/-- A channel enabled as configured. -/
def Chip.chanSet (c : Chip) (ch : Nat) : Bool := decide (ch < c.grade.chans) && c.rdb (0x3000 + ch) 1 0

/-- An enabled channel has an enabled candidate below `n` in its table. -/
def Chip.chanUses (c : Chip) (ch n : Nat) : Bool :=
  c.chanSet ch && (List.range 28).any (fun k =>
    let x := c.entryCand ch (k + 1)
    decide (x < n) && c.grade.hasCand x && c.rdb (0x2000 + x) 1 0)

/-- A time-interval or event-capture measurement is armed (01 R17). -/
def Chip.auxInUse (c : Chip) : Bool := c.armed 0 != 0 || c.armed 1 != 0 || c.rdf 0x2170 1 3 0 != 0

/-- What a domain requires (01 R19). -/
def Chip.requires (c : Chip) : Dom → List Dom
  | .loop => if (List.range 8).any (fun ch => c.chanUses ch 24) then [.sense] else []
  | .fabric => [.syspll]
  | .port => [.syspll, .fabric, .synth]
  | .enga => [.syspll, .fabric]
  | .engb => [.syspll, .fabric]
  | _ => []

/-- The domains that require it. -/
def Chip.requiredBy (c : Chip) (d : Dom) : List Dom := switched.filter (fun x => (c.requires x).contains d)

def Chip.anyGroup (c : Chip) : Bool := (List.range c.grade.chans).any (fun g => c.rdb (0x4010 + g) 1 0)
def Chip.anyOutput (c : Chip) : Bool := (List.range (2 * c.grade.chans)).any c.outOn
def Chip.anyTtu (c : Chip) : Bool := (List.range 8).any (fun u => (c.rd (0x7000 + u) 1 != 0 && c.ttuArmed u) || c.ttuActive u)
def Chip.anyPort (c : Chip) : Bool := (List.range c.grade.ports).any (fun p => c.rdb (0x5000 + p) 1 0)

/-- An engine of the domain works or is spare. -/
def Chip.enginesOf (c : Chip) (d : Dom) : Bool :=
  (List.range c.grade.engines).any (fun e => engDom e == d && (c.engState e == 1 || c.engState e == 2))

/-- The state held needs the domain awake, or dozing (14 table "Domains by power state"). -/
def Chip.domWanted (c : Chip) (d : Dom) : Bool :=
  if c.start.stage < 3 || c.start.rstLow then false
  else
    match c.powerState, d with
    | 0, .sense => (List.range 8).any (fun ch => c.chanUses ch 24) || c.auxInUse
    | 0, .loop => (List.range 8).any c.chanSet
    | 0, .synth => c.anyGroup || c.anyOutput || c.anyTtu || c.anyPort
    | 0, .syspll => true
    | 0, .fabric => true
    | 0, .port => c.anyPort
    | 0, .enga => c.live && (c.start.loading || c.start.enginesUp || c.enginesOf .enga)
    | 0, .engb => c.live && (c.start.loading || c.start.enginesUp || c.enginesOf .engb) && c.grade != .e
    | 1, .sense => c.chanUses 0 16 || c.auxInUse
    | 1, .loop => (List.range 8).any c.chanSet
    | 1, .synth => c.rdb (0x4010 + c.rd 0xA000 4) 1 0 || c.anyTtu
    | _, .mast => true
    | _, _ => false

/-- The supplies a domain needs are good (14 R357). SUPPLY_GOOD: [0] VDD_CORE, [1] VDDA_PLL, [3:2] VDDA_SER, [4] VDDIO. -/
def Chip.supplied (c : Chip) (d : Dom) : Bool :=
  let g := c.rd 0xA001 2
  match d with
  | .mast => true
  | .sense => bit 0 g && bit 1 g
  | .synth => bit 0 g && bit 1 g
  | .syspll => bit 0 g && bit 1 g
  | .port => bit 0 g && bit 2 g && bit 3 g
  | _ => bit 0 g

/-! ### Stops and what they lose (14 R363, R364) -/

/-- FABRIC stops; `keep`: FABRIC_RETAIN applies. -/
def Chip.fabricStop (c : Chip) (keep : Bool) : Chip :=
  let kt := keep && c.rdb 0xA000 6 0
  let kp := keep && c.rdb 0xA000 6 1
  let c := c.modSess (fun u => { u with
    table := if kt then u.table.map (fun s => { s with dev := s.saved, shown := s.saved }) else []
    commits := [], held := [], servos := u.servos.map (fun _ => default) })
  let c := if kp then c else c.plansLost
  c.ringsLost.fabricRamLost.modPower (fun w => { w with keptTable := kt, keptPlans := kp })

/-- The synthesis part stops: groups OFF, offsets lost, the core APLL unlocked (14 R363). `hiz`: its supplies have gone or it is
reset, and the drivers go to high impedance (14 R358). -/
def Chip.synthStop (c : Chip) (hiz : Bool) : Chip :=
  let c := c.each c.grade.chans (fun g c => c.iff (c.gState g != 0) (fun c => c.setGroup g 0 0))
  let c := { c with synth := { c.synth with groups := c.synth.groups.map (fun (x : Group) =>
    { (default : Group) with bad := x.bad, untold := x.untold }) } }
  let c := c.each (2 * c.grade.chans) (fun k c => c.setDrive k .level (hiz || (c.outp k).hiz))
  let c := (c.wrb 0x4001 2 8 false).modApll (fun a => { (default : Apll) with last := a.last })
  c.iff hiz Chip.ttusStop

/-- Objects whose status the Steward holds in MAST (04 R100, 05 R124, R136, 02 R66, log 36). -/
def heldInMast (idx sub : Nat) : Bool :=
  (decide (0x3010 ≤ idx) && decide (idx < 0x3018)) || (decide (0x3020 ≤ idx) && decide (idx < 0x3038)) ||
    (decide (0x2020 ≤ idx) && decide (idx < 0x203C) && (sub == 1 || sub == 2 || sub == 0x0A))

/-- The status fields that start from their reset values when a domain wakes (14 R363), as base, number of objects and subindices.
Fields whose chapters hold them in MAST, counters, and fields that the units themselves set at the stop are not among them. -/
def statusOf : Dom → List (Nat × Nat × Nat × Nat)
  | .loop => [(0x2020, 28, 3, 9), (0x3010, 8, 4, 10), (0x3110, 8, 1, 28), (0x3118, 8, 1, 28)]
  | .fabric => [(0x5120, 8, 6, 8), (0x6020, 8, 32, 32), (0x6101, 1, 16, 31), (0x6200, 1, 7, 8), (0x6228, 4, 1, 7), (0x6308, 8, 2, 2)]
  | .port => [(0x5010, 8, 1, 6), (0xD008, 8, 1, 4)]
  | .synth => [(0x4001, 1, 2, 2), (0x4018, 8, 5, 6), (0x4018, 8, 14, 14), (0x4020, 1, 5, 5)]
  | _ => []

/-- The same, at their reset values. -/
def Chip.statusReset (c : Chip) (d : Dom) : Chip :=
  let lost (k : Nat) : Bool := (statusOf d).any (fun x =>
    decide (x.1 ≤ k / 256) && decide (k / 256 < x.1 + x.2.1) && decide (x.2.2.1 ≤ k % 256) && decide (k % 256 ≤ x.2.2.2))
  { c with objs := c.objs.filter (fun p => !lost p.1) }

/-- What a channel keeps while LOOP is asleep: its steering word and its model; the loop filter, the shadows and the offsets of its
phase go (14 table "Content on sleep"). -/
def Chan.asleep (k : Chan) : Chan :=
  { k with
    integ := k.w, hybrid := 0, errs := [], errsP := [], shadows := List.replicate 28 default
    buildOut := 0, slew := 0, preset := none, decided := none }

/-- A domain powers down outside doze, or is reset: its content goes (14 table "Content on sleep"). `hard`: by a supply loss or a
block reset. -/
def Chip.domStop (c : Chip) (d : Dom) (hard : Bool) : Chip :=
  let c := match d with
    | .sense => let c := c.mclkStop false
                { c with tdc := { c.tdc with coarse := 0, coarseRem := 0 } }
    | .loop => { c with chans := c.chans.map Chan.asleep }
    | .enga => c.enginesLost .enga
    | .engb => c.enginesLost .engb
    | .fabric => c.fabricStop (!hard)
    | .port => c.portLost
    | .synth => c.synthStop hard
    | .syspll => ((c.clockTake 0).wrb 0x4008 2 0 false).modStart (fun u => { u with
        sysGood := 0, sysRestarting := false, sysRestarts := 0, sysFailed := false })
    | .mast => c
  let c := c.modPower (fun w => { w with
    wakes := w.wakes.filter (fun r => r.dom != d), planned := w.planned.filter (fun x => x.1 != domIdx d) })
  ((c.statusReset d).isolate d).setDom d .asleep

/-- Domains stopped in the order of 14 R367, those that require another before it. -/
def stopOrder : List Dom := [.port, .enga, .engb, .fabric, .synth, .loop, .sense, .syspll]

/-! ### The wake sequencer (14 R373–R376) -/

/-- Typical wake time of a domain from where it stands, in ps. -/
def Chip.wakeTime (c : Chip) (d : Dom) : Nat :=
  match c.dom d, d with
  | .gated, .port => 200000
  | .gated, _ => 100000
  | .retained, .port => 12000000
  | .retained, _ => 1500000
  | _, .sense => 20000000 + 8192000000000000 / c.nominal
  | _, .loop => 4000000
  | _, .synth => 600000000
  | _, .syspll => 10000000
  | _, .fabric => 1400000000
  | _, .enga => 2000000
  | _, .engb => 2000000
  | _, _ => 0

/-- The time since MAST power-up in ps. -/
def Chip.monoPs (c : Chip) : Nat := c.time.mono * 1000 / nsUnit

/-- A wake of a domain and of those it requires is asked for; a request already waiting keeps its place, with the better class. -/
def Chip.wakeAsk (c : Chip) (d : Dom) (cls : Nat) (need : Option Nat) : Chip :=
  let one (c : Chip) (x : Dom) : Chip :=
    if c.awake x || c.waking x || !c.grade.hasDom x || x == .mast then c
    else if c.power.wakes.any (fun r => r.dom == x) then
      c.modPower (fun w => { w with wakes := w.wakes.map (fun r =>
        if r.dom == x then { r with cls := min r.cls cls, need := if r.need.isNone then need else r.need } else r) })
    else c.modPower (fun w => { w with wakes := w.wakes ++ [⟨x, cls, c.time.mono, need, false⟩] })
  let c := c.modPower (fun w => { w with abandoned := w.abandoned.filter (· != d) })
  (c.requires d ++ [d]).foldl one c

/-- The wake order (14 R375): class, then the earliest need in class 2 or the request in classes 3 and 4, then the order of the
domains. -/
def WakeReq.before (a b : WakeReq) : Bool :=
  let pos (r : WakeReq) : Nat := (switched.findIdx? (· == r.dom)).getD 8
  let sub (r : WakeReq) : Nat := if r.cls = 2 then r.need.getD 0 else if 3 ≤ r.cls then r.since else 0
  decide (a.cls < b.cls) || (a.cls == b.cls && (decide (sub a < sub b) || (sub a == sub b && decide (pos a < pos b))))

/-- The request to be admitted next, among those that can be. -/
def firstWake : List WakeReq → Option WakeReq
  | [] => none
  | r :: t =>
    match firstWake t with
    | some x => some (if x.before r then x else r)
    | none => some r

/-- The domain's clock may start at `at_` ps: its supplies are good and what it requires is awake, or starts 0.1 µs before (14 R357,
R374). -/
def Chip.wakeReady (c : Chip) (d : Dom) (at_ : Nat) : Bool :=
  c.supplied d && (c.requires d).all (fun x =>
    c.awake x || (c.waking x && (match mget (domIdx x) c.power.planned with
      | some t => decide (t + 100000 ≤ at_)
      | none => false)))

/-- Every half-open interval of 10 µs that holds the instant carries at most WAKE_BUDGET with the charge added (14 R374). -/
def Chip.budgetOk (c : Chip) (at_ units : Nat) : Bool :=
  let wait := c.power.planned.map (fun x => (x.2, match switched.find? (fun d => domIdx d == x.1) with
    | some d => wakeUnits d
    | none => 0))
  let all := (at_, units) :: (c.power.charges ++ wait)
  all.all (fun s => !(decide (s.1 ≤ at_) && decide (at_ < s.1 + 10000000)) ||
    decide (((all.filter (fun x => decide (s.1 ≤ x.1) && decide (x.1 < s.1 + 10000000))).map (·.2)).foldl (· + ·) 0
      ≤ c.rd 0xA002 1))

/-- An engine image load begins (17 R413, R414). -/
def Chip.loadBegin (c : Chip) : Chip :=
  if c.start.loading then c
  else
    let c := (c.inc 0xE001 6).modStart (fun u => { u with loading := true, enginesUp := false, imageBad := true, pushed := [] })
    c.iff (c.rdb 0x1030 3 0) (fun c => c.wr 0xE001 5 1)

/-- WAKE_ADMIT: the sequencer admits the first wake that waits, if its clock start fits the budget (14 R374, R375). -/
def Chip.wakeAdmit (c : Chip) : Chip :=
  let can (r : WakeReq) : Bool := !c.waking r.dom && c.wakeReady r.dom (c.monoPs + c.wakeTime r.dom)
  match firstWake (c.power.wakes.filter can) with
  | none => c
  | some r =>
    let at_ := c.monoPs + c.wakeTime r.dom
    if !c.budgetOk at_ (wakeUnits r.dom) then
      if r.counted then c
      else (c.inc 0xA002 3).modPower (fun w => { w with
        wakes := w.wakes.map (fun x => if x.dom == r.dom then { x with counted := true } else x) })
    else
      let lost := !c.dozing r.dom
      let c := c.inc 0xA002 2
      let wait := (c.time.mono - r.since) / nsUnit
      let c := c.iff (r.counted && decide (c.rd 0xA002 6 < wait)) (fun c => c.wr 0xA002 6 (min wait (2 ^ 32 - 1)))
      let c := c.modPower (fun w => { w with
        wakes := w.wakes.map (fun x => if x.dom == r.dom then { x with cls := 0 } else x)
        planned := mset (domIdx r.dom) at_ w.planned })
      let c := c.setDom r.dom (.waking lost)
      let c := c.iff (r.dom == .synth) Chip.apllStart
      c.iff (lost && (r.dom == .enga || r.dom == .engb) && c.live) Chip.loadBegin

/-- A forced pair of the domain is driven again once its isolation ends (13 R339, R354). -/
def Chip.forceAgain (c : Chip) (d : Dom) : Chip :=
  c.each 128 (fun s c => if srcDom s == d && srcPresent c.grade s then
      (match c.rd (0x9100 + s) 4 with
       | 1 => c.iff (srcCond s) (fun c => c.raiseWith s 0 0 none true)
       | 2 => c.breakPair s true true
       | _ => c)
    else c)

/-- The domain runs on the engine clock (01 R30, R32). -/
def clockUser (d : Dom) : Bool := [.fabric, .enga, .engb, .port].contains d

/-- DOMAIN_WAKE_COMPLETE: the clock starts and the units are charged (14 R373). SENSE needs its lock, the synthesis part the core
APLL's, engines their firmware, and what runs on the engine clock a source of it. -/
def Chip.wakeDone (c : Chip) (d : Dom) : Chip :=
  let lost := c.dom d == .waking true
  let ready := c.waking d && c.supplied d && (c.requires d).all c.awake && (!clockUser d || c.clockReady) &&
    !(lost && ((d == .sense && !c.mclk) || (d == .synth && !c.apllLocked) ||
      ((d == .enga || d == .engb) && (c.start.loading || !c.start.enginesUp))))
  if !ready then c
  else
    let now := c.monoPs
    let late := c.power.wakes.any (fun r => r.dom == d && (match r.need with
      | some n => decide (n < c.time.mono)
      | none => false))
    let c := c.iff late (fun c => c.inc 0xA002 4)
    let c := c.modPower (fun w => { w with
      wakes := w.wakes.filter (fun r => r.dom != d), planned := mdel (domIdx d) w.planned
      charges := (now, wakeUnits d) :: w.charges.filter (fun x => decide (now < x.1 + 20000000)) })
    let c := (c.iff (clockUser d && !c.clockUsed) Chip.clockServe).setDom d .awake
    let c := c.iff (d == .fabric && lost && !c.power.keptTable && !c.power.keptPlans) (fun c => c.inc 0xA001 8)
    (c.iff (d == .synth) Chip.ttusChoose).forceAgain d

/-- WAKE_TIMEOUT: the wake is abandoned (14 R376). -/
def Chip.wakeTimeout (c : Chip) (d : Dom) : Chip :=
  if !(c.waking d || c.power.wakes.any (fun r => r.dom == d)) then c
  else
    let was := c.dom d
    let c := (c.inc 0xA002 5).raise 23 (2 ^ domBit d) 0
    let c := if was == .waking true then c.domStop d false
      else if was == .waking false then c.setDom d .retained else c
    c.modPower (fun w => { w with
      wakes := w.wakes.filter (fun r => r.dom != d), planned := mdel (domIdx d) w.planned, abandoned := d :: w.abandoned })

/-! ### Changing state (14 R366–R368) -/

/-- A transition begins: STATE takes the new code, the card is posted (14 R366). -/
def Chip.moveTo (c : Chip) (t : Nat) : Chip :=
  let old := c.powerState
  if old = t then c.modPower (fun w => { w with downTo := none, downReady := false })
  else
    let c := (c.wrf 0xA001 1 1 0 t).wrb 0xA001 1 7 true
    let c := (c.inc 0xA001 6).wr 0xA001 7 c.now
    let c := c.modPower (fun w => { w with
      downTo := none, downReady := false, moving := some t, held := false, abandoned := []
      wakes := w.wakes.filter (fun r => c.waking r.dom) })
    c.post 0x04 (old * 2 ^ 20 + t * 2 ^ 16)

/-- A state is requested (14 R366, R377). -/
def Chip.powerRequest (c : Chip) (t : Nat) : Chip :=
  if c.power.moving.isSome then c.modPower (fun w => { w with nextTarget := some t })
  else if t ≤ c.powerState then c.moveTo t
  else c.modPower (fun w => { w with downTo := some t, downReady := false })

/-- POWER_DOWN_TRANSITION: the processing of the deal after the request has ended (14 R366, R367). -/
def Chip.moveDown (c : Chip) : Chip :=
  match c.power.downTo with
  | some t => if c.power.downReady && !c.rdb 0xA001 1 6 then c.moveTo t else c
  | none => c

/-- Outputs are still in their squelch sequences, or a pulse in its width (14 R367 step 4, 07 R196). -/
def Chip.outputsFall (c : Chip) : Bool :=
  (List.range (2 * c.grade.chans)).any (fun k => (c.outp k).drive == .falling || (c.outp k).drive == .run) ||
    (List.range 8).any c.ttuActive

/-- A domain that nothing needs powers down, once those that require it are down; the synthesis part waits for its squelch
sequences while its supplies are good (01 R19, 14 R367). A domain that an access has asked for stays until its wake ends. -/
def Chip.sleepUnwanted (c : Chip) : Chip :=
  stopOrder.foldl (fun c d =>
    let free := (c.requiredBy d).all (fun x => c.dom x == .asleep)
    let free := free && !(d == .synth && c.outputsFall && c.supplied .synth)
    let asked := c.power.wakes.any (fun r => r.dom == d || (c.requires r.dom).contains d)
    c.iff (!c.domWanted d && c.dom d != .asleep && free && !asked) (fun c => c.domStop d false)) c

/-- A domain that the state needs is asked for (14 R368). -/
def Chip.wakeWanted (c : Chip) : Chip :=
  switched.foldl (fun c d =>
    c.iff (c.domWanted d && c.dom d == .asleep && !c.power.abandoned.contains d &&
        !c.power.wakes.any (fun r => r.dom == d)) (fun c =>
      c.wakeAsk d (if c.power.moving.isSome || !c.live then 1 else 4) none)) c

/-- Requests for domains that nothing needs any more are dropped unless they came from an access. -/
def Chip.moveEnd (c : Chip) : Chip :=
  match c.power.moving with
  | none => c
  | some t =>
    let done := switched.all (fun d => !c.grade.hasDom d || c.power.abandoned.contains d ||
      (if c.domWanted d then c.awake d || c.dozing d else c.dom d == .asleep))
    if !done then c
    else
      let next := c.power.nextTarget
      let c := (c.wrb 0xA001 1 7 false).modPower (fun w => { w with moving := none, nextTarget := none })
      match next with
      | some n => if n = t then c else c.powerRequest n
      | none => c

/-- Every enabled port idles both ways and waits long enough for PORT's wake (08 R231). -/
def Chip.portQuiet (c : Chip) : Bool :=
  (List.range c.grade.ports).all (fun p => !c.portOn p ||
    (c.rdb (0x5010 + p) 1 7 && c.rdb (0x5010 + p) 1 6 && decide (14000 ≤ c.rd (0x5000 + p) 0x10)))

/-- The power part follows its conditions. -/
def Chip.powerWatch (c : Chip) : Chip :=
  let q := c.portQuiet
  let c := c.iff (q != c.power.quietSince.isSome) (fun c =>
    c.modPower (fun w => { w with quietSince := if q then some c.time.mono else none }))
  c.sleepUnwanted.wakeWanted.moveEnd

/-! ### Power failure and supplies (14 R357, R358, R369, R370) -/

/-- PWR_FAIL_N is low, taken as low while VDDIO is bad, or VDD_MAST is below its threshold. -/
def Chip.failing (c : Chip) : Bool := c.power.pfPin || c.power.pfMonitor || !c.rdb 0xA001 2 4

/-- PF_STATE is entered at once (14 R369). -/
def Chip.pfEnter (c : Chip) (st : Nat) : Chip :=
  let c := c.modPower (fun w => { w with nextTarget := none, downTo := none, downReady := false, moving := none, held := false })
  ((c.wrb 0xA001 1 6 true).wrb 0xA001 1 7 false).moveTo st

/-- The flush trigger (11 R292, 14 R369): the flush begins and PF_STATE is entered. -/
def Chip.flushTrigger (c : Chip) (monitor : Bool) (st : Nat) : Chip :=
  let c := c.iff (c.rd 0xB100 1 == 2) Chip.debugEnd
  let c := c.flushStart monitor
  if c.rdb 0xA001 1 6 then c else c.pfEnter st

/-- FLUSH_TRIGGER: PWR_FAIL_N falls, or VDD_MAST drops below its threshold. -/
def Chip.pwrFail (c : Chip) (monitor : Bool) : Chip :=
  let was := c.failing
  let c := c.modPower (fun w => { w with pfPin := w.pfPin || !monitor, pfMonitor := w.pfMonitor || monitor })
  let c := c.iff (!was) (fun c => c.raise 4 0 0)
  c.flushTrigger monitor (c.rd 0xA000 2)

/-- PWR_FAIL_RELEASE: PWR_FAIL_N is high, VDD_MAST never fell away (11 R292). -/
def Chip.pwrRelease (c : Chip) : Chip :=
  let c := c.modPower (fun w => { w with pfPin := false, pfMonitor := false })
  if c.failing then c else (c.drop 4).flushEnd

/-- The supplies that a power state needs are good (14 R356, R370). -/
def Chip.suppliesFor (c : Chip) (t : Nat) : Bool :=
  let g := c.rd 0xA001 2
  t == 2 || (bit 0 g && bit 1 g && (t == 1 || !c.anyPort || (bit 2 g && bit 3 g)))

/-- PF_CLEAR: 10 ms have passed without a failure (14 R370). -/
def Chip.pfClear (c : Chip) : Chip :=
  let t := c.rd 0xA000 1
  if !c.rdb 0xA001 1 6 || c.failing || !c.suppliesFor t then c
  else
    let c := c.wrb 0xA001 1 6 false
    if c.rd 0xA000 3 = 1 && c.rdb 0xA000 7 0 then
      (c.modPower (fun w => { w with moving := none })).powerRequest t
    else c.modPower (fun w => { w with held := true })

/-- VDD_CORE has left its range with a domain awake (14 R358). -/
def Chip.coreLoss (c : Chip) : Chip :=
  if switched.all (fun d => c.dom d == .asleep) then c
  else
    let c := c.iff (c.rd 0xB100 1 == 2) Chip.debugEnd
    let c := stopOrder.foldl (fun c d => c.iff (c.dom d != .asleep) (fun c => c.domStop d true)) c
    let c := c.inc 0xA001 5
    let c := c.flushStart true
    let c := c.iff (c.powerState == 2) (fun c => c.post 0x04 (2 * 2 ^ 20 + 2 * 2 ^ 16))
    if c.rdb 0xA001 1 6 then c.moveTo 2 else c.pfEnter 2

/-- A loss of VDDA_PLL or VDDA_SER with its domains awake: they are isolated and lose their content (14 R358). -/
def Chip.railLoss (c : Chip) (ds : List Dom) : Chip :=
  if ds.all (fun d => c.dom d == .asleep) then c
  else
    let c := ds.foldl (fun c d => c.iff (c.dom d != .asleep) (fun c => c.domStop d true)) c
    let s := c.powerState
    (c.inc 0xA001 5).post 0x04 (s * 2 ^ 20 + s * 2 ^ 16)

/-- SUPPLY_GOOD_CHANGE (14 R357). -/
def Chip.supplyChange (c : Chip) (rail : Nat) (good : Bool) : Chip :=
  let was := c.rdb 0xA001 2 rail
  let fail := c.failing
  let c := (c.wrb 0xA001 2 rail good).modPower (fun w => { w with abandoned := if good then [] else w.abandoned })
  if was = good then c
  else if good then
    if rail = 4 && fail && !c.failing then (c.drop 4).flushEnd else c
  else
    match rail with
    | 0 => c.coreLoss
    | 1 => c.railLoss [.sense, .synth]
    | 4 => (c.iff (!fail) (fun c => c.raise 4 0 0)).flushTrigger false (c.rd 0xA000 2)
    | _ => c.railLoss [.port]

/-- A flush that no failing input holds ends with its last program (log 33). -/
def Chip.flushWatch (c : Chip) : Chip :=
  if c.nv.flushing && c.nv.flushBegun && !c.failing && c.nv.prog.isNone && c.nv.flushCards.isEmpty && c.nv.batch.isNone then
    c.flushEnd
  else c

/-- A write to POWER_CONTROL or WAKE_SEQUENCER breaks a rule on its value (14 R366). -/
def Chip.powerRel (c : Chip) (idx sub v : Nat) : Bool :=
  idx == 0xA000 && sub == 1 && v == 1 &&
    ((c.rd 0xA000 5 != 0xFF && c.rd 0xA000 5 / 2 != c.rd 0xA000 4) || !c.rdb (0x4010 + c.rd 0xA000 4) 1 0)

/-- POWER_TARGET may not be written now (14 R370, 15 R398). -/
def Chip.powerBlocked (c : Chip) (idx sub v : Nat) : Bool :=
  idx == 0xA000 && sub == 1 && (c.rdb 0xA001 1 6 || (v != 0 && c.rd 0xB100 1 == 2))

/-- POWER_TARGET taken. -/
def Chip.powerPut (c : Chip) (idx sub v : Nat) : Option Chip :=
  if idx = 0xA000 ∧ sub = 1 then
    some (((c.wr idx sub v).modPower (fun w => { w with held := false })).powerRequest v)
  else none

/-! ### Doze (09 R251, 14 R372) -/

/-- Where the present guard starts, in ns of the counter. -/
def Chip.guardStart (c : Chip) : Nat := c.hand.ends - c.guard

/-- The engines of a domain serve a trick: its session's engine is in it, or it is a servo's. -/
def Chip.servedIn (c : Chip) (d : Dom) (e : Nat) : Bool :=
  trServo e || (match c.engineOf (c.session (trSession e)) with
    | some g => engDom g == d
    | none => false)

/-- The earliest of some instants. -/
def earliest (l : List Rat) (top : Rat) : Rat := l.foldl (fun a x => if x < a then x else a) top

/-- The next need of PORT, or of an engine domain, or of FABRIC, in ns of the counter; PORT has none while no port is enabled. -/
def Chip.nextNeed (c : Chip) (d : Dom) : Option Rat :=
  let g : Rat := c.guardStart
  let on := (List.range c.grade.ports).filter c.portOn
  let port : List Rat := on.flatMap (fun p =>
    (match c.nextTrick p with
      | some t => [(t : Rat)]
      | none => []) ++
    (match (c.port p).ltu with
      | l :: _ => [(tsUnits l.time : Rat) / 65536 - c.rd (0x5000 + p) 0x0F]
      | [] => []))
  let eng (d : Dom) : List Rat := on.flatMap (fun p =>
    ((List.range (c.activeCount p)).drop (c.port p).composed).filterMap (fun i =>
      let e := c.trickAt p i
      if c.servedIn d e then some ((c.trickStart_ e : Rat) - c.rd 0x6000 5) else none))
  match d with
  | .port => if on.isEmpty then none else some (earliest port g)
  | .enga => some (earliest (eng .enga) g)
  | .engb => some (earliest (eng .engb) g)
  | _ => some (earliest (port ++ eng .enga ++ eng .engb) g)

/-- Work waits for the domain now, or a domain that requires it is awake. -/
def Chip.pendingWork (c : Chip) (d : Dom) : Bool :=
  let ports := List.range c.grade.ports
  c.hand.stage != 0 ||
    (match d with
     | .port => ports.any (fun p => !((c.port p).tx.flatten ++ (c.port p).late).isEmpty || !(c.port p).control.isEmpty)
     | .fabric => c.awake .enga || c.awake .engb || c.awake .port
     | _ => ports.any (fun p => ((c.port p).rx.take 4).any (fun l => !l.isEmpty)))

/-- The deepest kind allowed whose maximum wake time and DOZE_MARGIN fit before the next need: 0 none, 1 clock gating, 2
retention gating. -/
def Chip.dozeKind (c : Chip) (d : Dom) : Nat :=
  let top := c.rd 0xA010 (match d with
    | .enga => 1 | .engb => 2 | .fabric => 3 | _ => 4)
  let idle := match c.power.quietSince with
    | some t => decide (t + (c.totalNs - c.hand.deal + c.handLen) * nsUnit ≤ c.time.mono)
    | none => false
  let top := if d == .port && !idle then min top 1 else top
  let fits (ps : Nat) : Bool :=
    match c.nextNeed d with
    | some n => decide ((ps : Rat) / 1000 + c.rd 0x6000 6 < n - c.totalRat)
    | none => true
  if top = 2 && fits (if d == .port then 14000000 else 2000000) then 2
  else if 1 ≤ top && fits (if d == .port then 200000 else 100000) then 1 else 0

/-- DOZE_ENTRY. Its sources keep their pairs: a dozing domain is not asleep for 13 R339 (14 R372). -/
def Chip.dozeEnter (c : Chip) (d : Dom) : Chip :=
  if !(d == .enga || d == .engb || d == .fabric || d == .port) || c.powerState != 0 || c.power.moving.isSome || !c.awake d ||
      c.pendingWork d then c
  else
    match c.dozeKind d with
    | 2 => c.setDom d .retained
    | 1 => c.setDom d .gated
    | _ => c

/-- DOZE_WAKE_REQUEST: the next need less wake time and margin has come (09 R251, 14 R375). -/
def Chip.dozeWake (c : Chip) (d : Dom) : Chip :=
  if !c.dozing d then c
  else
    match c.nextNeed d with
    | some n =>
      let gap := (n - c.totalRat) * nsUnit
      let cls := if n = (c.guardStart : Rat) then 1 else 2
      c.wakeAsk d cls (some (c.time.mono + gap.floor.toNat))
    | none => c

/-- The partner wakes a port (08 R230): a dozing PORT is asked for, to be awake within RX_WAKE (08 R231, log 74). -/
def Chip.rxWakePort (c : Chip) (p : Nat) : Chip :=
  let c := c.rxWake p
  c.iff (c.dozing .port) (fun c => c.wakeAsk .port 4 (some (c.time.mono + c.rd (0x5000 + p) 0x10 * nsUnit)))

/-! ### Block resets (13 R351) -/

/-- A block reset of a domain: those that require it stop before it and wake after it. -/
def Chip.blockReset (c : Chip) (d : Dom) : Chip :=
  if !c.awake d then c.inc 0x9000 0x0C
  else
    let c := c.inc 0x9000 0x0B
    let ds := stopOrder.filter (fun x => x == d || ((c.requiredBy d).contains x && c.dom x != .asleep))
    let c := ds.foldl (fun c x => c.domStop x true) c
    ds.foldl (fun c x => c.wakeAsk x 4 none) c

/-- The block resets asked for are made. -/
def Chip.blockResets (c : Chip) : Chip :=
  let ds := c.power.resetDoms
  ds.foldl (fun c d => c.blockReset d) (c.modPower (fun w => { w with resetDoms := [] }))

end Sys2Proof.Machine
end

