-- ==== Sys2Proof/Machine/Collector.lean ====
section
/-!
DEFINITION. Sys2Proof/Machine/Collector.lean: what software and time do to the fault collector: traps, the width and release of
ERR_N, the release of the capture, clearing, and fault injection (13 R344–R354).
-/

namespace Sys2Proof.Machine

def Chip.modFaults (c : Chip) (f : FaultUnit → FaultUnit) : Chip := { c with faults := f c.faults }

/-- FAULT_TRAP: the Steward takes the waiting trap of the highest class (13 R345). -/
def Chip.trapTake (c : Chip) : Chip :=
  match c.nextTrap with
  | none => c.modFaults (fun f => { f with trap := none })
  | some s => (c.modSrc s (fun r => { r with trapWaits := false })).modFaults (fun f => { f with trap := some s })

/-- The minimum width of ERR_N has run (13 R349). -/
def Chip.errWidthEnd (c : Chip) : Chip :=
  if !c.faults.errWidth then c
  else
    let high := c.rd 0x9000 2 == 0 || c.faults.errRelease
    c.modFaults (fun f => { f with errWidth := false, errRelease := false, errLow := f.errLow && !high })

/-- ERR_RELEASE (13 R349). -/
def Chip.errReleaseAsk (c : Chip) : Chip :=
  if c.faults.errWidth then c.modFaults (fun f => { f with errRelease := true })
  else c.modFaults (fun f => { f with errLow := false })

/-- ERR_MODE is written: once the minimum width has run, ERR_N is high in mode 0 (13 R349, DEDUCED, log 79). -/
def Chip.errModePut (c : Chip) (v : Nat) : Chip :=
  c.iff (v == 0 && !c.faults.errWidth) (fun c => c.modFaults (fun f => { f with errLow := false }))

/-- RELEASE of the capture (13 R348). -/
def Chip.captureRelease (c : Chip) : Chip := ((c.wrb 0x9010 1 15 false).wr 0x9010 7 0).wrf 0x9010 8 1 0 0

/-- CLEAR_ALL (13 R353). -/
def Chip.clearAll (c : Chip) : Chip := c.each 128 (fun s c => c.lower s)

/-- FORCE may be written (13 R354). -/
def Chip.forceOpen (c : Chip) : Bool := [1, 2, 4].contains c.phase || c.lifecycle == 0

/-- The force of a source ends: its pair follows its condition again (13 R354). -/
def Chip.unforce (c : Chip) (s : Nat) : Chip :=
  let was := c.rd (0x9100 + s) 4
  let c := c.wr (0x9100 + s) 4 0
  if was = 2 then c.restorePair s
  else if was = 1 && !(c.src s).cond then c.drop s else c

/-- The raising of an engine's source declares the engine failed (13 R343), unless its pair is isolated or broken. -/
def Chip.engineRaised (c : Chip) (s : Nat) : Chip :=
  c.iff (decide (104 ≤ s) && decide (s < 120) && c.srcDriven s && !(c.src s).broken) (fun c => c.engineFailed (s - 104))

/-- FORCE is written (13 R354): an event source asserts once, a condition source for as long as the value stands. -/
def Chip.forcePut (c : Chip) (s v : Nat) : Chip :=
  let c := if c.rd (0x9100 + s) 4 = v then c else c.unforce s
  match v with
  | 1 => ((c.iff (srcCond s) (fun c => c.wr (0x9100 + s) 4 1)).raiseWith s 0 0 none true).engineRaised s
  | 2 => (c.wr (0x9100 + s) 4 2).breakPair s true true
  | _ => c

/-- Every force ends: at a chip reset, at any start, and at entry to SERVICE (13 R352, R354). -/
def Chip.unforceAll (c : Chip) : Chip := c.each 128 (fun s c => c.iff (c.rd (0x9100 + s) 4 != 0) (fun c => c.unforce s))

/-- A reaction mask that a source of a class and domain may not have (13 R344). -/
def maskBad (cls : Nat) (mast : Bool) (v : Nat) : Bool :=
  (mast && bit 2 v) || (cls == 1 && bit 1 v) || (cls == 3 && !bit 3 v && !bit 1 v)

/-- A write to the collector breaks a rule on its value (13 R344, R354). -/
def Chip.faultRel (_c : Chip) (idx sub v : Nat) : Bool :=
  if 0x9100 ≤ idx ∧ idx < 0x9180 then
    let s := idx - 0x9100
    (sub == 3 && maskBad (srcClass s) (srcDom s == .mast) v) || (sub == 4 && s == 0 && v == 2)
  else idx == 0x9000 && ((sub == 5 && bit 1 v) || (sub == 6 && !bit 3 v && !bit 1 v))

/-- A write to the collector is not allowed now (13 R353, R354). -/
def Chip.faultState (c : Chip) (idx sub v : Nat) : Bool :=
  decide (0x9100 ≤ idx) && decide (idx < 0x9180) &&
    ((sub == 2 && v == 1 && (c.src (idx - 0x9100)).live) || (sub == 4 && !c.forceOpen))

/-- What a write to the collector does. -/
def Chip.faultPut (c : Chip) (idx sub v : Nat) : Option Chip :=
  if 0x9100 ≤ idx ∧ idx < 0x9180 then
    match sub with
    | 2 => some (if v = 1 then c.lower (idx - 0x9100) else c)
    | 4 => some (c.forcePut (idx - 0x9100) v)
    | _ => none
  else if idx = 0x9000 ∧ sub = 2 then some ((c.wr idx sub v).errModePut v)
  else if idx = 0x9000 ∧ sub = 3 then some (if v = 1 then c.errReleaseAsk else c)
  else if idx = 0x9000 ∧ sub = 7 then some (if v = 1 then c.clearAll else c)
  else if idx = 0x9010 ∧ sub = 9 then some (if v = 1 then c.captureRelease else c)
  else none

/-- The source whose condition or event a domain reports asserts outside the device's own rules (13 R343): an engine fault also
fails its engine. -/
def Chip.assertion (c : Chip) (s inst detail : Nat) (access : Option Access) : Chip :=
  (c.raiseWith s inst detail access false).engineRaised s

end Sys2Proof.Machine
end

