-- ==== Sys2Proof/Machine/Startup.lean ====
section
/-!
DEFINITION. Sys2Proof/Machine/Startup.lean: MAST power, the starts of the Steward and their steps, the operating phases,
firmware loads, engines returning to service, the self-tests (17), and what the LO's presence changes (02 R65, 01 R36).
-/

namespace Sys2Proof.Machine

/-! ### MAST power (17 R407, 19 R436) -/

/-- MAST without content: the NV array, the fuses and the levels of supplies and pins are what remains. -/
def Chip.mastBlank (c : Chip) (on : Bool) : Chip :=
  let n := chipReset c.grade
  let n := { n with
    free := c.free
    nv := { n.nv with cells := c.nv.cells }
    sec := { n.sec with draws := c.sec.draws }
    start := { n.start with powered := on, rstLow := c.start.rstLow }
    power := { n.power with pfPin := c.power.pfPin } }
  n.wr 0xA001 2 (c.rd 0xA001 2)

/-- The start is marked: cause, count, time (17 0x1030). -/
def Chip.startMark (c : Chip) (cause : Nat) : Chip :=
  (((c.wr 0x1030 1 0).wr 0x1030 2 cause).inc 0x1030 5).wr 0x1030 4 c.now |>.modStart (fun u => { u with startedAt := c.time.mono })

/-- MAST_POWER_UP: MAST starts from reset, and the time counter from 0. -/
def Chip.mastPowerUp (c : Chip) : Chip := (c.mastBlank true).startMark 0

/-- MAST_RESET: VDD_MAST is below the reset threshold; the program in progress is torn (11 R285). -/
def Chip.mastReset (c : Chip) (groupsDone : Nat) : Chip := (c.nvFail groupsDone).mastBlank false

/-! ### The starts that keep MAST (17 R407, R408, 13 R352, 12 R457) -/

/-- RWN values written take effect at the next chip reset (12 R311); so do staged and RWD values, nothing running on them. -/
def Chip.mergeStaged (c : Chip) : Chip :=
  { c.staged.foldl (fun c x => c.wr (x.1 / 256) (x.1 % 256) x.2) c with staged := [] }

/-- The TPP state of every requester is cleared (12 R457); what open reads had removed and not returned is lost (12 R320). -/
def Chip.tppClear (c : Chip) : Chip :=
  (c.incBy 0x1101 7 (c.tpp.transfers.filter Transfer.loses).length).modTpp (fun t => { t with
    inbox := [], outbox := [], waiting := none, stalled := [], kept := [], transfers := [], overrun := false, framing := false, ready := false,
    hostOut := [] })

/-- What a chip reset leaves of an object of a switched domain (12 R311, 17 R407, log 19): what is stored or fixed, the status that
chapters hold in MAST, the unlocks of the measurement clock and the plug counts. -/
def keptAtReset (idx sub : Nat) (r : Row) : Bool :=
  r.dom == .mast || r.acc.stored || r.acc == .const || (r.acc == .ro && heldInMast idx sub) || (idx == 0x2100 && sub == 4) ||
    (decide (0x2040 ≤ idx) && decide (idx < 0x205C) && (sub == 6 || sub == 7))

/-- Every other object of a switched domain goes back to its reset value. -/
def Chip.resetObjects (c : Chip) : Chip :=
  let keep (p : Nat × Nat) : Bool :=
    match rowOf (p.1 / 256) (p.1 % 256) with
    | some r => keptAtReset (p.1 / 256) (p.1 % 256) r
    | none => true
  let c := { c with objs := c.objs.filter keep }
  { c with chans := c.chans.map (fun (k : Chan) => { k with hostTempValid := false, trumpTaken := false }) }

/-- A start with a cause other than MAST power-up: every switched domain is reset, and the Steward restarts. -/
def Chip.startReset (c : Chip) (cause : Nat) : Chip :=
  let c := stopOrder.foldl (fun c d => c.iff (c.dom d != .asleep) (fun c => c.domStop d true)) c
  let c := c.each 16 (fun e c => c.setEng e 0)
  let c := (c.wr 0xE000 1 0xFF).wrb 0xE000 2 0 false
  let c := c.modSess (fun u => { u with bounds := [] })
  let c := c.modPower (fun w => { w with
    wakes := [], planned := [], moving := none, nextTarget := none, downTo := none, downReady := false, abandoned := [],
    resetDoms := [], held := false })
  let c := c.modFaults (fun f => { f with trap := none, srcs := f.srcs.map (fun (r : Src) => { r with trapWaits := false }) })
  let c := (((c.wr 0xA000 1 0).wrf 0xA001 1 1 0 0).wrb 0xA001 1 7 false).wrb 0xE001 5 0 false
  let c := (c.resetObjects.unforceAll.tppClear.mergeStaged).modSec (fun s => { s with drained := 0 })
  let c := c.modStart (fun u => { (default : StartUnit) with
    rstLow := u.rstLow, powered := u.powered, storeOff := u.storeOff, loSince := u.loSince, fails := List.replicate 16 [] })
  let c := c.modNv (fun n => { n with queue := [], storing := none, sealing := false })
  c.startMark cause

/-- RST_N falls (17 R408). -/
def Chip.rstFall (c : Chip) : Chip :=
  if c.start.rstLow then c else (c.startReset 1).modStart (fun u => { u with rstLow := true })

/-- CHIP_RESET: the chip reset asked for by a fault takes effect (13 R352). -/
def Chip.faultReset (c : Chip) : Chip :=
  if !c.faults.chipReset then c else (c.modFaults (fun f => { f with chipReset := false })).startReset 2

/-! ### Step 5: the parameter store (17 R410, R412, 11 R290) -/

/-- Every stored subindex back at its default; the peer table is held elsewhere (12 R311). -/
def Chip.storedDefaults (c : Chip) : Chip :=
  let keep (p : Nat × Nat) : Bool :=
    match rowOf (p.1 / 256) (p.1 % 256) with
    | some r => !r.acc.stored || (decide (0x1110 ≤ p.1 / 256) && decide (p.1 / 256 < 0x1130))
    | none => true
  { c with objs := c.objs.filter keep, staged := c.staged.filter keep }

/-- The record in use applied. -/
def Chip.storeApply (c : Chip) : Chip :=
  let r := c.twoSlot (storeSlot 0) (storeSlot 1) 0x5053 32768
  let c := (c.recordConflict r.2).storedDefaults
  match r.1 with
  | none => c.wr 0x8010 3 0
  | some (slot, seq, p) =>
    let c := (storeParse p.length p).foldl (fun c x =>
      match rowOf (x.1 / 256) (x.1 % 256) with
      | some w => c.iff w.acc.stored (fun c => c.wr (x.1 / 256) (x.1 % 256) x.2)
      | none => c) c
    ((c.wr 0x8010 1 slot).wr 0x8010 2 seq).wr 0x8010 3 0

/-- INPUT_MODE of the valid parameter record; 0 where there is none (18 R428). -/
def Chip.storedLoMode (c : Chip) : Nat :=
  match (c.twoSlot (storeSlot 0) (storeSlot 1) 0x5053 32768).1 with
  | none => 0
  | some (_, _, p) => ((storeParse p.length p).find? (fun x => x.1 == okey 0x4000 2)).elim 0 (·.2)

/-- SAFE_START as latched. -/
def Chip.safeStart (c : Chip) : Bool := c.rdb 0x1030 3 2

/-- The parameter store is applied at step 5 of every start, unless MAST holds values written since the record was taken: those are the
values last written, which take effect (11 R291, 12 R311, log 19). -/
def Chip.storeServes (c : Chip) : Bool := c.rd 0x1030 2 == 0 || c.start.storeOff || !c.rdb 0x8010 3 0

/-- Step 5 of R410: values in place, TPP served. -/
def Chip.initStep (c : Chip) : Chip :=
  let c := if c.safeStart then (c.storedDefaults.wr 0x8010 3 0).modStart (fun u => { u with storeOff := true })
    else (c.iff c.storeServes Chip.storeApply).modStart (fun u => { u with storeOff := false })
  let c := c.each c.grade.chans (fun ch c => c.tcFollow ch false)
  let c := c.each c.grade.chans (fun g c => c.planStart g)
  let c := c.ttusStart.cacheLoad.handRestart
  ((c.modTpp (fun t => { t with ready := true })).wr 0x1030 1 1).modStart (fun u => { u with stage := 2 })

/-! ### Steps 1 to 4 (17 R409, R410, R415, R423) -/

/-- Step 2: the patch in use is checked; `k`: the device with its keys and stored values, against which it is judged. -/
def Chip.patchStep (c k : Chip) : Chip :=
  let r := c.twoSlot 0x16000 0x1A000 0x5350 16384
  let c := c.recordConflict r.2
  match r.1 with
  | none => c.wr 0xE001 0x0A 0xFF
  | some (slot, _, p) =>
    let x := k.imageResult true p
    (c.imageShow true x.1 x.2).wr 0xE001 0x0A (if x.1 = 1 then slot else 0xFF)

/-- POWER_UP is the first card of a start (11 R295). -/
def Chip.powerUpCard (c : Chip) : Chip :=
  let cause := c.rd 0x1030 2
  let c := c.post 0x01 ((cause == 0).toNat * 2 ^ 23 + cause * 2 ^ 16)
  match c.nv.cards.getLast? with
  | some k => c.modNv (fun n => { n with cards := k :: n.cards.dropLast })
  | none => c

/-- STEWARD_START: steps 2 to 4, the straps, then FACTORY, or step 5 once RST_N is high. -/
def Chip.stewardStart (c : Chip) (straps testMode : Nat) : Chip :=
  if c.start.stage ≠ 0 || !c.start.powered then c
  else
    let power := c.rd 0x1030 2 == 0
    let k := (c.secStart power).iff power Chip.storeApply
    let c := (c.patchStep k).secStart power
    let c := c.ringScan.powerUpCard
    let c := c.iff power Chip.markerLoad
    let factory := c.lifecycle == 0 && testMode != 0
    let c := c.wr 0x1030 3 ((c.lifecycle != 0 && testMode != 0).toNat * 32 + testMode % 4 * 8 + straps % 8)
    let c := c.modStart (fun u => { u with stage := 1, loMode := if c.safeStart then 0 else c.storedLoMode })
    if factory then (c.modTpp (fun t => { t with ready := true })).wr 0x1030 1 5
    else if c.start.rstLow then c else c.initStep

/-- RST_N rises: start-up continues from the INIT step (17 R408). -/
def Chip.rstRise (c : Chip) : Chip :=
  if !c.start.rstLow then c
  else
    let c := c.modStart (fun u => { u with rstLow := false })
    if c.start.stage = 1 && c.phase = 0 then c.initStep else c

/-! ### Step 7: the power-on self-test (17 table "Power-on self-test") -/

/-- A monitor is untrusted: it declares loss of lock at once (17 R421). -/
def Chip.distrust (c : Chip) (m : Monitor) : Chip :=
  if c.start.untrusted.contains m then c
  else
    let c := c.modStart (fun u => { u with untrusted := m :: u.untrusted })
    match m with
    | .syspll => (c.iff c.syspllLocked Chip.syspllLoss).raise 58 0 0
    | .mclk => if c.mclk then c.mclkLoss else c.raise 32 0 0
    | .apll => if c.apllLocked then c.apllLoss else c.raise 59 0 0
    | .group g =>
      let c := c.iff (c.gState g == 2 || c.gState g == 3) (fun c =>
        (c.modGrp g (fun x => { x with good := 0 })).setGroup g 4 1)
      if (c.src (64 + g)).pennant then c else c.raise (64 + g) g 0

/-- The rings' reservations as (object, subindex, lowest bit, value). -/
def Chip.reservations (c : Chip) : List (Nat × Nat × Nat × Nat) :=
  (List.range c.grade.ports).flatMap (fun p =>
    (List.range 5).map (fun k => (0x5110 + p, k + 1, 50, c.rxReserve p k)) ++
    (List.range 3).map (fun k => (0x5118 + p, k + 1, 18, c.txReserve p k)))

/-- The largest reservation gives up a cell (17 R419). -/
def Chip.reserveCut (c : Chip) : Chip :=
  let big := c.reservations.foldl (fun (a : Nat × Nat × Nat × Nat) x => if a.2.2.2 < x.2.2.2 then x else a) (0, 0, 0, 0)
  if big.2.2.2 = 0 then c else c.wrf big.1 big.2.1 (big.2.2.1 + 13) big.2.2.1 (big.2.2.2 - 1)

/-- A packet-buffer cell fails its march and is withdrawn (17 R419). -/
def Chip.withdraw (c : Chip) (cell : Nat) : Chip :=
  if c.start.withdrawn.contains cell then c
  else
    let c := c.modStart (fun u => { u with withdrawn := cell :: u.withdrawn })
    let c := c.iff (decide (12288 < c.reserved + c.start.withdrawn.length)) Chip.reserveCut
    let c := (c.wr 0xD001 0x13 c.start.withdrawn.length).showPool
    c.raiseWith 97 0 0 (some ⟨0x10, 1, 0x40800000 + 256 * cell⟩) false

/-- A pair's rails are found equal; which level they hold is not stated (log 35). -/
def Chip.pairFails (c : Chip) (s : Nat) : Chip :=
  let r := c.draw
  r.2.breakPair s (r.1 % 2 == 1) false

/-- A lock monitor by its position. -/
def monitorOf (i : Nat) : Monitor :=
  match i with
  | 0 => .syspll
  | 1 => .mclk
  | 2 => .apll
  | n => .group (Fin.ofNat 8 (n - 3))

/-- POST_COMPLETE: the results of the self-test, then step 8 begins (17 R410, R412). Masks name what failed. -/
def Chip.postComplete (c : Chip) (cells : Nat) (planFail : Bool) (engines lanes rails monitors : Nat) : Chip :=
  if c.phase ≠ 2 || c.start.stage ≠ 3 then c
  else
    let es := bitsSet c.grade.engines engines
    let ls := (bitsSet 24 lanes).filter c.grade.hasLane
    let rs := (bitsSet 128 rails).filter (srcPresent c.grade)
    let ms := bitsSet (3 + c.grade.chans) monitors
    let ws := bitsSet 12288 cells
    let c := c.overAll ws (fun x c => c.withdraw x)
    let c := c.overAll es (fun e c =>
      ((c.assertSrc (104 + e) e 4 none false).setEng e 3).modStart (fun u => { u with
        fails := modNth u.fails e (fun l => c.time.mono :: l) }))
    let c := c.overAll ls (fun l c => (c.wrb (0x2130 + l) 1 1 true).raise 33 l 0)
    let c := c.overAll rs (fun s c => c.pairFails s)
    let c := c.overAll ms (fun m c => c.distrust (monitorOf m))
    let map := (!ws.isEmpty || planFail).toNat + (!es.isEmpty).toNat * 2 + (!ls.isEmpty).toNat * 4 + (!rs.isEmpty).toNat * 8 +
      (!ms.isEmpty).toNat * 16
    let bad := decide (64 < ws.length) || planFail || decide (c.grade.engines < es.length + 2)
    let c := (c.wr 0xD001 1 (if map = 0 then 1 else 2)).wr 0xD001 2 map
    let c := c.modStart (fun u => { u with stage := 4, postFailed := bad })
    let c := c.iff (bad || c.safeStart) (fun c => c.wr 0x1030 1 4)
    let c := c.each c.grade.chans (fun ch c => c.tcFollow ch true)
    c.loadBegin.modStart (fun u => { u with imageBad := true })

/-! ### Firmware (17 R412–R414, 15 R388) -/

/-- Step 8 ends: STARTUP_MS (17 R410). -/
def Chip.startupEnd (c : Chip) : Chip :=
  if c.rd 0x1030 7 = 0 || c.phase = 2 then c.wr 0x1030 7 ((c.time.mono - c.start.startedAt) / nsUnit / 1000000 % 2 ^ 32) else c

/-- A load has failed: RECOVERY at step 8; engines that were to return fail (17 R412, R416). -/
def Chip.loadFails (c : Chip) : Chip :=
  let c := c.startupEnd.modStart (fun u => { u with loading := false, imageBad := true })
  let c := c.each c.grade.engines (fun e c => c.iff (c.engState e == 5) (fun c =>
    (c.setEng e 3).modStart (fun u => { u with retryWait := e :: u.retryWait.filter (· != e) })))
  c.iff (c.phase == 2) (fun c => c.wr 0x1030 1 4)

/-- The image of a load: from the flash with its header, or as pushed; none when the header is wrong (17 R413). -/
def Chip.loadImage (c : Chip) (flash : List Nat) : Option (List Nat) :=
  if c.rdb 0x1030 3 0 then some c.start.pushed
  else
    let n := beN flash 4 4
    if flash.take 4 = [0x49, 0x4C, 0x46, 0x57] ∧ n ≤ 524448 ∧ n ≤ flash.length - 8 then some ((flash.drop 8).take n) else none

/-- IMAGE_CHECK_COMPLETE (15 R387, R388). -/
def Chip.imageCheck (c : Chip) (patch : Bool) (image : List Nat) : Chip :=
  if patch then
    let x := c.imageResult true image
    c.imageShow true x.1 x.2
  else if !(c.start.loading || c.rdb 0xE001 5 0) then c
  else
    let x := match c.loadImage image with
      | some b => c.imageResult false b
      | none => (2, 0)
    let c := c.imageShow false x.1 x.2
    if x.1 ≠ 1 then c.loadFails
    else (c.iff (!c.start.loading) Chip.loadBegin).modStart (fun u => { u with imageBad := false })

/-- FIRMWARE_LOAD_COMPLETE: every engine loaded (17 R414, R416). -/
def Chip.loadComplete (c : Chip) (us : Nat) : Chip :=
  if !c.start.loading || c.start.imageBad then c
  else
    let c := ((c.wr 0xE001 8 (us % 2 ^ 32)).wrb 0xE001 5 0 false).startupEnd
    let back := (List.range c.grade.engines).filter (fun e => c.engState e == 5)
    c.modStart (fun u => { u with loading := false, enginesUp := true, backLoaded := back })

/-- FIRMWARE_LOAD_TIMEOUT (17 R414). -/
def Chip.loadTimeout (c : Chip) (us : Nat) : Chip :=
  if !c.start.loading then c
  else
    let c := ((c.wr 0xE001 8 (us % 2 ^ 32)).inc 0xE001 7).raise 20 0 0
    c.loadFails

/-! ### The phases, followed (17 R410–R412) -/

/-- Engines that work or are spare. -/
def Chip.enginesIn (c : Chip) : Nat :=
  ((List.range c.grade.engines).filter (fun e => c.engState e == 1 || c.engState e == 2)).length

/-- Step 6 has ended: every domain the state wants is awake, or its wake was given up. -/
def Chip.wokenUp (c : Chip) : Bool :=
  switched.all (fun d => !c.domWanted d || c.awake d || c.power.abandoned.contains d || !c.grade.hasDom d)

/-- The start-up follows its conditions: step 6 waits for the LO, step 7 for the wakes, step 9 for the engines. -/
def Chip.startWatch (c : Chip) : Chip :=
  let c := if c.start.stage = 2 && c.loPresent then
      let c := c.modStart (fun u => { u with stage := 3 })
      (c.iff (c.failing && !c.rdb 0xA001 1 6) (fun c => c.pfEnter (c.rd 0xA000 2))).wakeWanted
    else c
  let c := if c.start.stage = 3 && c.phase = 1 && c.powerState = 0 && c.wokenUp then c.wr 0x1030 1 2 else c
  let up := c.start.enginesUp && c.awake .enga && (c.awake .engb || c.grade == .e || c.sess.bounds != [])
  let c := c.iff up Chip.enginesStart
  let c := c.iff (c.live && (List.range c.grade.engines).any (fun e => c.engState e == 5 && !c.start.backLoaded.contains e))
    Chip.loadBegin
  if up && (c.phase == 2 || c.phase == 4) && !c.safeStart && !c.start.postFailed then
    if 2 ≤ c.enginesIn then (c.wr 0x1030 1 3).unforceAll
    else c.iff (c.phase == 2) (fun c => c.wr 0x1030 1 4)
  else c

/-! ### Idle-time tests and engines in service (17 R416–R422) -/

/-- A test runs now: enabled, in SERVICE or RECOVERY (17 R417, R418). -/
def Chip.testRuns (c : Chip) (b : Nat) : Bool := c.rdb 0xD000 1 b && (c.phase == 3 || c.phase == 4)

/-- SPARE_TEST_COMPLETE: of a returning engine first, else of the spare. -/
def Chip.spareTest (c : Chip) (passed : Bool) : Chip :=
  match (List.range c.grade.engines).find? (fun e => c.engState e == 5 && c.start.backLoaded.contains e &&
      !c.start.backReady.contains e) with
  | some e =>
    if passed then (c.testPass 0).modStart (fun u => { u with backReady := u.backReady ++ [e] })
    else ((c.testFail 0).setEng e 3).modStart (fun u => { u with
      backLoaded := u.backLoaded.filter (· != e), retryWait := e :: u.retryWait.filter (· != e) })
  | none =>
    if !c.testRuns 0 || 16 ≤ c.spare then c
    else if passed then c.testPass 0
    else (c.testFail 0).engineFault c.spare 4

/-- ENGINE_RETRY_TIMER: 60 s after a failed test. -/
def Chip.engineRetry (c : Chip) (e : Nat) : Chip :=
  if c.engState e ≠ 3 || !c.start.retryWait.contains e then c
  else
    let c := c.modStart (fun u => { u with retryWait := u.retryWait.filter (· != e) })
    if c.recentFails e < 3 ∧ !c.heldFull e then c.engineReset e else c

/-- RETRY: the bits' engines may return at the next deal. -/
def Chip.retryAsk (c : Chip) (mask : Nat) : Chip :=
  c.overAll (bitsSet 16 mask) (fun e c => c.iff (c.engState e == 3) (fun c =>
    c.modStart (fun u => { u with fails := setNth u.fails e [], retryWait := u.retryWait.filter (· != e) })))

/-- A cell of the idle-time march. -/
def Chip.marchCell (c : Chip) (cell : Nat) (failed : Bool) : Chip :=
  if !c.testRuns 1 || !c.awake .fabric || c.start.withdrawn.contains cell then c
  else if failed then (c.testFail 1).withdraw cell
  else c.iff (cell == 12287) (fun c => c.testPass 1)

/-- A pair toggled; the pass is complete with the last pair. -/
def Chip.pairToggle (c : Chip) (s : Nat) (mismatch : Bool) : Chip :=
  if !c.testRuns 4 then c
  else
    let c := if mismatch && srcPresent c.grade s && c.srcDriven s then (c.testFail 4).pairFails s else c
    c.iff (s == 127) (fun c => c.testPass 4)

/-- A lock monitor checked with an offset comparator. -/
def Chip.monitorCheck (c : Chip) (m : Monitor) (found agree : Bool) : Chip :=
  if !c.testRuns 5 then c
  else
    let again := !found && c.start.monitorMiss.contains m
    let c := c.modStart (fun u => { u with
      monitorMiss := if found then u.monitorMiss.filter (· != m) else m :: u.monitorMiss.filter (· != m) })
    let c := if found && agree then c.testPass 5 else c.testFail 5
    if again || !agree then c.distrust m else c

/-- A margin scan has completed on an idling receiver. -/
def Chip.marginScan (c : Chip) (p h v : Nat) : Chip :=
  if !c.testRuns 6 || !c.rxLpi p || c.grade.ports ≤ p then c
  else
    let c := ((c.wr (0xD008 + p) 1 (h % 65536)).wr (0xD008 + p) 2 (v % 65536)).wr (0xD008 + p) 4 c.now
    (c.wrb (0xD008 + p) 3 0 (decide (h % 65536 < c.rd 0xD000 5))).testPass 6

/-! ### The LO's presence (02 R65, R66, 01 R36, 07 R178) -/

/-- The LO is declared absent: the counter adds the detection delay and runs on the RC, candidates and models go. -/
def Chip.loAbsent (c : Chip) : Chip :=
  if c.time.lo == .absent then c
  else
    let was := c.loPresent
    let c := c.loAbsentNote
    let c := c.iff was (fun c => (c.advance (1000 * nsUnit)).clockHalt)
    let c := c.mclkStop true
    c.each c.grade.chans (fun ch c => c.loLost ch)

/-- LO_STARTUP_TIMEOUT: presence has not been declared 100 ms after the power-on reset was released. -/
def Chip.loLate (c : Chip) : Chip := if c.time.lo == .undeclared then c.loAbsent else c

/-- The LO is declared present: the first declaration after MAST power-up is neither counted nor posted. -/
def Chip.loFound (c : Chip) : Chip :=
  if c.loPresent then c
  else
    let again := c.time.lo == .absent
    let c := ((c.modTime (fun t => { t with lo := .present })).wrb 0x4000 4 1 true).drop 2
    (c.iff again (fun c => c.post 0x05 (2 ^ 23))).clockResume

/-- A measurement-clock lock window ends; at relock, candidates that are not ABSENT start again (03 R69). -/
def Chip.mclkWindowEnd (c : Chip) (count : Nat) : Chip :=
  let was := c.mclk
  let c := c.mclkWindow count
  c.iff (!was && c.mclk) (fun c =>
    let c := c.each 24 (fun n c => c.iff (c.qState n != 0) (fun c => c.goAbsent n 0x03))
    c.each 4 (fun k c => (c.modCand (24 + k) (fun x => { x with fit := [], y := none, outlierRun := 0, lastExt := none })).dropShadows
      (24 + k)))

end Sys2Proof.Machine
end

