-- ==== Sys2Proof/Machine/Hooks.lean ====
section
/-!
DEFINITION. Sys2Proof/Machine/Hooks.lean: what writes to the objects of the reference inputs, the measurement part and the
timing channels are refused for, and what they do (02, 03, 04, 05), and the write rules of every family gathered (12 R314
checks 8 to 10).
-/

namespace Sys2Proof.Machine

/-! ### Values that name absent units (00 R5, check 8) -/

/-- A mask of ports, or of engines, with a bit outside the grade. -/
def maskOutside (n v : Nat) : Bool := decide (2 ^ n ≤ v)

/-- A code of table "Auxiliary edge sources" (03). -/
def auxCode (v : Nat) : Bool :=
  decide (v ≤ 0x13) || (decide (0x20 ≤ v) && decide (v ≤ 0x37)) || v == 0x40

/-- A write names what the grade lacks. -/
def Chip.gradeBad (c : Chip) (idx sub v : Nat) : Bool :=
  let g := c.grade
  if idx = 0x1240 ∧ sub = 4 then decide (v < 16) && decide (g.refs ≤ v)
  else if 0x2160 ≤ idx ∧ idx < 0x2162 ∧ (sub = 2 ∨ sub = 3) then auxCode v && !g.hasSrc v
  else if 0x3000 ≤ idx ∧ idx < 0x3008 ∧ sub = 0x0C then decide (v < 28) && !g.hasCand v
  else if 0x3100 ≤ idx ∧ idx < 0x3108 then
    let x := field 15 8 v
    decide (x < 28) && !g.hasCand x
  else if idx = 0x1100 ∧ (sub = 1 ∨ sub = 2) then maskOutside g.ports v
  else if 0x6210 ≤ idx ∧ idx < 0x6218 ∧ (sub = 3 ∨ sub = 4) then maskOutside g.ports v
  else if 0x6220 ≤ idx ∧ idx < 0x6224 ∧ sub = 3 then maskOutside g.ports v
  else if 0x6220 ≤ idx ∧ idx < 0x6224 ∧ 9 ≤ sub ∧ sub ≤ 0x0C then decide (masterPort v < 8) && decide (g.ports ≤ masterPort v)
  else if 0x5000 ≤ idx ∧ idx < 0x5008 ∧ sub = 6 then decide (v < 8) && decide (g.chans ≤ v)
  else if idx = 0xA000 ∧ sub = 4 then decide (v < 8) && decide (g.chans ≤ v)
  else if idx = 0xA000 ∧ sub = 5 then decide (v < 16) && decide (2 * g.chans ≤ v)
  else if (idx = 0xB100 ∧ sub = 3) ∨ (idx = 0xE000 ∧ sub = 0x14) then maskOutside g.engines v
  else c.portGrade idx sub v || c.sessGrade idx sub v

/-! ### Candidates and lanes (02, 03) -/

/-- The least and the largest NOMINAL_FREQ of a receiver mode, in mHz (02 table "Receiver modes"). -/
def modeRange : Nat → Nat × Nat
  | 1 => (1000, 1250000000000)
  | 2 => (1000000000, 1250000000000)
  | 3 => (1000, 400000000000)
  | 4 => (1000, 250000000000)
  | 5 => (1000000000, 250000000000)
  | _ => (1000, 1250000000000)

/-- NOMINAL_FREQ, MODE, HOLDOFF and PRE_DIV of a REF fit each other (02 R44, R45). -/
def refFits (freq mode holdoff div : Nat) : Bool :=
  decide ((modeRange mode).1 ≤ freq) && decide (freq ≤ (modeRange mode).2) && decide (holdoff * freq * 64 < 10000000000000) &&
    decide (1000 * div ≤ freq) && decide (freq ≤ 2000000000 * div)

/-- A write to a candidate breaks a rule on its value. -/
def Chip.candRel (c : Chip) (idx sub v : Nat) : Bool :=
  let n := idx - 0x2000
  let f := c.rd idx 2
  let m := c.refMode n
  let h := c.rd idx 4
  let d := c.rd idx 5
  isRef n &&
    (match sub with
     | 1 => v == 1 && m == 0
     | 2 => !refFits v m h d
     | 3 => !refFits f (field 5 3 v) h d
     | 4 => !refFits f m v d
     | 5 => !refFits f m h v
     | _ => false)

/-- What a write to a candidate does: :02 to :07 send it through ABSENT (02 R56). -/
def Chip.candPut (c : Chip) (idx sub v : Nat) : Option Chip :=
  if 2 ≤ sub ∧ sub ≤ 7 then some ((c.wr idx sub v).reconfigured (idx - 0x2000)) else none

/-! ### Timing channels (04, 05) -/

/-- The selection entry that names a trumped candidate. -/
def Chip.trumpEntry (c : Chip) (ch v : Nat) : Option Nat := if v < 28 then c.entryOf ch v else none

/-- A write to a channel's objects breaks a rule on its value. -/
def Chip.loopRel (c : Chip) (idx sub v : Nat) : Bool :=
  if 0x3000 ≤ idx ∧ idx < 0x3008 then
    let ch := idx - 0x3000
    match sub with
    | 4 => bit 3 v && ch != 0
    | 7 => decide (c.rd idx 0x0A ≤ v)
    | 0x0A => decide (v ≤ c.rd idx 7)
    | 0x0C => v != 0xFF && (c.trumpEntry ch v).isNone
    | _ => false
  else if 0x3100 ≤ idx ∧ idx < 0x3108 then
    let ch := idx - 0x3100
    let x := field 15 8 v
    (ch != 0 && field 6 5 v != 0) || (x != 0xFF && (List.range 28).any (fun i => i + 1 != sub && c.entryCand ch (i + 1) == x))
  else if 0x2200 ≤ idx ∧ idx < 0x2204 then
    match sub with
    | 4 => decide (v < c.rd idx 5)
    | 5 => decide (c.rd idx 4 < v)
    | _ => false
  else false

/-- A write to a channel's objects is not allowed now. -/
def Chip.loopState (c : Chip) (idx sub v : Nat) : Bool :=
  if 0x3000 ≤ idx ∧ idx < 0x3008 then
    let ch := idx - 0x3000
    match sub with
    | 0x0C =>
      match c.trumpEntry ch v with
      | some k => c.entryLocked ch k
      | none => false
    | 0x11 => v == 1 && !(c.tcState ch == 1 || c.tcState ch == 2)
    | _ => false
  else if idx = 0x2160 ∧ sub = 1 then v != 0 && c.rdf 0x2170 1 3 0 != 0
  else if idx = 0x2170 ∧ sub = 1 then field 3 0 v != 0 && c.armed 0 != 0
  else false

/-- TRUMP is written (04 R106). -/
def Chip.trumpPut (c : Chip) (ch v : Nat) : Chip :=
  if v = 0xFF then c.trumpClear ch 2
  else if c.rd (0x3000 + ch) 0x0C = v then c
  else
    let c := (c.wr (0x3000 + ch) 0x0C v).modChan ch (fun k => { k with trumpTaken := false })
    c.post 0x22 (chanDetail ch + v * 2 ^ 16)

/-- A selection entry is written (04 R104, R106–R108). -/
def Chip.entryPut (c : Chip) (ch k v : Nat) : Chip :=
  let old := c.rd (0x3100 + ch) k
  let t := c.rd (0x3000 + ch) 0x0C
  let held := t != 0xFF && field 15 8 old == t
  let moved := field 15 8 old != field 15 8 v
  let c := c.wr (0x3100 + ch) k v
  let c := c.iff moved (fun c => c.dropShadow ch k)
  if held && moved then c.trumpClear ch 4
  else if held && bit 7 v && !bit 7 old then c.trumpClear ch 3 else c

/-- What a write to the objects of 03, 04 and 05 does. -/
def Chip.loopPut (c : Chip) (idx sub v : Nat) : Option Chip :=
  if 0x3000 ≤ idx ∧ idx < 0x3008 then
    let ch := idx - 0x3000
    match sub with
    | 1 =>
      let was := c.rd idx 1
      let c := c.wr idx 1 v
      some (if v = 1 then c.iff (was != 1 && c.live) (fun c => c.tcEnable ch)
        else if was = 1 then c.tcDisable ch else c.trumpClear ch 5)
    | 0x0C => some (c.trumpPut ch v)
    | 0x11 => some (if v = 1 then c.realign ch else c)
    | _ => none
  else if 0x3100 ≤ idx ∧ idx < 0x3108 then some (c.entryPut (idx - 0x3100) sub v)
  else if 0x3020 ≤ idx ∧ idx < 0x3028 then
    let ch := idx - 0x3020
    match sub with
    | 0x13 => some (if v = 1 then c.modelReset ch else c)
    | 0x24 => some ((c.wr idx sub v).modChan ch (fun k => { k with
        hostTempValid := true, hostTempAt := c.time.mono, lastTemp := some (sext 32 v) }))
    | _ => none
  else if 0x2110 ≤ idx ∧ idx < 0x2128 ∧ sub = 1 then some ((c.wr idx 1 v).reconfigured (idx - 0x2110))
  else if 0x2160 ≤ idx ∧ idx < 0x2162 ∧ sub = 1 then some (c.tiaArm (idx - 0x2160) v)
  else if 0x2000 ≤ idx ∧ idx < 0x201C then c.candPut idx sub v
  else if idx = 0x1240 ∧ sub = 4 then some (c.todPair v)
  else none

/-! ### Start-up, NV and firmware objects (11 R291, R304, 17 R408, R416, R418) -/

/-- A write breaks a rule on its value. -/
def Chip.sysRel (c : Chip) (idx sub v : Nat) : Bool :=
  (idx == 0x1030 && sub == 6 && v != 0x00525354) || (idx == 0xD000 && sub == 1 && !bit 2 v) ||
    (idx == 0x8102 && sub == 1 && !c.ackOk v)

/-- What a write does. RESET restarts the Steward. -/
def Chip.sysPut (c : Chip) (idx sub v : Nat) : Option Chip :=
  if idx = 0x1030 ∧ sub = 6 then some (c.startReset 3)
  else if idx = 0x8102 ∧ sub = 1 then some (c.ackWrite v)
  else if idx = 0x8010 ∧ sub = 4 then some (if v = 1 then c.save else c)
  else if idx = 0xE000 ∧ sub = 0x14 then some (c.retryAsk v)
  else none

/-! ### All families -/

/-- Check 9 of R314 beyond encoding and range. -/
def Chip.valueBad (c : Chip) (idx sub v : Nat) : Bool :=
  (decide (0x2000 ≤ idx) && decide (idx < 0x201C) && c.candRel idx sub v) || c.loopRel idx sub v || c.timeRel idx sub v ||
    c.synthRel idx sub v || c.portRel idx sub v || c.planRel idx sub v || c.sessRel idx sub v || c.faultRel idx sub v ||
    c.powerRel idx sub v || c.secRel idx sub v || c.sysRel idx sub v

/-- Check 10 of R314. -/
def Chip.stateBad (c : Chip) (idx sub v : Nat) : Bool :=
  c.loopState idx sub v || c.timeState idx sub || c.synthState idx sub v || c.portState idx sub v || c.planState idx sub v ||
    c.sessState idx sub v || c.faultState idx sub v || c.powerBlocked idx sub v || c.secState idx sub v

/-- The effect of an accepted write that is not a plain store. -/
def Chip.putOwn (c : Chip) (idx sub v : Nat) : Option Chip :=
  (c.loopPut idx sub v).orElse (fun _ => (c.timePut idx sub v).orElse (fun _ => (c.synthPut idx sub v).orElse (fun _ =>
    (c.portPut idx sub v).orElse (fun _ => (c.faultPut idx sub v).orElse (fun _ => (c.powerPut idx sub v).orElse (fun _ =>
      (c.secPut idx sub v).orElse (fun _ => c.sysPut idx sub v)))))))

end Sys2Proof.Machine
end

