-- ==== Sys2Proof/Machine/Access.lean ====
section
/-!
DEFINITION. Sys2Proof/Machine/Access.lean: reads and writes of dictionary objects: which exist, how a request is judged (12 R308,
R310–R314, R316, R452, 14 R365, R366), what a read returns and what an accepted write does.
-/

namespace Sys2Proof.Machine

/-! ### Abort codes (12 table "Abort codes"); the codes of checks 8 to 10 are in Ops -/

def noObject : Nat := 0x06010001
def readOnly : Nat := 0x06020001
def writeOnly : Nat := 0x06020002
def roleErr : Nat := 0x06020003
def typeErr : Nat := 0x06030001
def lengthErr : Nat := 0x06030002
def powerErr : Nat := 0x06040002
def useSegments : Nat := 0x06050001
def sizeErr : Nat := 0x06050006
def imageInvalid : Nat := 0x06070001
def imageRefused : Nat := 0x06070002

/-! ### Which subindices exist (00 R4, 02 R41, 12 R308, R316) -/

/-- A candidate's subindex applies to its type. -/
def candSub (base n sub : Nat) : Bool :=
  if base = 0x2000 then
    if sub = 2 then !isPkt n else if (3 ≤ sub && sub ≤ 7) || sub = 9 then isRef n else if sub = 0x0E then isPkt n else true
  else if base = 0x2040 then
    if sub = 1 then !isPkt n else if sub = 2 || sub = 6 || sub = 7 then isRef n else if sub = 9 || sub = 0x0A then isPkt n else true
  else true

/-- The unit that a subindex belongs to is in the grade. No object counts as one of "the SGN objects on -E" of 00 R4: chapter 15 keeps
0xB001 readable there and gives its values without the SGN (DESIGN CHOICE, log 60). -/
def Grade.hasUnit (g : Grade) (base n sub : Nat) : Bool :=
  if [0x2000, 0x2020, 0x2040].contains base then g.hasCand n && candSub base n sub
  else if base = 0x2110 ∨ base = 0x2130 then g.hasLane n
  else if base = 0x2212 ∨ base = 0x2213 then g.hasCand (sub - 1)
  else if base = 0x3000 then decide (n < g.chans) && (n == 0 || !(sub = 0x0E || sub = 0x0F || sub = 0x10))
  else if base = 0x3030 then decide (n < g.chans) && (n == 0 || sub != 0x0A)
  else if [0x3010, 0x3020, 0x3100, 0x3110, 0x3118, 0x4010, 0x4018].contains base then decide (n < g.chans)
  else if base = 0x4100 then decide (n < 2 * g.chans)
  else if base = 0x4020 then decide (2 ≤ g.chans / 2 && (sub = 5 || sub ≤ g.chans / 2))
  else if base = 0x7011 then decide (sub ≤ 2 * g.chans)
  else if base = 0x5220 then g.ltu
  else if [0x1108, 0x5000, 0x5010, 0x5020, 0x5110, 0x5118, 0x5120, 0x5130, 0x5138, 0x5200, 0x5208, 0x5210, 0x6008, 0x6010,
      0x6018, 0x6020, 0x6108, 0x6230, 0x6300, 0x6308, 0xD008].contains base then decide (n < g.ports)
  else if base = 0x6101 ∧ 0x10 ≤ sub then decide (sub - 0x10 < g.engines)
  else if base = 0xE000 ∧ 3 ≤ sub ∧ sub ≤ 0x12 then decide (sub - 3 < g.engines)
  else if base = 0xA010 then g.hasDom .engb || sub != 2
  else if base = 0xA011 then g.hasDom .engb || sub != 4
  else if base = 0x9100 then srcPresent g n
  else true

/-- The row of a subindex other than :00 that exists in the grade. -/
def Grade.row (g : Grade) (idx sub : Nat) : Option Row :=
  if sub = 0 then none
  else
    match rowOf idx sub with
    | some r => if g.hasUnit r.base (idx - r.base) sub then some r else none
    | none => none

/-- The highest subindex an object has in the grade; none where it has none, and no object stands there (12 R308). -/
def Grade.highest (g : Grade) (idx : Nat) : Option Nat :=
  ((List.range 256).filter (fun s => (g.row idx s).isSome)).getLast?

/-- The counter objects whose :00 may be written 0 (12 R308). -/
def counterObject (idx : Nat) : Bool :=
  (decide (0x2040 ≤ idx) && decide (idx < 0x205C)) || (decide (0x5020 ≤ idx) && decide (idx < 0x5028)) ||
    (decide (0x6020 ≤ idx) && decide (idx < 0x6028)) || (decide (0x6230 ≤ idx) && decide (idx < 0x6238))

/-- The row that governs a subindex, :00 included. -/
def Grade.rule (g : Grade) (idx sub : Nat) : Option Row :=
  if sub = 0 then
    if (g.highest idx).isSome then
      some ⟨idx, 1, 0, 0, .u8, if counterObject idx then .rw else .ro, 0, false, .mast, .val 0, 255, [⟨7, 0, .zero⟩], 0, 1⟩
    else none
  else
    (g.row idx sub).map (fun r =>
      if r.base = 0x2000 ∧ sub = 2 ∧ isPref (idx - 0x2000) then { r with acc := .ro } else r)

/-! ### Requesters (12 R313) -/

/-- Who asks: the role, and whether plain over QSPI. -/
structure Asker where
  role : Nat
  plain : Bool
  deriving DecidableEq, Repr, Inhabited

/-- Outside the FACTORY lifecycle, FACTORY is treated as ADMIN. -/
def Chip.effRole (c : Chip) (r : Nat) : Nat := if c.lifecycle = 0 then r else min r 2

/-- The least role for a read; CHALLENGE may be read by a plain QSPI requester where a re-key grant can be opened (15 R391). -/
def Chip.readRole (c : Chip) (q : Asker) (idx sub : Nat) (r : Row) : Nat :=
  if idx = 0xB100 ∧ sub = 4 ∧ q.plain ∧ c.rekeyPossible then 0 else r.rd

/-- The least role for a write. In RETIRED no role is asked of a FULL request, which check 10 refuses (15 R397). -/
def Chip.writeRole (c : Chip) (q : Asker) (idx sub v : Nat) (r : Row) : Nat :=
  if idx = 0xB000 ∧ sub = 2 then if c.lifecycle = 0 then 3 else 2
  else if idx = 0xB100 ∧ sub = 2 then
    if v = 0 ∨ c.lifecycle = 3 then 1 else 2
  else if idx = 0xB100 ∧ sub = 9 ∧ q.plain ∧ c.rekeyPossible then 0
  else if q.plain ∧ c.rdb 0xB100 0x0A 0 ∧ ((0x1110 ≤ idx ∧ idx < 0x1130) ∨ idx = 0x6280) then 0
  else r.wr

/-- The power state holds the object's domain asleep and the access needs it (14 R365). -/
def Chip.outOfPower (c : Chip) (idx sub : Nat) (r : Row) (write : Bool) : Bool :=
  r.dom != .mast && c.powerState != 0 && !c.domWanted r.dom && !r.acc.stored && !(heldInMast idx sub && !write)

/-- The domain whose wake an access waits for: that of a sleeping or dozing domain, where the access needs it (12 check 6, 01 R39).
Stored configuration goes to the Steward's copy, and status held in MAST is read there. -/
def Chip.wakeFor (c : Chip) (idx sub : Nat) (r : Row) (write : Bool) : Option Dom :=
  if r.dom == .mast || r.acc.stored || c.awake r.dom || (heldInMast idx sub && !write) then none else some r.dom

/-- The wake that an access waited for has been abandoned (14 R376 item 4). -/
def Chip.gaveUp (c : Chip) (idx sub : Nat) (r : Row) (write : Bool) : Bool :=
  match c.wakeFor idx sub r write with
  | some d => c.power.abandoned.contains d
  | none => false

/-- A write by the Steward itself to an object of a sleeping domain in ACTIVE asks for its wake; its value is held in MAST until then
(log 37). -/
def Chip.accessWake (c : Chip) (r : Row) : Chip :=
  if r.dom == .mast || r.acc.stored || c.awake r.dom || c.powerState != 0 || c.start.stage < 3 then c
  else c.wakeAsk r.dom 3 none

/-! ### Values -/

/-- The value last written to a subindex (12 R312). -/
def Chip.lastWritten (c : Chip) (idx sub : Nat) : Nat := (mget (okey idx sub) c.staged).getD (c.rd idx sub)

/-- PENDING: the value read is not yet in force. -/
def Chip.isPending (c : Chip) (idx sub : Nat) : Bool := (mget (okey idx sub) c.staged).isSome

/-- The bytes of a value of a row (12 table "Types and their encodings"). -/
def Row.encode (r : Row) (v : Nat) : List Nat :=
  match r.ty with
  | .i18 => toBytes 4 (wrapInt 32 (sext 18 v))
  | .q18 => toBytes 4 (wrapInt 32 (sext 18 v))
  | _ => toBytes r.bytes v

/-- A written value breaks its type's encoding (12 R310). -/
def Ty.badBytes (t : Ty) (b : List Nat) : Bool :=
  let v := ofBytes b
  match t with
  | .bool => decide (1 < v)
  | .u18 => decide (2 ^ 18 ≤ v)
  | .teb18 => decide (2 ^ 18 ≤ v)
  | .i18 => v != wrapInt 32 (sext 18 v)
  | .q18 => v != wrapInt 32 (sext 18 v)
  | .str => b.any (fun x => decide (x < 0x20) || decide (0x7E < x))
  | _ => false

/-- A field's value is outside what it accepts. -/
def Fld.bad (f : Fld) (v : Nat) : Bool :=
  let x := field f.hi f.lo v
  match f.chk with
  | .any => false
  | .rng a b => decide (x < a) || decide (b < x)
  | .srng a b =>
    let i := sext (f.hi + 1 - f.lo) x
    decide (i < a) || decide (b < i)
  | .zero => x != 0
  | .elems l => !l.contains x
  | .orFF a b => x != 0xFF && (decide (x < a) || decide (b < x))
  | .zeroOr a b => x != 0 && (decide (x < a) || decide (b < x))
  | .cml => decide (x < 300) || decide (900 < x) || x % 50 != 0
  | .auxSrc => !auxCode x
  | .edgeSel => (List.range 4).any (fun i => x / 4 ^ i % 4 == 0)

/-- The number a write stores: reserved bits are not written (00 R10). -/
def Row.stored (r : Row) (b : List Nat) : Nat :=
  let v := ofBytes b
  match r.ty with
  | .domain => v
  | .str => v
  | t => Nat.land (v % 2 ^ t.bits) r.mask

/-! ### What reads return -/

/-- One entry of an exported or loaded image (12 table "Image entry"). -/
def imageEntry (idx sub ty : Nat) (data : List Nat) : List Nat :=
  let b := toBytes 2 idx ++ [sub, ty, 0, 0] ++ toBytes 2 data.length ++ data
  b ++ List.replicate ((4 - b.length % 4) % 4) 0

/-- Every index that a row covers, rising. -/
def allIndices : List Nat :=
  ((List.range 0xE2).map (fun h => (h + 0x10) * 256)).flatMap (fun b =>
    if (rowsOf b).isEmpty then [] else (List.range 256).map (b + ·))

/-- IMAGE_EXPORT (12 R337). -/
def Chip.imageExport (c : Chip) : List Nat :=
  let keep (i : Nat) : Bool := !((decide (0x1110 ≤ i) && decide (i < 0x1130)) || (decide (0xB000 ≤ i) && decide (i < 0xB200)) ||
    (decide (0xD100 ≤ i) && decide (i < 0xD200)))
  let es := (allIndices.filter keep).flatMap (fun i => (List.range 256).filterMap (fun s =>
    match c.grade.rule i s with
    | some r => if r.acc.stored then some (imageEntry i s r.ty.code (r.encode (c.lastWritten i s))) else none
    | none => none))
  let body := es.flatten
  let head := [0x45, 0x55, 0x4E, 0x58, 0, 1, 0, 32] ++ toBytes 4 0x00006516 ++ [2 ^ (c.grade.code - 1), 128, 0, 0] ++
    toBytes 4 es.length ++ toBytes 4 body.length ++ toBytes 4 0 ++ toBytes 4 (c.time.seconds % 2 ^ 32)
  let b := head ++ body
  b ++ toBytes 4 (crc32 b)

/-- SOAK_REMAIN: whole seconds left of the running soak. -/
def Chip.soakRemain (c : Chip) (n : Nat) : Nat :=
  if c.qState n = 1 then c.soakLen n - (c.time.mono - (c.cand n).soakStart) / (nsUnit * 1000000000) else 0

/-- A panel's cursor, keys and last action are objects; the LED functions are computed (Panel). A source's :01. -/
def Chip.srcByte (c : Chip) (s : Nat) : Nat :=
  let r := c.src s
  r.live.toNat * 128 + r.pennant.toNat * 64 + r.broken.toNat * 32 + (srcCond s).toNat * 4 + srcClass s

/-- LO_TIME_NS with the running period. -/
def Chip.loTimeNow (c : Chip) : Nat :=
  c.rd 0x4008 7 + (if c.onLo then (c.time.mono - c.start.loSince) / nsUnit else 0)

/-- RX_TRIM, TX_TRIM and OUT_TRIM in force (12 R453). -/
def Chip.portTrim (c : Chip) (p : Nat) (tx : Bool) : Nat :=
  wrapInt 32 ((if tx then Config.txTrim else Config.rxTrim) p (c.rateOf p) (c.fecOf p))

/-- PAUSE_REMAIN in ns (08 R224). -/
def Chip.pauseRemain (c : Chip) (p : Nat) : Nat :=
  match (c.port p).pauseEnd with
  | some t => ceilDiv (t - c.time.mono) nsUnit
  | none => 0

/-- The numeric value a read of a subindex returns. -/
def Chip.viewNum (c : Chip) (idx sub : Nat) : Nat :=
  let base := idx / 256
  let plain := c.lastWritten idx sub
  match base with
  | 0x10 =>
    if idx = 0x1010 ∧ sub = 1 then c.grade.code else if idx = 0x1020 then c.grade.presence sub else plain
  | 0x11 => if idx = 0x1101 ∧ sub = 9 then c.tpp.transfers.length else plain
  | 0x12 =>
    if idx = 0x1200 then c.now
    else if idx = 0x1201 ∧ sub = 1 then setBit 1 plain (!c.loPresent)
    else if idx = 0x1201 ∧ sub = 2 then c.increment / nsUnit % 256
    else if idx = 0x1201 ∧ sub = 3 then c.increment % nsUnit
    else plain
  | 0x20 =>
    if idx < 0x201C ∧ sub = 2 ∧ isPref (idx - 0x2000) then (prefClock (c.rateOf (idx - 0x2010))).1
    else if 0x2020 ≤ idx ∧ idx < 0x203C then
      let n := idx - 0x2020
      if sub = 1 then setBit 3 plain (!isRef n || !c.plugUse n || (c.cand n).plugged)
      else if sub = 7 then c.soakRemain n else plain
    else plain
  | 0x21 =>
    if idx = 0x2100 ∧ sub = 2 then (if c.mclk then c.tdc.coarse % 2 ^ 32 else 0)
    else if 0x2110 ≤ idx ∧ idx < 0x2128 ∧ sub = 2 then wrapInt 18 (c.trim (idx - 0x2110))
    else if idx = 0x2170 ∧ sub = 3 then c.tdc.fifo.length
    else plain
  | 0x30 =>
    if 0x3020 ≤ idx ∧ idx < 0x3028 then
      let ch := idx - 0x3020
      if sub = 1 then setBit 7 plain (c.modelReady ch)
      else if sub = 0x0A then c.uTShown ch
      else if sub = 0x0F then (match c.temp ch with
        | some v => satInt 32 v
        | none => 0x80000000)
      else plain
    else plain
  | 0x40 =>
    if c.time.lo = .absent ∧ idx = 0x4008 ∧ sub = 2 then setBit 0 plain (bit 0 (Config.unknownLock idx))
    else if c.time.lo = .absent ∧ idx = 0x4001 ∧ sub = 2 then setBit 8 plain (bit 0 (Config.unknownLock idx))
    else if idx = 0x4008 ∧ sub = 7 then c.loTimeNow
    else if 0x4018 ≤ idx ∧ idx < 0x4020 ∧ sub = 7 then satInt 32 (c.rampNow (idx - 0x4018)).floor
    else plain
  | 0x41 => if sub = 0x0B then wrapInt 32 (Config.outTrim (idx - 0x4100) (c.format (idx - 0x4100)) (c.bankV ((idx - 0x4100) / 4)))
      else plain
  | 0x43 => if idx = 0x4301 then (nth c.synth.cache (sub - 1) default).payload else plain
  | 0x50 => if 0x5010 ≤ idx ∧ idx < 0x5018 ∧ sub = 5 then c.pauseRemain (idx - 0x5010) else plain
  | 0x51 =>
    if idx = 0x5100 then
      if sub = 2 then c.sharedCells else if sub = 3 then c.sharedFree
      else if sub = 4 then min plain c.sharedFree else if sub = 5 then c.slots else plain
    else plain
  | 0x52 => if 0x5210 ≤ idx ∧ idx < 0x5218 ∧ (sub = 3 ∨ sub = 4) then c.portTrim (idx - 0x5210) (sub == 4) else plain
  | 0x61 =>
    if idx = 0x6100 ∧ sub = 5 then c.commitPending.toNat
    else if idx = 0x6101 then
      if sub = 1 then c.sess.commits.length else if sub = 2 then c.sessionsIn 2 else if sub = 3 then c.sessionsIn 4
      else if 0x10 ≤ sub then c.engineLoad (sub - 0x10) else plain
    else plain
  | 0x62 =>
    if idx = 0x6280 then
      let i := c.rd 0x6280 1
      if sub = 3 then c.saSpp i * 256 + (c.saErased i).toNat * 2 + (c.saUsed i).toNat
      else if sub = 4 then c.saKeyId i else plain
    else plain
  | 0x70 => if 0x7008 ≤ idx ∧ idx < 0x7010 ∧ sub = 2 then c.nextEdge (idx - 0x7008) else plain
  | 0x81 => if idx = 0x8100 ∧ sub = 0x0A then min 255 c.nv.cards.length else plain
  | 0x90 =>
    if idx = 0x9000 then
      if sub = 4 then c.faults.errLow.toNat * 2 + c.faultIrq.toNat
      else if sub = 8 then c.srcBits (fun s => s.pennant) else if sub = 9 then c.srcBits (fun s => s.live) else plain
    else plain
  | 0x91 => if sub = 1 then c.srcByte (idx - 0x9100) else plain
  | 0xA0 =>
    if idx = 0xA001 ∧ sub = 3 then domMask (fun d => c.awake d)
    else if idx = 0xA001 ∧ sub = 4 then domMask (fun d => c.dozing d) else plain
  | _ => plain

/-- What a read returns, and the device after it: reads of queues and results remove what they return (12 R320). -/
def Chip.readOut (c : Chip) (idx sub : Nat) (r : Row) : List Nat × Chip :=
  if sub = 0 then ([(c.grade.highest idx).getD 0], c)
  else if idx = 0x2171 then
    let x := c.captureRead
    (toBytes 16 x.1, x.2)
  else if 0x2168 ≤ idx ∧ idx < 0x216A ∧ sub = 2 then (r.encode (c.rd idx 2), c.tiaRead (idx - 0x2168))
  else if 0x5208 ≤ idx ∧ idx < 0x5210 then
    let x := c.queueHead (idx - 0x5208)
    (toBytes 16 x.1, x.2)
  else if 0x5130 ≤ idx ∧ idx < 0x5138 then c.hostFrame (idx - 0x5130)
  else if 0x6018 ≤ idx ∧ idx < 0x6020 ∧ sub = 3 then (c.trickRead (idx - 0x6018), c)
  else if idx = 0x6100 ∧ sub = 2 then (c.hostRead, c)
  else if idx = 0x6100 ∧ sub = 3 then (c.deviceRead, c)
  else if idx = 0x8101 ∧ sub = 3 then (c.cardsRead, c)
  else if idx = 0x8022 then (c.imageExport, c)
  else if idx = 0xB100 ∧ sub = 4 then
    let x := c.challengeRead
    (toBytes 32 x.1, x.2)
  else (r.encode (c.viewNum idx sub), c)

/-- A read removes what it returns (12 R320). -/
def destructive (idx sub : Nat) : Bool :=
  idx == 0x2171 || (decide (0x5208 ≤ idx) && decide (idx < 0x5210)) || (decide (0x5130 ≤ idx) && decide (idx < 0x5138)) ||
    (decide (0x2168 ≤ idx) && decide (idx < 0x216A) && sub == 2)

/-! ### Judging (12 R314) -/

/-- The code with which a read is refused, if any: checks 3 to 6, the size limit when `whole`, and check 10. -/
def Chip.readRefusal (c : Chip) (q : Asker) (idx sub : Nat) (whole : Bool) : Option Nat :=
  match c.grade.rule idx sub with
  | none => some noObject
  | some r =>
    if r.acc == .wo then some writeOnly
    else if c.effRole q.role < c.readRole q idx sub r then some roleErr
    else if c.outOfPower idx sub r false || c.gaveUp idx sub r false then some powerErr
    else if whole && (r.ty == .domain || r.ty == .str) && decide (256 < (c.readOut idx sub r).1.length) then some useSegments
    else if idx == 0xB100 && sub == 4 && c.sec.lockout then some stateErr
    else none

/-- The type and length of a write to a row (12 R310); a value of varying length may have any up to its maximum. -/
def Row.formErr (r : Row) (ty n : Nat) : Option Nat :=
  if ty ≠ r.ty.code then some typeErr
  else if r.var then (if r.len < n then some lengthErr else none)
  else if n ≠ r.bytes then some lengthErr else none

/-- A write's value breaks the rules of the objects that take bytes of varying length (08 R216, 09 R236, 17 R415). -/
def Chip.bytesBad (c : Chip) (idx sub : Nat) (d : List Nat) : Bool :=
  if 0x6010 ≤ idx ∧ idx < 0x6018 ∧ sub = 2 then
    d.length % 16 != 0 || decide (16384 < c.rd idx 1 + d.length / 16)
  else if 0x5138 ≤ idx ∧ idx < 0x5140 then (txDescOf d 2).isNone
  else false

/-- A FULL request, or its response, away from ACTIVE (15 table "Legend", W2). -/
def Chip.fullAway (c : Chip) (idx sub v : Nat) : Bool :=
  idx == 0xB100 && ((sub == 2 && v == 2) || sub == 5) && c.powerState != 0

/-- Checks 3 to 7: existence, access kind, role, power, size, type and length. -/
def Chip.writeForm (c : Chip) (q : Asker) (idx sub ty : Nat) (d : List Nat) (whole : Bool) : Except Nat Row :=
  match c.grade.rule idx sub with
  | none => .error noObject
  | some r =>
    let v := ofBytes d
    if r.acc == .const || r.acc == .ro then .error readOnly
    else if c.effRole q.role < c.writeRole q idx sub v r then .error roleErr
    else if c.outOfPower idx sub r true || c.gaveUp idx sub r true || c.fullAway idx sub v then .error powerErr
    else if whole && decide (256 < d.length) then .error useSegments
    else
      match r.formErr ty d.length with
      | some e => .error e
      | none => .ok r

/-- Checks 8 to 9 on a row's value: the grade, then encoding, range and reserved codes; rules on other values when `rel`. -/
def Chip.valueErr (c : Chip) (r : Row) (idx sub : Nat) (d : List Nat) (rel : Bool) : Option Nat :=
  if r.var then (if c.bytesBad idx sub d then some rangeErr else none)
  else
    let v := r.stored d
    if c.gradeBad idx sub v then some gradeErr
    else if r.ty.badBytes d || r.flds.any (fun f => f.bad v) then some rangeErr
    else if rel && c.valueBad idx sub v then some rangeErr
    else none

/-! ### Writing -/

/-- What comes of a write: taken; refused with a code and INFO; taken with a response that waits; taken with no response. -/
inductive Wrote where
  | done (c : Chip)
  | refused (code info : Nat) (c : Chip)
  | waits (c : Chip)
  | gone (c : Chip)

/-- A stored value has changed: DIRTY and the hold-off (11 R291). -/
def Chip.dirtied (c : Chip) : Chip :=
  (c.wr 0x8010 3 1).modNv (fun n => { n with
    lastStoredWrite := c.time.mono, storedAfter := n.storedAfter || n.storing.isSome })

/-- The value is stored as its access kind says (12 R311, R312). -/
def Chip.plainPut (c : Chip) (r : Row) (idx sub v : Nat) : Chip :=
  match r.acc with
  | .rwd | .rwn =>
    let k := okey idx sub
    { c with staged := if v = c.rd idx sub ∧ !c.hand.rwd.any (fun x => x.1 == k) then mdel k c.staged else mset k v c.staged }
  | .wo => c
  | _ => c.wr idx sub v

/-- The counters of an object cleared by a write of 0 to :00 (02 R60, 08 R232, 09 R253, 10 R282). -/
def Chip.countersClear (c : Chip) (idx : Nat) : Chip :=
  { c with objs := c.objs.filter (fun p => !(p.1 / 256 == idx &&
      !(decide (0x6020 ≤ idx) && decide (idx < 0x6028) && p.1 % 256 == 0x20))) }

/-- The effect of an accepted write of a number. -/
def Chip.putNum (c : Chip) (r : Row) (idx sub v : Nat) : Chip :=
  if sub = 0 then c.countersClear idx
  else
    let old := c.lastWritten idx sub
    let c' := (c.putOwn idx sub v).getD (c.plainPut r idx sub v)
    c'.iff (r.acc.stored && !(decide (0x1110 ≤ idx) && decide (idx < 0x1130)) && old != c'.lastWritten idx sub) Chip.dirtied

/-- A Steward patch is checked, then stored in the idle slot (17 R415). An image that no slot can hold is out of range (log 38). -/
def Chip.patchWrite (c : Chip) (d : List Nat) : Wrote :=
  let x := c.imageResult true d
  let c := c.imageShow true x.1 x.2
  if x.1 ≠ 1 ∨ 16384 < recordSize d.length then .refused rangeErr 0 c
  else
    let next : Nat × Nat := match (c.twoSlot 0x16000 0x1A000 0x5350 16384).1 with
      | some (0, s, _) => (0x1A000, (s + 1) % 2 ^ 32)
      | some (_, s, _) => (0x16000, (s + 1) % 2 ^ 32)
      | none => (0x16000, 1)
    .done (c.recordWrite 2 next.1 0x5350 next.2 d)

/-- A write of bytes of varying length, accepted up to check 9. -/
def Chip.putBytes (c : Chip) (idx sub : Nat) (d : List Nat) : Wrote :=
  if 0x6010 ≤ idx ∧ idx < 0x6018 then
    if c.stateBad idx sub 0 then .refused stateErr 0 c else .done (c.trickWrite (idx - 0x6010) d)
  else if 0x5138 ≤ idx ∧ idx < 0x5140 then
    match c.hostTx (idx - 0x5138) d with
    | some c' => .done c'
    | none => .refused stateErr 0 c
  else if idx = 0xE001 ∧ sub = 4 then
    if c.rdb 0xE001 5 0 then .done (c.modStart (fun u => { u with pushed := d })) else .refused stateErr 0 c
  else if idx = 0xE001 ∧ sub = 9 then c.patchWrite d
  else .refused noObject 0 c

/-- An answer with a side effect: a code, or none. -/
def wroteOf (x : Option Nat × Chip) : Wrote :=
  match x.1 with
  | some e => .refused e 0 x.2
  | none => .done x.2

/-- A write that has passed checks 3 to 9: check 10 and the effect. `ask`: whose response waits for records. -/
def Chip.putValue (c : Chip) (ask : Option (Envelope × Call)) (r : Row) (idx sub : Nat) (d : List Nat) : Wrote :=
  if r.var then c.putBytes idx sub d
  else
    let v := r.stored d
    if 0x6008 ≤ idx ∧ idx < 0x6010 ∧ sub = 4 then wroteOf (c.swapAt (idx - 0x6008) v)
    else if idx = 0x6100 ∧ sub = 2 then .done (c.windowWrite d)
    else if idx = 0x6100 ∧ sub = 4 then
      if v = 0 then .done c
      else
        match c.commitErr (c.rd 0x6100 1) c.sess.window with
        | some e => .refused e 0 c
        | none => .done c.commit
    else if idx = 0xB100 ∧ sub = 5 then wroteOf (c.debugResponse v)
    else if idx = 0xB100 ∧ sub = 9 then wroteOf (c.rekeyResponse v)
    else if c.stateBad idx sub v then .refused stateErr 0 c
    else if secDefers idx sub v then .waits (c.secAsk ask idx sub v)
    else if idx = 0x1030 ∧ sub = 6 then .gone (c.putNum r idx sub v)
    else .done (c.putNum r idx sub v)

/-- A write of anything but an Eunuex image (12 R314, R315). -/
def Chip.writeObject (c : Chip) (q : Asker) (ask : Option (Envelope × Call)) (idx sub ty : Nat) (d : List Nat) (whole : Bool) : Wrote :=
  match c.writeForm q idx sub ty d whole with
  | .error e => .refused e 0 c
  | .ok r =>
    match c.valueErr r idx sub d true with
    | some e => .refused e 0 c
    | none => (c.accessWake r).putValue ask r idx sub d

end Sys2Proof.Machine
end

