-- ==== Sys2Proof/Machine/Image.lean ====
section
/-!
DEFINITION. Sys2Proof/Machine/Image.lean: the Eunuex image: its layout and checks, and a load (12 R335, R336).
-/

namespace Sys2Proof.Machine

/-! ### Layout (12 R335) -/

/-- An entry of an image. -/
structure ImgEntry where
  idx : Nat
  sub : Nat
  ty : Nat
  check : Bool
  required : Bool
  data : List Nat
  deriving DecidableEq, Repr

/-- The entries of a body; none where they do not fill it exactly, or a reserved field or a pad is not zero. -/
def imgEntries : Nat → List Nat → Option (List ImgEntry)
  | 0, b => if b.isEmpty then some [] else none
  | fuel + 1, b =>
    if b.isEmpty then some []
    else
      let n := be16 b 6
      let size := ceilDiv (8 + n) 4 * 4
      let pad := (b.take size).drop (8 + n)
      if b.length < size ∨ byteAt b 4 % 64 ≠ 0 ∨ byteAt b 5 ≠ 0 ∨ pad.any (· != 0) then none
      else
        match imgEntries fuel (b.drop size) with
        | some l => some (⟨be16 b 0, byteAt b 2, byteAt b 3, bit 7 (byteAt b 4), bit 6 (byteAt b 4), (b.drop 8).take n⟩ :: l)
        | none => none

/-- The body of an image. -/
def imgBody (b : List Nat) : List Nat := (b.drop 32).take (b.length - 36)

/-- Check 2: MAGIC, FORMAT, HEADER_LENGTH and reserved bits. -/
def imgHeaderOk (b : List Nat) : Bool :=
  b.take 4 == [0x45, 0x55, 0x4E, 0x58] && be16 b 4 == 1 && be16 b 6 == 32 && byteAt b 12 / 8 == 0 && byteAt b 13 % 64 == 0 &&
    be16 b 14 == 0

/-- The first image check that fails, or the entries (12 table "Image checks"). -/
def imageForm (g : Grade) (b : List Nat) : Except Nat (List ImgEntry) :=
  if b.length < 36 ∨ b.length ≠ 36 + beN b 20 4 then .error 1
  else if !imgHeaderOk b then .error 2
  else if crc32 (b.take (b.length - 4)) ≠ beN b (b.length - 4) 4 then .error 3
  else if beN b 8 4 ≠ 0x6516 then .error 4
  else if !bit (g.code - 1) (byteAt b 12) then .error 5
  else
    match imgEntries b.length (imgBody b) with
    | some l => if l.length = beN b 16 4 then .ok l else .error 6
    | none => .error 6

/-! ### The report -/

/-- What a load has counted so far, and the entries that stand, numbered. -/
structure ImgRun where
  skipped : Nat
  refused : Nat
  mismatch : Nat
  firstBad : Nat
  /-- The abort code of that first refused entry. -/
  firstCode : Nat
  /-- The lowest REQUIRED entry that was refused. -/
  stop : Option Nat
  stands : List (Nat × ImgEntry)
  deriving DecidableEq, Repr

/-- Nothing judged yet. -/
def ImgRun.start : ImgRun := ⟨0, 0, 0, 0xFFFFFFFF, 0, none, []⟩

/-- An entry is refused with a code. -/
def ImgRun.refuse (r : ImgRun) (n : Nat) (e : ImgEntry) (code : Nat) : ImgRun :=
  { r with refused := r.refused + 1
           firstBad := min r.firstBad n
           firstCode := if n < r.firstBad then code else r.firstCode
           stop := if e.required then some (match r.stop with
             | some m => min m n
             | none => n) else r.stop }

/-- The report is filled. -/
def Chip.imageReport (c : Chip) (status id applied : Nat) (r : ImgRun) : Chip :=
  (((((((c.wr 0x8021 1 status).wr 0x8021 2 id).wr 0x8021 3 applied).wr 0x8021 4 r.skipped).wr 0x8021 5 r.refused).wr 0x8021 6
    r.mismatch).wr 0x8021 7 r.firstBad).wr 0x8021 8 r.firstCode

/-! ### Step 2: validation -/

/-- An entry names an object that only this grade lacks (00 R4, R6). -/
def Chip.entryAbsent (c : Chip) (e : ImgEntry) : Bool :=
  (c.grade.rule e.idx e.sub).isNone && (Grade.rule .f e.idx e.sub).isSome

/-- An entry that would write an object of kind WO. -/
def Chip.entryWo (c : Chip) (e : ImgEntry) : Bool :=
  !e.check && (match c.grade.rule e.idx e.sub with
    | some r => r.acc == .wo
    | none => false)

/-- The code with which checks 3 to 9 refuse an entry, if any, rules that relate two values apart. -/
def Chip.entryRefused (c : Chip) (q : Asker) (e : ImgEntry) : Option Nat :=
  if e.check then c.readRefusal q e.idx e.sub false
  else if c.entryWo e then some writeOnly
  else
    match c.writeForm q e.idx e.sub e.ty e.data false with
    | .error k => some k
    | .ok r => c.valueErr r e.idx e.sub e.data false

/-- The value that a CHECK entry reads. -/
def Chip.entryRead (c : Chip) (e : ImgEntry) : List Nat :=
  match c.grade.rule e.idx e.sub with
  | some r => (c.readOut e.idx e.sub r).1
  | none => []

/-- One entry judged; a REQUIRED refusal stops the pass. A CHECK entry that differs is counted and is no refusal (DEDUCED, log 78). -/
def Chip.entryJudge (c : Chip) (q : Asker) (r : ImgRun) (n : Nat) (e : ImgEntry) : ImgRun :=
  if r.stop.isSome then r
  else if c.entryAbsent e then { r with skipped := r.skipped + 1 }
  else
    match c.entryRefused q e with
    | some k => r.refuse n e k
    | none =>
      if e.check then (if c.entryRead e == e.data then r else { r with mismatch := r.mismatch + 1 })
      else { r with stands := r.stands ++ [(n, e)] }

/-- The validation pass. -/
def Chip.imageValidate (c : Chip) (q : Asker) (es : List ImgEntry) : ImgRun :=
  ((List.range es.length).zip es).foldl (fun r x => c.entryJudge q r x.1 x.2) ImgRun.start

/-! ### Step 3: rules that relate two values, on the shadow; then check 10 and the effect -/

/-- The shadow: every entry that stands stored, without its effects. -/
def Chip.imageShadow (c : Chip) (l : List (Nat × ImgEntry)) : Chip :=
  l.foldl (fun c x =>
    match c.grade.rule x.2.idx x.2.sub with
    | some r => if r.var || x.2.sub = 0 then c else c.plainPut r x.2.idx x.2.sub (r.stored x.2.data)
    | none => c) c

/-- An entry breaks a rule against the shadow. -/
def Chip.entryClash (sh : Chip) (e : ImgEntry) : Bool :=
  match sh.grade.rule e.idx e.sub with
  | some r => !r.var && sh.valueBad e.idx e.sub (r.stored e.data)
  | none => false

/-- Entries of broken pairs are refused until none is left. -/
def Chip.imageRelate (c : Chip) : Nat → ImgRun → ImgRun
  | 0, r => r
  | fuel + 1, r =>
    let sh := c.imageShadow r.stands
    let bad := r.stands.filter (fun x => sh.entryClash x.2)
    if bad.isEmpty then r
    else
      let r' := bad.foldl (fun r x => r.refuse x.1 x.2 rangeErr) r
      c.imageRelate fuel { r' with stands := r.stands.filter (fun x => !sh.entryClash x.2) }

/-- One entry applied to the device as every earlier entry leaves it. -/
def entryApply (x : Chip × ImgRun × Nat) (n : Nat) (e : ImgEntry) : Chip × ImgRun × Nat :=
  let (c, r, k) := x
  match c.grade.rule e.idx e.sub with
  | none => (c, r.refuse n e noObject, k)
  | some row =>
    match (c.accessWake row).putValue none row e.idx e.sub e.data with
    | .done c => (c, r, k + 1)
    | .waits c => (c, r, k + 1)
    | .gone c => (c, r, k + 1)
    | .refused code _ _ => (c, r.refuse n e code, k)

/-- Step 4: the store write, the card and the report. -/
def Chip.imageClose (c : Chip) (b : List Nat) (applied : Nat) (r : ImgRun) : Chip :=
  let only := bit 6 (byteAt b 13)
  let c := c.iff (bit 7 (byteAt b 13)) Chip.save
  let c := c.post 0x71 (min applied (2 ^ 24 - 1))
  c.imageReport (if only then 2 else if r.refused = 0 then 1 else 5) (beN b 24 4) applied r

/-- IMAGE_LOAD (12 R336). -/
def Chip.imageLoad (c : Chip) (q : Asker) (b : List Nat) : Wrote :=
  match imageForm c.grade b with
  | .error k => .refused imageInvalid k (c.imageReport 3 (beN b 24 4) 0 ImgRun.start)
  | .ok es =>
    let r := c.imageValidate q es
    let stopped (n : Nat) (r : ImgRun) : Wrote := .refused imageRefused n (c.imageReport 4 (beN b 24 4) 0 r)
    match r.stop with
    | some n => stopped n r
    | none =>
      if bit 6 (byteAt b 13) then .done (c.imageClose b 0 r)
      else
        let r := c.imageRelate (es.length + 1) r
        let (c', r, k) := r.stands.foldl (fun x y => entryApply x y.1 y.2) (c, r, 0)
        match r.stop with
        | some n => stopped n r
        | none => .done (c'.imageClose b k r)

/-- A write of any object, by whole value (12 R314, R315, R336). -/
def Chip.writeAny (c : Chip) (q : Asker) (ask : Option (Envelope × Call)) (idx sub ty : Nat) (d : List Nat) (whole : Bool) :
    Wrote :=
  if idx = 0x8020 ∧ sub = 1 then
    match c.writeForm q idx sub ty d whole with
    | .error e => .refused e 0 c
    | .ok _ => c.imageLoad q d
  else c.writeObject q ask idx sub ty d whole

end Sys2Proof.Machine
end

