-- ==== Sys2Proof/Machine/Tpp.lean ====
section
/-!
DEFINITION. Sys2Proof/Machine/Tpp.lean: the Tircel Parameter Protocol: authentication, the service of a request, segmented
transfers, responses, and the QSPI and network transports (12 R317–R334, R457).
-/

namespace Sys2Proof.Machine

/-! ### Requesters and refusals (12 R321–R324) -/

/-- The requester of an envelope. -/
def askedOf (q : Envelope) : Asked :=
  let id := q.auth.map (fun (a : Auth) => a.peer)
  match q.src with
  | .qspi => ⟨0, 0, 0, id⟩
  | .eth p mac _ => ⟨1, p.val, mac, id⟩
  | .udp p _ _ v6 addr _ => ⟨2, p.val, v6.toNat * 2 ^ 128 + addr % 2 ^ 128, id⟩

/-- INDEX, SUB and TOKEN of a request body, as far as it has them. -/
def bodyNames (opcode : Nat) (b : List Nat) : List Nat :=
  let idx := if [0x01, 0x02, 0x04, 0x06, 0x0F].contains opcode && decide (3 ≤ b.length) then b.take 3 else [0, 0, 0]
  let tok := if opcode = 0x05 ∨ opcode = 0x07 then byteAt b 0 else if opcode = 0x0F then byteAt b 3 else 0
  idx ++ [tok]

/-- Body of an ABORT. -/
def abortBody (opcode : Nat) (b : List Nat) (code info : Nat) : List Nat := bodyNames opcode b ++ toBytes 4 code ++ toBytes 4 info

def malformedCode : Nat := 0x05010001
def versionCode : Nat := 0x05010002
def opcodeCode : Nat := 0x05010003
def busyCode : Nat := 0x05010004
def tooLarge : Nat := 0x05010005
def unknownTransfer : Nat := 0x06050002
def outOfOrder : Nat := 0x06050003
def tooMany : Nat := 0x06050004
def byRequester : Nat := 0x06050007
def seqOutside : Nat := 0x06060001

/-- Code of a refusal by check 1. -/
def Malformed.code : Malformed → Nat
  | .malformed => malformedCode
  | .version => versionCode
  | .opcode => opcodeCode

/-! ### Authentication (12 R326–R330) -/

/-- What check 2 answers: silence, a refusal to a known peer, or the request's role. -/
inductive Admit where
  | drop (c : Chip)
  | refuse (n code info : Nat) (c : Chip)
  | pass (n : Option Nat) (a : Asker) (c : Chip)
  deriving DecidableEq, Repr

/-- The entry in use that holds a PEER_ID. -/
def Chip.peerOf (c : Chip) (id : Nat) : Option Nat :=
  (List.range 32).find? (fun n => c.peerUsed n && c.peerId n == id && id != 0)

/-- Bit of TRANSPORTS. -/
def transportBit : Transport → Nat
  | .qspi => 6
  | .eth .. => 5
  | .udp .. => 4

/-- Role of a request without authentication (12 R329). -/
def Chip.plainRole (c : Chip) (t : Transport) : Option Nat :=
  let early := c.lifecycle == 0 || c.lifecycle == 1
  match t with
  | .qspi =>
    let r := c.rd 0x1100 4
    if r = 0xFF then none else some (if early then r else min r 1)
  | _ => if early && c.rd 0x1100 5 == 0 then some 0 else none

/-- Time for one authenticated request (12 R330). -/
def Chip.authTime (c : Chip) : Nat := nsUnit * (if c.grade.sgn then 50000 else 500000)

/-- Authenticated requests that would be ahead of one that arrives now. -/
def Chip.authAhead (c : Chip) : Nat := ceilDiv (c.tpp.busyTill - c.time.mono) c.authTime

/-- A SEQ is accepted: the window moves (12 R327), and a multiple of 65,536 may be crossed (12 R328). -/
def Chip.seqTake (c : Chip) (n seq : Nat) : Chip :=
  let h := c.rd (0x1110 + n) 4
  if h < seq then
    let c := c.modPeer n (fun p => { p with
      window := (p.window * 2 ^ (min 64 (seq - h)) + 1) % 2 ^ 64, rxDue := p.rxDue || h / 65536 != seq / 65536 })
    c.wr (0x1110 + n) 4 seq
  else c.modPeer n (fun p => { p with window := setBit (h - seq) p.window true })

/-- A SEQ may be accepted. -/
def Chip.seqOk (c : Chip) (n seq : Nat) : Bool :=
  let h := c.rd (0x1110 + n) 4
  seq != 0 && h != 2 ^ 32 - 1 && (decide (h < seq) || (decide (h < seq + 64) && !bit (h - seq) (c.peer n).window))

/-- Check 2 (12 R326, R327, R329, R330). -/
def Chip.entryCheck (c : Chip) (q : Envelope) (call : Call) : Admit :=
  match q.auth with
  | none =>
    match c.plainRole q.src with
    | some r => .pass none ⟨r, q.src == .qspi⟩ c
    | none => .drop (c.inc 0x1101 5)
  | some a =>
    match c.peerOf a.peer with
    | none => .drop (c.inc 0x1101 4)
    | some n =>
      let msg := pduHead (callOpcode call) q.tid (some (a.peer, a.seq)) (callBody call)
      if c.peerErased n || !c.rdb (0x1110 + n) 1 (transportBit q.src) || tagOf (c.peerKey n) msg != a.tag then .drop (c.inc 0x1101 4)
      else if (c.peer n).txEnded then .drop (c.inc (0x1110 + n) 6)
      else if 16 < c.authAhead then .refuse n busyCode 0 (c.inc 0x1101 6)
      else
        let c := c.modTpp (fun t => { t with busyTill := max t.busyTill c.time.mono + c.authTime })
        if c.seqOk n a.seq then .pass (some n) ⟨c.rdf (0x1110 + n) 1 1 0, false⟩ (c.seqTake n a.seq)
        else .refuse n seqOutside (c.rd (0x1110 + n) 4) (c.inc (0x1110 + n) 6)

/-! ### Responses (12 R326, R331, R333) -/

/-- A response's bytes, and the device with the peer's TX_SEQ advanced. -/
def Chip.compose (c : Chip) (n : Option Nat) (tid opcode : Nat) (body : List Nat) : List Nat × Chip :=
  match n with
  | none => (pduHead opcode tid none body, c)
  | some n =>
    let old := c.rd (0x1110 + n) 5
    let seq := min (old + 1) (2 ^ 32 - 1)
    let b := pduHead opcode tid (some (c.peerId n, seq)) body
    let c := c.modPeer n (fun p => { p with
      txEnded := p.txEnded || seq == 2 ^ 32 - 1, txDue := p.txDue || old / 65536 != seq / 65536 })
    (b ++ toBytes 16 (tagOf (c.peerKey n) b), c.wr (0x1110 + n) 5 seq)

/-- The frame that carries a response to a network requester (12 R331). -/
def Chip.tppFrame (c : Chip) (p mac : Nat) (vlan : Option Nat) (pdu : List Nat) (udp : Option (Bool × Nat × Nat)) : TxDesc :=
  let tag := match vlan with
    | some t => [0x81, 0] ++ toBytes 2 t
    | none => []
  let head := toBytes 6 mac ++ toBytes 6 (c.rd (0x5000 + p) 4) ++ tag
  let o := head.length + 2
  let (b, l4, flags) : List Nat × Nat × Nat :=
    match udp with
    | none => (head ++ [0x88, 0xB5] ++ pdu, 0, 128)
    | some (v6, addr, port) =>
      let seg := toBytes 2 (c.rd 0x1100 3) ++ toBytes 2 port ++ toBytes 2 (pdu.length + 8) ++ [0, 0] ++ pdu
      if v6 then
        (head ++ [0x86, 0xDD] ++ toBytes 4 (6 * 2 ^ 28 + Config.ipClass % 256 * 2 ^ 20) ++ toBytes 2 seg.length ++
          [17, Config.ipTtl % 256] ++ toBytes 16 (c.rd (0x1108 + p) 2) ++ toBytes 16 addr ++ seg, o + 40, 160)
      else
        (head ++ [0x08, 0x00, 0x45, Config.ipClass % 256] ++ toBytes 2 (seg.length + 20) ++ [0, 0, 0, 0] ++
          [Config.ipTtl % 256, 17, 0, 0] ++ toBytes 4 (c.rd (0x1108 + p) 1) ++ toBytes 4 addr ++ seg, o + 20, 224)
  { bytes := b ++ List.replicate (60 - b.length) 0, flags := flags, prio := (vlan.getD 0) / 8192 % 8, tsId := 0,
    l3 := if l4 = 0 then 0 else o, l4 := l4, ptp := 0, trailer := 0, teb := 0, time := 0, trick := none, ring := 1,
    tebTx := 0, cells := [] }

/-- A composed response leaves: to the outbox, or as a best-effort frame. -/
def Chip.sendAnswer (c : Chip) (t : Transport) (b : List Nat) : Chip :=
  match t with
  | .qspi => c.modTpp (fun x => { x with outbox := x.outbox ++ [b] })
  | .eth p mac v => c.sendBest p (c.tppFrame p mac v b none)
  | .udp p mac v v6 addr port => c.sendBest p (c.tppFrame p mac v b (some (v6, addr, port)))

/-- A response to a request; its entry signs it. -/
def Chip.respond (c : Chip) (q : Envelope) (n : Option Nat) (opcode : Nat) (body : List Nat) : Chip :=
  let x := c.compose n q.tid opcode body
  x.2.sendAnswer q.src x.1

/-- A response that is kept for a repeat (12 R321): the last four of each requester. -/
def Chip.respondKeep (c : Chip) (q : Envelope) (n : Option Nat) (opcode : Nat) (body : List Nat) : Chip :=
  let who := askedOf q
  let c := c.modTpp (fun t => { t with
    kept := ((t.kept.filter (fun r => r.who == who)).drop ((t.kept.filter (fun r => r.who == who)).length - 3)) ++
      [⟨who, q.tid, opcode, body, c.time.mono⟩] ++ t.kept.filter (fun r => r.who != who) })
  c.respond q n opcode body

/-- The kept response of a repeated request, while it is kept: 2 s. -/
def Chip.keptFor (c : Chip) (q : Envelope) : Option Resp :=
  c.tpp.kept.find? (fun r => r.who == askedOf q && r.tid == q.tid && decide (c.time.mono < r.since + 2000000000 * nsUnit))

/-! ### Transfers (12 R319, R320) -/

/-- The open transfer of a token and a requester. -/
def Chip.transferOf (c : Chip) (who : Asked) (token : Nat) (write : Bool) : Option Transfer :=
  c.tpp.transfers.find? (fun t => t.token == token && t.who == who && t.write == write)

/-- A transfer closes; a destructive read not returned whole is lost. -/
def Chip.transferClose (c : Chip) (token : Nat) : Chip :=
  let lost := c.tpp.transfers.any (fun t => t.token == token && t.loses)
  (c.iff lost (fun c => c.inc 0x1101 7)).modTpp (fun t => { t with transfers := t.transfers.filter (fun x => x.token != token) })

/-- A transfer with changed contents. -/
def Chip.transferPut (c : Chip) (t : Transfer) : Chip :=
  c.modTpp (fun x => { x with transfers := x.transfers.map (fun y => if y.token == t.token then t else y) })

/-- A requester may open no further transfer. -/
def Chip.transfersFull (c : Chip) (who : Asked) : Bool :=
  decide (16 ≤ c.tpp.transfers.length) || decide (4 ≤ (c.tpp.transfers.filter (fun t => t.who == who)).length)

/-- The next token that is not open, from a starting one. -/
def freeToken (open_ : List Nat) : Nat → Nat → Nat
  | 0, t => t
  | fuel + 1, t => if open_.contains t then freeToken open_ fuel (t % 255 + 1) else t

/-- A transfer opens; the token and the device. -/
def Chip.transferOpen (c : Chip) (t : Transfer) : Nat × Chip :=
  let tok := freeToken (c.tpp.transfers.map (fun x => x.token)) 17 (c.tpp.token % 255 + 1)
  (tok, c.modTpp (fun x => { x with token := tok, transfers := x.transfers ++ [{ t with token := tok }] }))

/-! ### Execution (12 R314–R322) -/

/-- What a request yields: a response, a refusal, a response that waits for records, or none. -/
inductive Reply where
  | say (opcode : Nat) (body : List Nat) (c : Chip)
  | no (code info : Nat) (c : Chip)
  | later (c : Chip)
  | silent (c : Chip)

/-- A subindex's type code. -/
def Chip.typeOf (c : Chip) (idx sub : Nat) : Nat :=
  match c.grade.rule idx sub with
  | some r => r.ty.code
  | none => 0

/-- A read that is not refused: its bytes, and the device after it. -/
def Chip.readNow (c : Chip) (idx sub : Nat) : List Nat × Chip :=
  match c.grade.rule idx sub with
  | some r => c.readOut idx sub r
  | none => ([], c)

/-- INDEX, SUB, TYPE, ATTR and the reserved byte of a read answer. -/
def Chip.readHead (c : Chip) (idx sub : Nat) : List Nat :=
  toBytes 2 idx ++ [sub, c.typeOf idx sub, (c.isPending idx sub).toNat * 128, 0]

/-- READ. -/
def Chip.doRead (c : Chip) (a : Asker) (idx sub : Nat) : Reply :=
  match c.readRefusal a idx sub true with
  | some e => .no e 0 c
  | none =>
    let x := c.readNow idx sub
    .say 0x81 (c.readHead idx sub ++ toBytes 2 x.1.length ++ x.1) x.2

/-- One item of a MULTI_READ. -/
def Chip.readItem (c : Chip) (a : Asker) (idx sub : Nat) : List Nat × Chip :=
  match c.readRefusal a idx sub false with
  | some e => (toBytes 2 idx ++ [sub, 0, 1, 0] ++ toBytes 4 e, c)
  | none =>
    let x := c.readNow idx sub
    (c.readHead idx sub ++ toBytes 2 x.1.length ++ x.1, x.2)

/-- The items of a MULTI_READ in order. -/
def Chip.readItems (c : Chip) (a : Asker) : List (Nat × Nat) → List Nat × Chip
  | [] => ([], c)
  | p :: t =>
    let x := c.readItem a p.1 p.2
    let y := x.2.readItems a t
    (x.1 ++ y.1, y.2)

/-- What a write's outcome answers to its request. -/
def Wrote.reply (w : Wrote) (opcode : Nat) (body : List Nat) : Reply :=
  match w with
  | .done c => .say opcode body c
  | .refused e i c => .no e i c
  | .waits c => .later c
  | .gone c => .silent c

/-- The response of a write that takes effect. -/
def writeSaid : Call → Nat × List Nat
  | .segWriteNext t _ g _ => (0x87, [t, 0] ++ toBytes 2 g)
  | .write i s _ _ => (0x82, toBytes 2 i ++ [s, 0])
  | _ => (0x82, [0, 0, 0, 0])

/-- SEG_READ_INIT: the snapshot is taken. -/
def Chip.segReadInit (c : Chip) (a : Asker) (who : Asked) (idx sub : Nat) : Reply :=
  match c.readRefusal a idx sub false with
  | some e => .no e 0 c
  | none =>
    if c.transfersFull who then .no tooMany 0 c
    else
      let x := c.readNow idx sub
      let y := x.2.transferOpen ⟨0, who, false, idx, sub, c.typeOf idx sub, x.1.length, x.1, 0, 0, 0, destructive idx sub⟩
      .say 0x84 (toBytes 2 idx ++ [sub, y.1] ++ toBytes 4 x.1.length) y.2

/-- SEG_READ_NEXT. -/
def Chip.segReadNext (c : Chip) (who : Asked) (token seg maxLen : Nat) : Reply :=
  match c.transferOf who token false with
  | none => .no unknownTransfer 0 c
  | some t =>
    let again := t.next != 0 && seg + 1 == t.next
    if !again && seg != t.next then .no outOfOrder 0 c
    else
      let a := if again then t.lastFrom else t.lastFrom + t.lastLen
      let n := if again then t.lastLen else min (min maxLen 1024) (t.data.length - a)
      let last := decide (t.data.length ≤ a + n)
      let c := c.transferPut { t with next := seg + 1, lastFrom := a, lastLen := n }
      .say 0x85 ([token, last.toNat * 128] ++ toBytes 2 seg ++ toBytes 2 n ++ (t.data.drop a).take n)
        (c.iff last (fun c => c.transferClose token))

/-- SEG_WRITE_INIT: checks 3 to 6, then TOTAL_LENGTH. -/
def Chip.segWriteInit (c : Chip) (a : Asker) (who : Asked) (idx sub ty total : Nat) : Reply :=
  match c.grade.rule idx sub with
  | none => .no noObject 0 c
  | some r =>
    if r.acc == .const || r.acc == .ro then .no readOnly 0 c
    else if c.effRole a.role < c.writeRole a idx sub 0 r then .no roleErr 0 c
    else if c.outOfPower idx sub r true || c.gaveUp idx sub r true then .no powerErr 0 c
    else if 1048576 < total ∨ (r.var ∧ r.len < total) then .no sizeErr 0 c
    else if !r.var && total != r.bytes then .no lengthErr 0 c
    else if c.transfersFull who then .no tooMany 0 c
    else
      let y := c.transferOpen ⟨0, who, true, idx, sub, ty, total, [], 0, 0, 0, false⟩
      .say 0x86 (toBytes 2 idx ++ [sub, y.1]) y.2

/-- SEG_WRITE_NEXT. -/
def Chip.segWriteNext (c : Chip) (a : Asker) (q : Envelope) (token : Nat) (last : Bool) (seg : Nat) (d : List Nat) : Reply :=
  let call := Call.segWriteNext token last seg d
  let ok := writeSaid call
  match c.transferOf (askedOf q) token true with
  | none => .no unknownTransfer 0 c
  | some t =>
    if t.next != 0 && seg + 1 == t.next then .say ok.1 ok.2 c
    else if seg ≠ t.next then .no outOfOrder 0 c
    else if 1024 < d.length then .no sizeErr 0 c
    else
      let all := t.data ++ d
      if t.total < all.length ∨ (last ∧ all.length ≠ t.total) then .no lengthErr 0 (c.transferClose token)
      else if last then
        ((c.transferClose token).writeAny a (some (q, call)) t.idx t.sub t.ty all false).reply ok.1 ok.2
      else .say ok.1 ok.2 (c.transferPut { t with data := all, next := seg + 1 })

/-- An ABORT from a requester. -/
def Chip.abortAsk (c : Chip) (who : Asked) (call : Call) (token code : Nat) : Reply :=
  if code ≠ byRequester then .silent c
  else if c.tpp.transfers.any (fun t => t.token == token && t.who == who) then .say 0x8F (callBody call) (c.transferClose token)
  else .no unknownTransfer 0 c

/-- A request that has passed checks 1 and 2 and is no repeat. -/
def Chip.execute (c : Chip) (a : Asker) (q : Envelope) (call : Call) : Reply :=
  let who := askedOf q
  match call with
  | .read i s => c.doRead a i s
  | .write i s ty d =>
    let ok := writeSaid call
    (c.writeAny a (some (q, call)) i s ty d true).reply ok.1 ok.2
  | .multiRead l =>
    let x := c.readItems a l
    let size := 8 + (if q.auth.isSome then 24 else 0) + 2 + x.1.length
    if 1400 < size then .no tooLarge 0 c else .say 0x83 ([l.length, 0] ++ x.1) x.2
  | .segReadInit i s => c.segReadInit a who i s
  | .segReadNext t g m => c.segReadNext who t g m
  | .segWriteInit i s ty n => c.segWriteInit a who i s ty n
  | .segWriteNext t l g d => c.segWriteNext a q t l g d
  | .abort _ _ t code _ => c.abortAsk who call t code

/-- The entry that signs a response to an envelope, if its key may be used. -/
def Chip.signer (c : Chip) (q : Envelope) : Option Nat := q.auth.bind (fun a => c.peerOf a.peer)

/-- The domain that a read waits for, once checks 3 to 6 have passed. -/
def Chip.readNeeds (c : Chip) (a : Asker) (idx sub : Nat) : List Dom :=
  match c.grade.rule idx sub with
  | some r =>
    if r.acc == .wo || decide (c.effRole a.role < c.readRole a idx sub r) || c.outOfPower idx sub r false then []
    else (c.wakeFor idx sub r false).toList
  | none => []

/-- The domain that a write of the number `v` waits for, once checks 3 to 6 have passed. -/
def Chip.writeNeeds (c : Chip) (a : Asker) (idx sub v : Nat) : List Dom :=
  match c.grade.rule idx sub with
  | some r =>
    if r.acc == .const || r.acc == .ro || decide (c.effRole a.role < c.writeRole a idx sub v r) || c.outOfPower idx sub r true then []
    else (c.wakeFor idx sub r true).toList
  | none => []

/-- The domains whose wake a request waits for (12 check 6). -/
def Chip.callNeeds (c : Chip) (a : Asker) (q : Envelope) : Call → List Dom
  | .read i s => c.readNeeds a i s
  | .write i s _ d => c.writeNeeds a i s (ofBytes d)
  | .multiRead l => l.flatMap (fun p => c.readNeeds a p.1 p.2)
  | .segReadInit i s => c.readNeeds a i s
  | .segWriteInit i s _ _ => c.writeNeeds a i s 0
  | .segWriteNext t true _ _ =>
    match c.transferOf (askedOf q) t true with
    | some x => c.writeNeeds a x.idx x.sub 0
    | none => []
  | _ => []

/-- A request is executed and answered; `n` signs. -/
def Chip.runCall (c : Chip) (n : Option Nat) (a : Asker) (q : Envelope) (call : Call) : Chip :=
  match c.execute a q call with
  | .say o b c => c.respondKeep q n o b
  | .no code info c => c.respondKeep q n 0x8F (abortBody (callOpcode call) (callBody call) code info)
  | .later c => c
  | .silent c => c

/-- The wakes of domains are asked for, each with those it requires, unless one waits already (14 R375). -/
def Chip.wakesAsk (c : Chip) (ds : List Dom) : Chip := ds.foldl (fun c d => c.wakeAsk d 3 none) c

/-- A request waits for wakes. -/
def Chip.stall (c : Chip) (a : Asker) (q : Envelope) (call : Call) (ds : List Dom) : Chip :=
  (c.wakesAsk ds).modTpp (fun t => { t with stalled := t.stalled ++ [⟨q, call, a.role, a.plain⟩] })

/-- A response to a request that has waited can no longer be signed: the key has been erased meanwhile. -/
def Chip.muted (c : Chip) (q : Envelope) : Bool :=
  q.auth.isSome && (match c.signer q with
    | some n => c.peerErased n
    | none => true)

/-- A waiting request goes on once its domains are awake, or their wake has been abandoned. -/
def Chip.stallServe (c : Chip) (x : Stalled) : Chip :=
  let a : Asker := ⟨x.role, x.plain⟩
  let ds := (c.callNeeds a x.ask x.call).filter (fun d => !c.power.abandoned.contains d)
  if ds.isEmpty then (if c.muted x.ask then c else c.runCall (c.signer x.ask) a x.ask x.call)
  else c.stall a x.ask x.call ds

/-- The waiting requests, in their order. -/
def Chip.stallWatch (c : Chip) : Chip :=
  c.tpp.stalled.foldl Chip.stallServe (c.modTpp (fun t => { t with stalled := [] }))

/-- A MULTI_READ whose COUNT check 1 refuses (12 R318, R324). -/
def callMiscounted : Call → Bool
  | .multiRead l => l.isEmpty || decide (32 < l.length)
  | _ => false

/-- A request is judged, executed and answered; one that needs a sleeping domain waits for its wake. -/
def Chip.serveCall (c : Chip) (q : Envelope) (call : Call) : Chip :=
  if callMiscounted call then c.respond { q with auth := none } none 0x8F (abortBody 0x03 [] malformedCode 0)
  else match c.entryCheck q call with
  | .drop c => c
  | .refuse n code info c => c.respond q (some n) 0x8F (abortBody (callOpcode call) (callBody call) code info)
  | .pass n a c =>
    let c := c.inc 0x1101 (7 - transportBit q.src)
    match c.keptFor q with
    | some r => c.respond q n r.opcode r.body
    | none => if (c.callNeeds a q call).isEmpty then c.runCall n a q call else c.stall a q call (c.callNeeds a q call)

/-- Writes whose records have ended are answered (12 R325, 15 R384). A key erased meanwhile signs nothing. -/
def Chip.answerWatch (c : Chip) : Chip :=
  let l := c.sec.answers
  let c := c.modSec (fun s => { s with answers := [] })
  l.foldl (fun c x =>
    let (q, call, ok) := x
    let n := c.signer q
    if c.muted q then c
    else if ok then c.respondKeep q n (writeSaid call).1 (writeSaid call).2
    else c.respondKeep q n 0x8F (abortBody (callOpcode call) (callBody call) stateErr 0)) c

/-- A request given as its bytes: check 1, then service. -/
def Chip.serveBytes (c : Chip) (t : Transport) (b : List Nat) : Chip :=
  match parseRequest b with
  | none => c
  | some (tid, .error m) =>
    let auth := bit 7 (byteAt b 2)
    let body := (b.drop (if auth then 16 else 8)).take (be16 b 6)
    let names := if m = .malformed then body else []
    c.respond ⟨t, none, tid⟩ none 0x8F (abortBody (byteAt b 1) names m.code 0)
  | some (tid, .ok (auth, call)) => c.serveCall ⟨t, auth, tid⟩ call

/-! ### The QSPI port (12 R332, R333) -/

/-- The Steward serves a QSPI request whose response waits, for records, for a wake or for room. -/
def Chip.qspiBusy (c : Chip) : Bool :=
  let mine (q : Envelope) : Bool := q.src == .qspi
  c.tpp.waiting.isSome || c.tpp.stalled.any (fun x => mine x.ask) || c.sec.answers.any (fun x => mine x.1) || c.sec.jobs.any (fun j => match j.ask with
    | some x => mine x.1
    | none => false)

/-- VDDIO is good: the port's pins work (14 R357). -/
def Chip.qspiUp (c : Chip) : Bool := c.rdb 0xA001 2 4

/-- A request taken for service: executed if the outbox has room, else waiting. -/
def Chip.qspiTake (c : Chip) (b : List Nat) : Chip :=
  if 4 ≤ c.tpp.outbox.length then c.modTpp (fun t => { t with waiting := some b }) else c.serveBytes .qspi b

/-- The head of the inbox is taken for service. -/
def Chip.qspiNext (c : Chip) : Chip :=
  match c.tpp.inbox with
  | [] => c
  | b :: l => if c.qspiBusy || !c.tpp.ready then c else (c.modTpp (fun t => { t with inbox := l })).qspiTake b

/-- A request enters the inbox, or sets OVERRUN. -/
def Chip.inboxPut (c : Chip) (b : List Nat) : Chip :=
  if !c.tpp.ready || 4 ≤ c.tpp.inbox.length then (c.inc 0x1101 8).modTpp (fun t => { t with overrun := true })
  else c.modTpp (fun t => { t with inbox := t.inbox ++ [b.take 1401] })

/-- WRITE_PDU. -/
def Chip.writePdu (c : Chip) (len : Nat) (b : List Nat) (midByte : Bool) : Chip :=
  if !c.qspiUp then c
  else if midByte || len != b.length then (c.inc 0x1101 8).modTpp (fun t => { t with framing := true })
  else c.inboxPut b

/-- READ_PDU: the oldest response is driven; when it is clocked out whole, it leaves and a waiting request is executed. -/
def Chip.readPdu (c : Chip) (complete : Bool) : Chip :=
  if !c.qspiUp then c
  else
    let r := c.tpp.outbox.headD []
    let c := c.modTpp (fun t => { t with hostOut := toBytes 2 r.length ++ r })
    if !complete || c.tpp.outbox.isEmpty then c
    else
      let w := c.tpp.waiting
      let c := c.modTpp (fun t => { t with outbox := t.outbox.drop 1, waiting := none })
      match w with
      | some b => c.serveBytes .qspi b
      | none => c

/-- The status byte. -/
def Chip.qspiStatus (c : Chip) : Nat :=
  (!c.tpp.outbox.isEmpty).toNat * 128 + (decide (4 ≤ c.tpp.inbox.length)).toNat * 64 + c.tpp.overrun.toNat * 32 +
    c.tpp.framing.toNat * 16 + c.faultIrq.toNat * 8 + c.tpp.ready.toNat

/-- READ_STATUS. -/
def Chip.readStatus (c : Chip) : Chip :=
  if !c.qspiUp then c else c.modTpp (fun t => { t with hostOut := [c.qspiStatus] })

/-- CLEAR_STATUS. -/
def Chip.clearStatus (c : Chip) (b : List Nat) (midByte : Bool) : Chip :=
  if !c.qspiUp then c
  else if midByte then (c.inc 0x1101 8).modTpp (fun t => { t with framing := true })
  else
    match b with
    | [m] => c.modTpp (fun t => { t with overrun := t.overrun && !bit 5 m, framing := t.framing && !bit 4 m })
    | _ => (c.inc 0x1101 8).modTpp (fun t => { t with framing := true })

/-! ### Network transports (12 R331) -/

/-- The device can serve network requests on a port: the engine with the TPP duty (10 R267), the buffer and the
Steward run. -/
def Chip.netUp (c : Chip) (p : Nat) : Bool :=
  c.tpp.ready && c.portOn p && c.awake .fabric && c.lastRuns

/-- The transport is enabled on its port. -/
def Chip.netOn (c : Chip) (t : Transport) : Bool :=
  match t with
  | .qspi => true
  | .eth p _ _ => c.rdb 0x1100 1 p.val
  | .udp p .. => c.rdb 0x1100 2 p.val

/-- The request that a received frame carries: its transport and PDU; none when it carries none for this device. -/
def Chip.netRequest (c : Chip) (p : Fin 8) (b : List Nat) : Option (Transport × List Nat) :=
  let f := frameInfo b
  let vlan := if f.tagged then some f.tci else none
  let t : Option (Transport × List Nat) :=
    if f.ethertype = 0x88B5 then
      let x := b.drop f.l3
      let n := 8 + (if bit 7 (byteAt x 2) then 24 else 0) + be16 x 6
      if f.dst = c.rd (0x5000 + p.val) 4 then some (.eth p f.src vlan, x.take n) else none
    else
      let dst := if f.ipv4 then beN b (f.l3 + 16) 4 else beN b (f.l3 + 24) 16
      let own := if f.ipv4 then c.rd (0x1108 + p.val) 1 else c.rd (0x1108 + p.val) 2
      let src := if f.ipv4 then beN b (f.l3 + 12) 4 else beN b (f.l3 + 8) 16
      if f.udp && dst == own && own != 0 then
        some (.udp p f.src vlan (!f.ipv4) src (be16 b f.l4), (b.drop (f.l4 + 8)).take (be16 b (f.l4 + 4) - 8))
      else none
  match t with
  | some x => if c.netOn x.1 then some x else none
  | none => none

/-- The oldest frame of a port's TPP ring is served. -/
def Chip.netNext (c : Chip) (p : Fin 8) : Chip :=
  if !c.netUp p.val then c
  else
    match c.rxTake p.val 3 with
    | (none, c) => c
    | (some d, c) =>
      match c.netRequest p d.bytes with
      | some (t, b) => c.serveBytes t b
      | none => c

/-! ### Requests as commands -/

/-- The frame at the head of a port's TPP ring is this request. -/
def Chip.netHead (c : Chip) (p : Fin 8) (t : Transport) (b : List Nat) : Bool :=
  match c.rxRing p.val 3 with
  | d :: _ => c.netRequest p d.bytes == some (t, b)
  | [] => false

/-- A request is served. Over QSPI it is the head of the inbox, or one that has just arrived; while another waits for its
response, it enters the inbox (log 40). -/
def Chip.ask (c : Chip) (q : Envelope) (call : Call) : Chip :=
  let b := encodeRequest q.tid q.auth call
  let net (p : Fin 8) : Chip :=
    if !c.netUp p.val || !c.netOn q.src then c
    else if c.netHead p q.src b then (c.rxTake p.val 3).2.serveCall q call else c.serveCall q call
  match q.src with
  | .qspi =>
    if c.tpp.inbox.head? == some b then c.qspiNext
    else if !c.qspiUp then c
    else if c.qspiBusy || !c.tpp.ready then c.inboxPut b
    else if 4 ≤ c.tpp.outbox.length then c.modTpp (fun t => { t with waiting := some b })
    else c.serveCall q call
  | .eth p _ _ => net p
  | .udp p .. => net p

/-- A write request. -/
def Chip.askWrite (c : Chip) (q : Envelope) (idx sub v : Nat) : Chip :=
  match c.grade.rule idx sub with
  | some r => c.ask q (.write idx sub r.ty.code (r.encode v))
  | none => c.ask q (.write idx sub 0 [])

/-- A write request of bytes. -/
def Chip.askBytes (c : Chip) (q : Envelope) (idx sub : Nat) (d : List Nat) : Chip := c.ask q (.write idx sub (c.typeOf idx sub) d)

/-- A write of LOCKOUT of a selection entry, its other fields as they are (04 R106). -/
def Chip.askLockout (c : Chip) (q : Envelope) (ch k : Nat) (set : Bool) : Chip :=
  c.askWrite q (0x3100 + ch) k (setBit 7 (c.rd (0x3100 + ch) k) set)

/-- TRANSFER_TIMEOUT. -/
def Chip.transferTimeout (c : Chip) (token : Nat) : Chip := c.transferClose token

/-- SEQUENCE_FLOOR_RECORD (12 R328). -/
def Chip.floorRecord (c : Chip) (n : Nat) (tx : Bool) : Chip :=
  let p := c.peer n
  if !(if tx then p.txDue else p.rxDue) then c
  else (c.modPeer n (fun p => if tx then { p with txDue := false } else { p with rxDue := false })).jobAdd ⟨.floors n tx, [.floors], none⟩

/-- What the Steward and the engines do by themselves: the oldest waiting request is served. -/
def Chip.serveWaiting (c : Chip) : Chip :=
  if !c.tpp.inbox.isEmpty then c.qspiNext
  else
    match (List.finRange 8).find? (fun p => !(c.rxRing p.val 3).isEmpty) with
    | some p => c.netNext p
    | none => c

end Sys2Proof.Machine
end

