-- ==== Sys2Proof/Machine/Panel.lean ====
section
/-!
DEFINITION. Sys2Proof/Machine/Panel.lean: the operator panel: keys, the cursor, what each press does, the LED functions (16).
-/

namespace Sys2Proof.Machine

def Chip.modPanel (c : Chip) (f : PanelUnit → PanelUnit) : Chip := { c with panel := f c.panel }

/-! ### The cursor (16 R401) -/

def Chip.cursorOn (c : Chip) : Bool := c.rdb 0xC002 2 15
def Chip.cursorChan (c : Chip) : Nat := c.rdf 0xC002 2 10 8
/-- Subindex of the cursor's entry; 0xFF at NONE. -/
def Chip.cursorEntry (c : Chip) : Nat := c.rdf 0xC002 2 7 0

/-- The candidate of a position; 0xFF at NONE. -/
def Chip.posCand (c : Chip) (ch k : Nat) : Nat := if k = 0xFF then 0xFF else c.entryCand ch k

/-- The cursor stands on a position; TAKE will use the candidate shown now. -/
def Chip.cursorTo (c : Chip) (ch k : Nat) : Chip :=
  (c.wr 0xC002 2 (2 ^ 15 + ch % 8 * 256 + k % 256)).modPanel (fun u => { u with shown := c.posCand ch k, lastChan := ch })

/-- The entry whose candidate is selected, or NONE. -/
def Chip.selectedPos (c : Chip) (ch : Nat) : Nat :=
  let n := c.sel ch
  if n = 0xFF then 0xFF else (c.entryOf ch n).getD 0xFF

/-- The position after one: non-empty entries in ascending order, then NONE, then the lowest again. -/
def Chip.nextPos (c : Chip) (ch k : Nat) : Nat :=
  let full := ((List.range 28).map (· + 1)).filter (fun k => c.entryCand ch k != 0xFF)
  if k = 0xFF then full.headD 0xFF else (full.find? (fun x => decide (k < x))).getD 0xFF

/-- A SELECT press. -/
def Chip.selectPress (c : Chip) (long : Bool) : Chip :=
  if !c.cursorOn then
    let ch := c.panel.lastChan
    c.cursorTo ch (c.selectedPos ch)
  else
    let ch := c.cursorChan
    if long then
      let ch := if ch + 1 < c.grade.chans then ch + 1 else 0
      c.cursorTo ch (c.selectedPos ch)
    else c.cursorTo ch (c.nextPos ch c.cursorEntry)

/-- CURSOR_LAPSE: SELECT_TIMEOUT after the last key action. -/
def Chip.cursorLapse (c : Chip) : Chip := c.wrb 0xC002 2 15 false

/-! ### Actions (16 R400–R403) -/

/-- OUTCOME of a panel write, and the device after it. A subindex above OPERATOR is written only where ALLOW lets it. -/
def Chip.panelWrite (c : Chip) (idx sub v : Nat) (allowed : Bool) : Nat × Chip :=
  let a : Asker := ⟨if allowed then 2 else 1, false⟩
  match c.grade.rule idx sub with
  | none => (2, c)
  | some r =>
    match c.writeAny a none idx sub r.ty.code (r.encode v) true with
    | .done c => (0, c)
    | .waits c => (0, c)
    | .gone c => (0, c)
    | .refused e _ c => (if e = roleErr then 1 else 2, c)

/-- TAKE. -/
def Chip.takePress (c : Chip) : Nat × Chip :=
  if !c.cursorOn || c.posCand c.cursorChan c.cursorEntry != c.panel.shown then (4, c)
  else c.panelWrite (0x3000 + c.cursorChan) 0x0C c.panel.shown false

/-- HOLD. -/
def Chip.holdPress (c : Chip) : Nat × Chip :=
  let ch := if c.cursorOn then c.cursorChan else 0
  let f := c.rd (0x3000 + ch) 0x0D
  if f = 2 then (2, c) else c.panelWrite (0x3000 + ch) 0x0D (1 - f) false

/-- LOCKOUT. -/
def Chip.lockoutPress (c : Chip) : Nat × Chip :=
  if !c.cursorOn || c.cursorEntry == 0xFF then (4, c)
  else
    let v := c.rd (0x3100 + c.cursorChan) c.cursorEntry
    c.panelWrite (0x3100 + c.cursorChan) c.cursorEntry (setBit 7 v (!bit 7 v)) (c.rdb 0xC000 6 0)

/-- A long ACK press. -/
def Chip.ackLong (c : Chip) : Nat × Chip :=
  if c.powerState = 0 then c.panelWrite 0x9000 7 1 false
  else if !c.rdb 0xA000 7 1 || c.rdb 0xA001 1 6 then (2, c)
  else (0, (c.powerPut 0xA000 1 0).getD c)

/-- What a press does under its role; none where the table says nothing. -/
def Chip.pressAct (c : Chip) (role : Nat) (long : Bool) : Option (Nat × Chip) :=
  match role, long with
  | 1, false => some (0, c.modPanel (fun u => { u with unacked := 0 }))
  | 1, true => some c.ackLong
  | 2, l => some (0, c.selectPress l)
  | 3, false => some c.takePress
  | 4, false => some c.holdPress
  | 5, false => some c.lockoutPress
  | 6, false => some (0, c.modPanel (fun u => { u with lamp := true }))
  | 7, _ => some (0, c.inc 0xC002 6)
  | _, _ => none

/-! ### Presses (16 R399, R400, R406) -/

/-- DETAIL of the card, from the cursor as the action leaves it. -/
def Chip.actionDetail (c : Chip) (k : Nat) (long : Bool) (out : Nat) : Nat :=
  let ch := if c.cursorOn then c.cursorChan else 0
  let n := if c.cursorOn && c.panel.shown != 0xFF then c.panel.shown else 31
  k % 8 * 2 ^ 21 + long.toNat * 2 ^ 20 + out % 8 * 2 ^ 17 + ch % 8 * 2 ^ 14 + n % 32 * 2 ^ 9

/-- An action done or refused is shown and carded. -/
def Chip.actionNote (c : Chip) (k : Nat) (long : Bool) (out : Nat) : Chip :=
  let d := c.actionDetail k long out
  let c := (c.wr 0xC002 3 d).inc 0xC002 (if out = 0 then 4 else 5)
  (c.modPanel (fun u => { u with acted := some (c.time.mono, out != 0) })).post 0x70 d

/-- A press of a key acts. -/
def Chip.press (c : Chip) (k : Nat) (long : Bool) : Chip :=
  match c.pressAct (c.rd 0xC001 (k + 1)) long with
  | none => c
  | some (out, c') => if c.rdb 0xC000 1 0 then c'.actionNote k long out else c.actionNote k long 3

/-- KEY_PRESS_ACCEPTED. -/
def Chip.keyDown (c : Chip) (k : Nat) : Chip :=
  if c.rdb 0xC002 1 k || !c.panelInputs then c
  else (c.wrb 0xC002 1 k true).modPanel (fun u => { u with long := setBit k u.long false })

/-- KEY_RELEASE_ACCEPTED: a press that has not acted as a long one acts as a short one. -/
def Chip.keyUp (c : Chip) (k : Nat) : Chip :=
  if !c.rdb 0xC002 1 k || !c.panelInputs then c
  else
    let long := bit k c.panel.long
    let c := (c.wrb 0xC002 1 k false).modPanel (fun u => { u with long := setBit k u.long false })
    if long then c else c.press k false

/-- LONG_PRESS. -/
def Chip.longPress (c : Chip) (k : Nat) : Chip :=
  if !c.rdb 0xC002 1 k || bit k c.panel.long then c
  else (c.modPanel (fun u => { u with long := setBit k u.long true })).press k true

/-- LAMP_TEST_END: 3 s after the press. -/
def Chip.lampEnd (c : Chip) : Chip := c.modPanel (fun u => { u with lamp := false })

/-! ### LEDs (16 R404) -/

/-- A source with a raising not acknowledged, of a class (1 CE, 2 UC, 3 FA). -/
def Chip.unackedOf (c : Chip) (cls : Nat → Bool) : Bool :=
  (List.range 128).any (fun s => bit s c.panel.unacked && cls (srcClass s))

/-- A time since an instant is below a number of seconds. -/
def Chip.within (c : Chip) (since secs : Nat) : Bool := decide (c.time.mono < since + secs * 1000000000 * nsUnit)

/-- Pattern of a candidate's state. -/
def candPattern (st : Nat) : Nat := if st = 0 then 0 else if st = 1 then 2 else if st = 2 then 1 else 3

/-- The function of an LED, as a pattern code. -/
def Chip.ledFunction (c : Chip) (i : Nat) : Nat :=
  if i = 0 then
    if c.unackedOf (fun k => decide (2 ≤ k)) then 3
    else if c.unackedOf (fun k => k == 1) then 2
    else if c.srcBits (fun s => s.pennant) != 0 then 1 else 0
  else if i = 1 then
    if c.rdb 0xA001 1 6 then 3
    else if c.rd 0xB100 1 = 2 then 5
    else if c.powerState = 0 then 1 else if c.powerState = 1 then 2 else 4
  else if i < 10 then
    let ch := i - 2
    let st := c.rd (0x3010 + ch) 1
    if c.grade.chans ≤ ch || !c.rdb (0x3000 + ch) 1 0 then 0
    else if c.cursorOn && c.cursorChan == ch then 6
    else if bit 8 st then 7
    else if bit 7 st then 5
    else
      match c.tcState ch with
      | 3 => 3
      | 1 => 2
      | 2 => 1
      | _ => 4
  else if i = 10 then
    if c.cursorOn then (if c.panel.shown = 0xFF then 4 else candPattern (c.qState c.panel.shown))
    else
      match c.panel.plug with
      | some (n, t) => if c.within t (c.rd 0xC000 8) then candPattern (c.qState n) else 0
      | none => 0
  else
    match c.panel.acted with
    | some (t, bad) => if c.within t 2 then (if bad then 5 else 4) else 0
    | none => 0

/-- Period of a pattern in ms; 0 for a steady one (16 table "Patterns"). -/
def patternPeriod (p : Nat) : Nat := nth [0, 0, 1000, 250, 1000, 1000, 1000, 0] p 0

/-- A pattern that its period has run out for is followed by the next. -/
def Led.due (l : Led) (now : Nat) : Led :=
  match l.next with
  | some (p, t) => if t ≤ now then ⟨p, t, none⟩ else l
  | none => l

/-- An LED takes a pattern: at once from a steady one, else when its present period has run to its end (16 R405; DEDUCED also where a
row above takes over, log 81). -/
def Led.follow (l : Led) (now want : Nat) : Led :=
  let l := l.due now
  let period := patternPeriod l.pattern * 1000000 * nsUnit
  let stop := if period = 0 then now else l.since + ceilDiv (now - l.since) period * period
  if l.pattern = want then { l with next := none }
  else if stop ≤ now then ⟨want, now, none⟩ else { l with next := some (want, stop) }

/-- The pattern asked of an LED: the host's where it has the LED, else its function's (16 R404). From a MAST power-up to step 5 every
LED is released (18 R426). -/
def Chip.ledWanted (c : Chip) (i : Nat) : Nat :=
  if c.start.stage < 2 && c.rd 0x1030 2 == 0 then 0
  else if c.rdb 0xC003 (i + 1) 7 then c.rdf 0xC003 (i + 1) 2 0 else c.ledFunction i

/-- The LEDs follow. -/
def Chip.ledWatch (c : Chip) : Chip :=
  c.modPanel (fun u => { u with
    leds := (List.range 12).map (fun i => (nth u.leds i default).follow c.time.mono (c.ledWanted i)) })

/-- What an LED shows: its pattern, and its brightness in %. While a lamp test runs, every LED is ON at 100 % (16 R404). -/
def Chip.led (c : Chip) (i : Nat) : Nat × Nat :=
  if c.panel.lamp then (1, 100) else (((nth c.panel.leds i default).due c.time.mono).pattern, c.rd 0xC000 7)

end Sys2Proof.Machine
end

