-- ==== Sys2Proof/Machine/Internal.lean ====
section
/-!
DEFINITION. Sys2Proof/Machine/Internal.lean: the internal address space, the masters' rights in it, debug access and the JTAG port
(01 R37–R40, 15 R393–R396). Accesses are of aligned 32-bit words (log 41).
-/

namespace Sys2Proof.Machine

/-! ### The address map (01 R37) -/

/-- What an address belongs to. -/
inductive Area where
  | rom | stewardRam | trim | security | nv | table | plans | buffer | rings
  | imem (n : Nat)
  | dmem (n : Nat)
  | block (d : Dom)
  deriving DecidableEq, Repr

/-- An address lies in a range. -/
def inRange (a lo hi : Nat) : Bool := decide (lo ≤ a) && decide (a ≤ hi)

/-- The range of an address; none where there is none, or its unit is absent. -/
def areaOf (g : Grade) (a : Nat) : Option Area :=
  if inRange a 0 0xFFFF then some .rom
  else if inRange a 0x10000 0x1FFFF then some .stewardRam
  else if inRange a 0x10000000 0x10000FFF then some .trim
  else if inRange a 0x10001000 0x10004FFF then some .security
  else if inRange a 0x10005000 0x100FFFFF then some .nv
  else if inRange a 0x40000000 0x403FFFFF then some .table
  else if inRange a 0x40400000 0x407FFFFF then some .plans
  else if inRange a 0x40800000 0x40AFFFFF then some .buffer
  else if inRange a 0x40B00000 0x40BFFFFF then some .rings
  else if inRange a 0x50000000 0x50FFFFFF then
    let n := (a - 0x50000000) / 0x100000
    let o := a % 0x100000
    if g.engines ≤ n then none
    else if o ≤ 0xFFFF then some (.imem n)
    else if inRange o 0x20000 0x3FFFF then some (.dmem n) else none
  else if inRange a 0x60000000 0x67FFFFFF then
    match (a - 0x60000000) / 0x1000000 with
    | 0 => some (.block .mast)
    | 1 => some (.block .sense)
    | 2 => some (.block .loop)
    | 3 => some (.block .enga)
    | 4 => if g.hasDom .engb then some (.block .engb) else none
    | 5 => some (.block .fabric)
    | 6 => some (.block .port)
    | _ => some (.block .synth)
  else none

/-- The domain of a range. -/
def Area.dom : Area → Dom
  | .table | .plans | .buffer | .rings => .fabric
  | .imem n => engDom n
  | .dmem n => engDom n
  | .block d => d
  | _ => .mast

def Area.fabric : Area → Bool
  | .table | .plans | .buffer | .rings => true
  | _ => false

/-! ### Rights (01 R38, R40, 15 R395) -/

/-- Rights of the debug master. In KEEP and SLEEP a session sees MAST alone (15 table "Legend", V2). -/
def Chip.debugMay (c : Chip) (k : AccessKind) (a : Area) : Bool :=
  let m := c.rd 0xB100 1
  let full := m == 2
  let rd := m != 0
  match k, a with
  | .execute, _ => false
  | .read, .security => false
  | .read, a => rd && (c.powerState == 0 || a.dom == .mast)
  | .write, .table => full
  | .write, .plans => full
  | .write, .buffer => full
  | .write, .rings => full
  | .write, .imem n => full && bit n c.sec.drained
  | .write, .dmem n => full && bit n c.sec.drained
  | .write, .block d => full && d != .mast
  | .write, _ => false

/-- A master may make an access. The Steward writes instruction memory while it loads an accepted image, and the security region in
every lifecycle state, since chapter 15 withholds it in none (DEDUCED, log 58). In FACTORY, factory test may write instruction memory
as it may every range: 01 R38 and 17 R423 are taken before R40 (DESIGN CHOICE, log 59). -/
def Chip.accessMay (c : Chip) (m : Nat) (k : AccessKind) (a : Area) : Bool :=
  let anyRange := !(a == .rom && k == .write)
  if m < 16 then
    match k, a with
    | .execute, .imem n => n == m
    | .execute, _ => false
    | _, .dmem n => n == m
    | _, .block d => d == .loop || d == .port
    | _, a => a.fabric
  else if m = 0x10 then
    match k, a with
    | .write, .imem _ => c.start.loading && !c.start.imageBad
    | _, _ => anyRange
  else if m = 0x11 ∨ m = 0x12 then false
  else if m < 0x1B then k != .execute && (a == .buffer || a == .rings)
  else if m = 0x1B then c.debugMay k a
  else anyRange && c.lifecycle == 0

/-! ### Contents -/

/-- A word of a 64-byte session entry: bytes 0 to 31 the host half, 32 to 63 the device half (10 R256). -/
def Chip.tableWord (c : Chip) (o : Nat) : Nat :=
  let s := c.session (o / 64)
  let w := o % 64 / 4
  if w < 8 then field (255 - 32 * w) (224 - 32 * w) s.host else field (511 - 32 * w) (480 - 32 * w) s.saved

/-- The same written. -/
def Chip.tablePut (c : Chip) (o v : Nat) : Chip :=
  let s := c.session (o / 64)
  let w := o % 64 / 4
  c.putSession (if w < 8 then { s with host := setField (255 - 32 * w) (224 - 32 * w) s.host v }
    else { s with saved := setField (511 - 32 * w) (480 - 32 * w) s.saved v })

/-- Port, bank, entry and word of an offset into the plans (log 41). -/
def planAt (o : Nat) : Nat × Nat × Nat × Nat := (o / 0x80000, o / 0x40000 % 2, o / 16 % 16384, o % 16 / 4)

/-- A word of the plans. -/
def Chip.planWord (c : Chip) (o : Nat) : Nat :=
  let (p, b, e, w) := planAt o
  field (127 - 32 * w) (96 - 32 * w) ((mget e (c.bank p b)).getD 0)

/-- The same written. -/
def Chip.planPut (c : Chip) (o v : Nat) : Chip :=
  let (p, b, e, w) := planAt o
  let x := setField (127 - 32 * w) (96 - 32 * w) ((mget e (c.bank p b)).getD 0) v
  c.modPort p (fun y => { y with banks := modNth y.banks b (fun l => if x = 0 then mdel e l else mset e x l) })

/-- A word of the NV array. -/
def Chip.nvWord (c : Chip) (a : Nat) : Nat := ofBytes (c.nvBytes a 4)

/-- A read of the page being programmed stalls its master until the program ends (11 R283). -/
def Chip.nvStalls (c : Chip) (k : AccessKind) (a : Nat) (r : Area) : Bool :=
  k != .write && (r == .trim || r == .security || r == .nv) && c.nv.prog.any (fun p => p.page == (a - 0x10000000) / 256)

/-- Tag of a program that no record layer follows. -/
def rawTag : Nat := 4

/-- A word of the NV array programmed. -/
def Chip.nvProgram (c : Chip) (a v : Nat) : Chip :=
  let bs := ((List.range 4).map (a % 256 + ·)).zip (toBytes 4 v)
  (c.modNv (fun n => { n with queue := n.queue ++ [⟨a / 256, bs, 1, .recBody rawTag⟩] })).nvNext false

/-- A record of the security region that holds keys (15 table "Security region"): identity, customer, peer and SA keys and the journal. -/
def keyRecord (a : Nat) : Bool := inRange a 0x10001080 0x1000117F || inRange a 0x100013C0 0x1000153F || inRange a 0x10001780 0x1000483F

/-- A plain word. -/
def Chip.ramWord (c : Chip) (a : Nat) : Nat := (mget a c.start.ram).getD 0
def Chip.ramPut (c : Chip) (a v : Nat) : Chip :=
  c.modStart (fun u => { u with ram := if v = 0 then mdel a u.ram else mset a v u.ram })

/-- The word read, and the device with any free value drawn. ROM and block control hold what the specification does not give
(log 15). -/
def Chip.busWord (c : Chip) (a : Nat) : Area → Nat × Chip
  | .rom | .block _ =>
    let x := c.draw
    (x.1 % 2 ^ 32, x.2)
  | .trim | .security | .nv => (c.nvWord (a - 0x10000000), c)
  | .table => (c.tableWord (a - 0x40000000), c)
  | .plans => (c.planWord (a - 0x40400000), c)
  | _ => (c.ramWord a, c)

/-- A word written. -/
def Chip.busPut (c : Chip) (a v : Nat) : Area → Chip
  | .rom => c
  | .block _ => c
  | .trim | .security | .nv => c.nvProgram (a - 0x10000000) v
  | .table => c.tablePut (a - 0x40000000) v
  | .plans => c.planPut (a - 0x40400000) v
  | _ => c.ramPut a v

/-! ### An access (01 R37–R39) -/

/-- ACCESS codes of 0x9010:03. -/
def accessCode : AccessKind → Nat
  | .read => 1
  | .write => 2
  | .execute => 3

/-- Data of an access that answers some: kept for the debug port when it asked. -/
def Chip.busAnswer (c : Chip) (m v : Nat) : Chip :=
  let c := c.modStart (fun u => { u with busRead := v })
  c.iff (m == 0x1B) (fun c => c.modSec (fun s => { s with jtagOut := v }))

/-- The access completes in its range. No factory test access returns a key (15 R382): it reads 0 of a record that holds keys (DESIGN
CHOICE, log 80). -/
def Chip.accessDo (c : Chip) (m : Nat) (k : AccessKind) (a v : Nat) (r : Area) : Chip :=
  if k = .write then c.busPut a (v % 2 ^ 32) r
  else
    let x := if m = 0x1C ∧ keyRecord a then (0, c) else c.busWord a r
    x.2.busAnswer m x.1

/-- An access is refused: a write is discarded, a read returns 0, and a source captures it. Of a requester of objects (masters 0x11 and
0x12), which has no address access, the capture records the object index and subindex that stand in its operand (01 R38). -/
def Chip.accessBad (c : Chip) (s m : Nat) (k : AccessKind) (addr : Nat) : Chip :=
  let c := c.iff (k != .write) (fun c => c.busAnswer m 0)
  let a : Access := if m = 0x11 ∨ m = 0x12 then ⟨m, if k = .write then 5 else 4, addr / 256 * 256⟩ else ⟨m, accessCode k, addr⟩
  c.raiseWith s 0 0 (some a) false

/-- An access by a master. The Steward, and debug in ACTIVE, have a sleeping domain woken and wait for it; a wake that the power state
refuses is a decode error (01 R39). -/
def Chip.access (c : Chip) (m : Nat) (k : AccessKind) (addr v : Nat) : Chip :=
  let addr := addr % 2 ^ 32
  if m = 0x11 ∨ m = 0x12 then c.accessBad 17 m k addr
  else
    match areaOf c.grade addr with
    | none => c.accessBad 16 m k addr
    | some r =>
      let d := r.dom
      let asleep := d != .mast && !c.awake d
      let wakes := m == 0x10 || (m == 0x1B && c.powerState == 0)
      if asleep && !wakes then c.accessBad 18 m k addr
      else if !c.accessMay m k r then c.accessBad 17 m k addr
      else if c.nvStalls k addr r then c.modStart (fun u => { u with busStalls := u.busStalls ++ [⟨m, k, addr, v⟩] })
      else if !asleep then c.accessDo m k (addr / 4 * 4) v r
      else if c.powerState != 0 && !c.domWanted d then c.accessBad 16 m k addr
      else (c.wakeAsk d 3 none).modStart (fun u => { u with busStalls := u.busStalls ++ [⟨m, k, addr, v⟩] })

/-- An access that waits: its domain is awake and the page of its read not being programmed, or its wake has been abandoned, or the
power state no longer allows it. -/
def Chip.busServe (c : Chip) (x : BusStall) : Chip :=
  match areaOf c.grade x.addr with
  | none => c
  | some r =>
    if c.nvStalls x.kind x.addr r then c.modStart (fun u => { u with busStalls := u.busStalls ++ [x] })
    else if c.awake r.dom then c.accessDo x.master x.kind (x.addr / 4 * 4) x.data r
    else if c.power.abandoned.contains r.dom || (c.powerState != 0 && !c.domWanted r.dom) then
      c.accessBad 16 x.master x.kind x.addr
    else (c.wakeAsk r.dom 3 none).modStart (fun u => { u with busStalls := u.busStalls ++ [x] })

/-- The waiting accesses, in their order. -/
def Chip.busWatch (c : Chip) : Chip :=
  c.start.busStalls.foldl Chip.busServe (c.modStart (fun u => { u with busStalls := [] }))

/-- INTERNAL_ACCESS: a master of an absent unit makes none. -/
def Chip.internalAccess (c : Chip) (m : Nat) (k : AccessKind) (addr v : Nat) : Chip :=
  if (m < 16 ∧ c.grade.engines ≤ m) ∨ (0x13 ≤ m ∧ m < 0x1B ∧ c.grade.ports ≤ m - 0x13) then c else c.access m k addr v

/-! ### Debug and JTAG (15 R395, R396) -/

/-- An instruction is offered. -/
def Chip.jtagOffered (c : Chip) : JtagInstr → Bool
  | .bypass | .idcode => true
  | .samplePreload | .debugAccess => c.rd 0xB100 1 != 0
  | .extest | .intest | .acTest => c.rd 0xB100 1 == 2
  | .factoryTest => c.lifecycle == 0

/-- JTAG_INSTRUCTION. -/
def Chip.jtagSelect (c : Chip) (i : JtagInstr) : Chip :=
  let i := if c.jtagOffered i then i else .bypass
  c.modSec (fun s => { s with jtag := i, jtagOut := if i = .idcode then 0x165160AB else s.jtagOut })

/-- DEBUG_ACCESS: through the debug access instruction, while a session is held. -/
def Chip.debugAccess (c : Chip) (k : AccessKind) (addr v : Nat) : Chip :=
  if c.sec.jtag != .debugAccess || c.rd 0xB100 1 == 0 then c else c.access 0x1B k addr v

end Sys2Proof.Machine
end

