-- ==== Sys2Proof/Machine/Settle.lean ====
section
/-!
DEFINITION. Sys2Proof/Machine/Settle.lean: what follows every command at once, before the next one is taken: the watches of every
unit, and the one operation through which a command's effect reaches the state.
-/

namespace Sys2Proof.Machine

/-- Tags of records whose end no unit waits for are dropped (06 R157, 17 R415). -/
def Chip.tagsDrop (c : Chip) : Chip :=
  c.modNv (fun n => { n with committed := n.committed.filter (· == secTag), failed := n.failed.filter (· == secTag) })

/-- Frames of the TPP rings that carry no request for this device are taken away, and malformed requests are answered at once
(12 R324, R331). -/
def Chip.netClear (c : Chip) (p : Fin 8) : Nat → Chip
  | 0 => c
  | fuel + 1 =>
    match c.rxRing p.val 3 with
    | [] => c
    | d :: _ =>
      let good := match c.netRequest p d.bytes with
        | some (_, b) => (match parseRequest b with
          | some (_, .ok _) => true
          | _ => false)
        | none => false
      if good || !c.netUp p.val then c else (c.netNext p).netClear p fuel

/-- The Steward's own units: start-up, power, security, NV. -/
def Chip.settleSteward (c : Chip) : Chip :=
  c.blockResets.stallWatch.busWatch.powerWatch.startWatch.secWatch.answerWatch.flushWatch.tagsDrop

/-- Qualification and the channels. -/
def Chip.settleTiming (c : Chip) : Chip :=
  let c := c.each 28 (fun n c => c.iff (c.grade.hasCand n) (fun c => c.qualify n))
  c.each c.grade.chans (fun ch c => ((((c.suspendWatch ch).trumpWait ch).learnWatch ch).boundWatch ch).offsetsWatch ch)

/-- Synthesis, ports, servos, the clocks and the event queue. -/
def Chip.settleData (c : Chip) : Chip :=
  let c := c.todLate.synthWatch
  let c := c.trigWatch.each c.grade.ports (fun p c => ((((c.portWatch p).txRefWatch p).esmcWatch p).flowWatch p).lateWatch p)
  let c := (List.finRange 8).foldl (fun c p => c.netClear p (c.rxRing p.val 3).length) c
  let c := c.each c.grade.ports (fun p c => (c.ptpWatch p).pdelayWatch p)
  let c := c.each 4 (fun k c => c.servoWatch k)
  c.clockWatch.clockWatch_.suppressWatch.ledWatch

/-- Every unit follows. -/
def Chip.settle (c : Chip) : Chip := c.settleSteward.settleTiming.settleData

/-- The entries of an address list in canonical form: those that rise and are not an unprogrammed byte. An array that only
`memWrite` has changed is returned as it is. -/
def Memory.tidy : Nat → List Host.Cell → List Host.Cell
  | _, [] => []
  | lo, p :: t => if lo ≤ p.1 ∧ p.2 ≠ 0 then p :: Memory.tidy (p.1 + 1) t else Memory.tidy lo t

/-- A list of a fixed number of like things, at its size. No command changes a size: a list that has it is returned as it is. -/
def sized {α : Type} [Inhabited α] (n : Nat) (l : List α) : List α := l.take n ++ List.replicate (n - l.length) default

/-- The rings and the banks of a port. -/
def Port.whole (p : Port) : Port :=
  { p with rx := sized 5 p.rx, tx := sized 3 p.tx, pfcEnd := sized 8 p.pfcEnd, back := sized 2 p.back, banks := sized 2 p.banks }

/-- Every unit that the device has a fixed number of. -/
def Chip.whole (c : Chip) : Chip :=
  { c with
    cands := sized 28 c.cands, chans := sized 8 c.chans, ttus := sized 8 c.ttus, ports := (sized 8 c.ports).map Port.whole
    tdc := { c.tdc with lanes := sized 24 c.tdc.lanes, aux := sized 2 c.tdc.aux }
    faults := { c.faults with srcs := sized 128 c.faults.srcs }
    power := { c.power with doms := sized 9 c.power.doms }
    tpp := { c.tpp with peers := sized 32 c.tpp.peers }
    sec := { c.sec with peerKeys := sized 32 c.sec.peerKeys, saKeys := sized 256 c.sec.saKeys }
    synth := { c.synth with groups := sized 8 c.synth.groups, outs := sized 16 c.synth.outs, trigs := sized 4 c.synth.trigs, cache := sized 64 c.synth.cache }
    sess := { c.sess with servos := sized 4 c.sess.servos, sas := sized 256 c.sess.sas } }

/-- What a command leaves of a device: its effect, with the fuses that give the grade as they are (00 R1), every unit there, and
the NV array in canonical form. -/
def Chip.keep (c c' : Chip) : Chip :=
  let d := c'.whole
  { d with grade := c.grade, nv := { d.nv with cells := Memory.tidy 0 d.nv.cells } }

/-- A command acts: its effect, then every unit follows. -/
def Chip.after (c : Chip) (f : Chip → Chip) : Chip := c.keep (f c).settle

/-- The answer of every command: a next state, its queue untouched. -/
def State.act (f : Chip → Chip) (s : State) : Host.Outcome State Fault Refusal := .next { s with chip := s.chip.after f }

/-- What the device does with no command waiting: one LO tick (log 1), which the LEDs follow; the Steward or an engine serves a waiting request. -/
def Chip.idle (c : Chip) : Chip :=
  let t := c.tick
  if t.tpp.inbox.isEmpty && (List.range 8).all (fun p => (t.rxRing p 3).isEmpty) then c.keep t.ledWatch
  else c.after (fun c => c.tick.serveWaiting)

end Sys2Proof.Machine
end

