-- ==== Sys2Proof/Machine/CmdChannels.lean ====
section
/-!
DEFINITION. Sys2Proof/Machine/CmdChannels.lean: the commands of timing channels, holdover and the error bound. Each is an effect on the device, defined with its unit;
a command whose condition does not hold has no effect (log 5), and every unit then follows (`Chip.after`).
-/

namespace Sys2Proof.Machine

/-- LOOP_UPDATE (04 R96): At each loop update, a channel evaluates state transitions, selection, filtering and steering. -/
def execLoopUpdate (ch : Fin 8) (s : State) : Host.Outcome State Fault Refusal :=
  s.act (fun c => c.loopUpdate ch.val)

/-- ACQUIRE_TIMEOUT (04 R99): A channel in ACQUIRE for ACQUIRE_TIMEOUT raises its pennant and counts. -/
def execAcquireTimeout (ch : Fin 8) (s : State) : Host.Outcome State Fault Refusal :=
  s.act (fun c => c.acquireTimeout ch.val)

/-- TRUMP (04 R106): A write of TRUMP sets or clears a forced selection. -/
def execTrump (q : Envelope) (ch : Fin 8) (value : Nat) (s : State) : Host.Outcome State Fault Refusal :=
  s.act (fun c => c.askWrite q (0x3000 + ch.val) 0x0C value)

/-- LOCKOUT (04 R107): A write of LOCKOUT makes a selection entry unselectable or selectable. -/
def execLockout (q : Envelope) (ch : Fin 8) (k : Fin 28) (set : Bool) (s : State) :
    Host.Outcome State Fault Refusal :=
  s.act (fun c => c.askLockout q ch.val (k.val + 1) set)

/-- SELECTION_ENTRY_WRITE (04 R104): A write of a selection table entry's CANDIDATE is checked and may clear the trump. -/
def execSelectionEntryWrite (q : Envelope) (ch : Fin 8) (k : Fin 28) (value : Nat) (s : State) :
    Host.Outcome State Fault Refusal :=
  s.act (fun c => c.askWrite q (0x3100 + ch.val) (k.val + 1) value)

/-- REALIGN (04 R111): A write of REALIGN moves BUILD_OUT_OFFSET into SLEW_REMAIN. -/
def execRealign (q : Envelope) (ch : Fin 8) (s : State) : Host.Outcome State Fault Refusal :=
  s.act (fun c => c.askWrite q (0x3000 + ch.val) 0x11 1)

/-- TEB_EVALUATION (05 R131): At each whole second, every channel composes its bound B and publishes it for TC0. -/
def execTebEvaluation (dieTemp : Int) (mastTemp : Int) (s : State) : Host.Outcome State Fault Refusal :=
  s.act (fun c => (c.wholeSecond dieTemp mastTemp).minuteTurn)

/-- LEARNING_EPOCH_END (05 R133): A 16 s learning epoch ends and is admitted to the model fit or discarded. -/
def execLearningEpochEnd (ch : Fin 8) (s : State) : Host.Outcome State Fault Refusal :=
  s.act (fun c => c.epochEnd ch.val)

/-- HOST_TEMP_TIMEOUT (05 R134): The last HOST_TEMP write becomes older than HOST_TEMP_MAX_AGE and host temperature turns invalid. -/
def execHostTempTimeout (ch : Fin 8) (s : State) : Host.Outcome State Fault Refusal :=
  s.act (fun c => c.modChan ch.val fun x => { x with hostTempValid := false })

/-- MODEL_RESET (05 R136): A write of MODEL_RESET discards every epoch and coefficient. -/
def execModelReset (q : Envelope) (ch : Fin 8) (s : State) : Host.Outcome State Fault Refusal :=
  s.act (fun c => c.askWrite q (0x3020 + ch.val) 0x13 1)

/-- HOLDOVER_EXPIRY (05 R140): HOLDOVER_MAX or HOLDOVER_TEB_LIMIT is reached and the channel enters FREERUN. -/
def execHoldoverExpiry (ch : Fin 8) (byLimit : Bool) (s : State) : Host.Outcome State Fault Refusal :=
  s.act (fun c => c.holdoverExpire ch.val byLimit)

end Sys2Proof.Machine
end

