-- ==== Sys2Proof/Machine/CmdClocks.lean ====
section
/-!
DEFINITION. Sys2Proof/Machine/CmdClocks.lean: the commands of the time counter, TTUs and capture. Each is an effect on the device, defined with its unit;
a command whose condition does not hold has no effect (log 5), and every unit then follows (`Chip.after`).
-/

namespace Sys2Proof.Machine

/-- RC_PERIOD_MEASURE (07 R178): Each second the Steward measures the RC period against the LO. -/
def execRcPeriodMeasure (periodPs : Nat) (s : State) : Host.Outcome State Fault Refusal :=
  s.act (fun c => c.rcMeasure periodPs)

/-- OUT_SOURCE_WRITE (07 R197): A write of OUT_SOURCE moves an output between its divider and a TTU. -/
def execOutSourceWrite (q : Envelope) (k : Fin 16) (source : Nat) (s : State) : Host.Outcome State Fault Refusal :=
  s.act (fun c => c.askWrite q 0x7011 (k.val + 1) source)

/-- TIME_SET (07 R180): A write of TIME_SET requests an absolute load of the time counter. -/
def execTimeSet (q : Envelope) (value : Nat) (s : State) : Host.Outcome State Fault Refusal :=
  s.act (fun c => c.askWrite q 0x1202 1 value)

/-- TIME_STEP (07 R180): A write of TIME_STEP requests a step of Δ ns. -/
def execTimeStep (q : Envelope) (delta : Int) (s : State) : Host.Outcome State Fault Refusal :=
  s.act (fun c => c.askWrite q 0x1202 2 (wrapInt 64 delta))

/-- TIME_SLEW (07 R183): A write of TIME_SLEW adds s ps to TC0's SLEW_REMAIN. -/
def execTimeSlew (q : Envelope) (ps : Int) (s : State) : Host.Outcome State Fault Refusal :=
  s.act (fun c => c.askWrite q 0x1202 3 (wrapInt 64 ps))

/-- STEP_EXECUTE (07 R182): A pending step executes at one LO tick and everything that follows a step applies. -/
def execStepExecute (s : State) : Host.Outcome State Fault Refusal :=
  s.act (fun c => c.stepExecute)

/-- LEAP_APPLY (07 R187): At the leap instant, UTC_OFFSET changes, the flag clears and an event is posted. -/
def execLeapApply (s : State) : Host.Outcome State Fault Refusal :=
  s.act (fun c => c.leapApply)

/-- TS_QUEUE_HEAD_READ (07 R191): A read of TS_QUEUE_HEAD removes and returns the oldest host stamp. -/
def execTsQueueHeadRead (q : Envelope) (p : Fin 8) (s : State) : Host.Outcome State Fault Refusal :=
  s.act (fun c => c.ask q (.read (0x5208 + p.val) 1))

/-- TS_QUEUE_LOST_CLEAR (07 R192): A write of 0 to LOST clears it and re-arms FIRST_LOST_ID. -/
def execTsQueueLostClear (q : Envelope) (p : Fin 8) (s : State) : Host.Outcome State Fault Refusal :=
  s.act (fun c => c.askWrite q (0x5200 + p.val) 4 0)

/-- HOST_RESERVE_WRITE (07 R192): A write of HOST_RESERVE takes effect only while both partitions are empty. -/
def execHostReserveWrite (q : Envelope) (p : Fin 8) (value : Nat) (s : State) : Host.Outcome State Fault Refusal :=
  s.act (fun c => c.askWrite q (0x5200 + p.val) 1 value)

/-- TTU_ARM_ONE_SHOT (07 R195): A write of MODE 1 arms a TTU as one-shot. -/
def execTtuArmOneShot (q : Envelope) (u : Fin 8) (s : State) : Host.Outcome State Fault Refusal :=
  s.act (fun c => c.askWrite q (0x7000 + u.val) 1 1)

/-- TTU_ARM_PERIODIC (07 R195): A write of MODE 2 arms a TTU as periodic. -/
def execTtuArmPeriodic (q : Envelope) (u : Fin 8) (s : State) : Host.Outcome State Fault Refusal :=
  s.act (fun c => c.askWrite q (0x7000 + u.val) 1 2)

/-- TTU_DISARM (07 R195): A write of MODE 0 disarms a TTU. -/
def execTtuDisarm (q : Envelope) (u : Fin 8) (s : State) : Host.Outcome State Fault Refusal :=
  s.act (fun c => c.askWrite q (0x7000 + u.val) 1 0)

/-- TTU_LEADING_EDGE (07 R196): A TTU reaches its grid instant and produces a leading edge, or misses it. -/
def execTtuLeadingEdge (u : Fin 8) (s : State) : Host.Outcome State Fault Refusal :=
  s.act (fun c => c.ttuLead u.val)

/-- TTU_TRAILING_EDGE (07 R196): WIDTH after the leading edge, the trailing edge ends the pulse. -/
def execTtuTrailingEdge (u : Fin 8) (s : State) : Host.Outcome State Fault Refusal :=
  s.act (fun c => c.ttuTrail u.val)

/-- LTU_LAUNCH (07 R199): At its launch time, the LTU starts the frame so its timestamp point meets that time. -/
def execLtuLaunch (p : Fin 8) (err : Int) (s : State) : Host.Outcome State Fault Refusal :=
  s.act (fun c => sending p.val (c.ltuLaunch p.val err))

/-- LTU_LATE (07 R200): A held launch passes its launch time plus LATE_TOLERANCE and is discarded or sent. -/
def execLtuLate (p : Fin 8) (s : State) : Host.Outcome State Fault Refusal :=
  s.act (fun c => sending p.val (c.ltuLate p.val))

end Sys2Proof.Machine
end

