-- ==== Sys2Proof/Machine/CmdFrames.lean ====
section
/-!
DEFINITION. Sys2Proof/Machine/CmdFrames.lean: the commands of ports, links and frames. Each is an effect on the device, defined with its unit;
a command whose condition does not hold has no effect (log 5), and every unit then follows (`Chip.after`).
-/

namespace Sys2Proof.Machine

/-- LINK_UP (08 R204): The link conditions have held for 10 ms and LINK_UP becomes 1. -/
def execLinkUp (p : Fin 8) (s : State) : Host.Outcome State Fault Refusal :=
  s.act (fun c => c.linkRise p.val)

/-- LINK_DOWN (08 R204): A link condition is lost: LINK_UP falls, the frame in receipt is discarded and queued frames are flushed. -/
def execLinkDown (p : Fin 8) (rx : Bool) (pcs : Bool) (s : State) : Host.Outcome State Fault Refusal :=
  s.act (fun c => c.linkDown p.val rx pcs)

/-- PORT_LINK_RESTART_WRITE (08 R204): A write of RATE, SGMII, FEC or AN_ENABLE on an enabled port restarts the link. -/
def execPortLinkRestartWrite (q : Envelope) (p : Fin 8) (sub : Nat) (value : Nat) (rx : Bool) (s : State) :
    Host.Outcome State Fault Refusal :=
  s.act (fun c => (c.modPort p.val (fun x => { x with receiving := rx })).askWrite q (0x5000 + p.val) sub value)

/-- FRAME_RECEIVE (08 R206): A frame is received, filtered, classified, checked, stored in cells and described. -/
def execFrameReceive (p : Fin 8) (bytes : List Nat) (ps : Nat) (codeError : Bool) (lost : Bool) (fecOk : Nat) (fecBad : Nat) (s : State) :
    Host.Outcome State Fault Refusal :=
  s.act (fun c => c.frameReceive p.val bytes ps codeError lost fecOk fecBad)

/-- PAUSE_TIMER_EXPIRY (08 R224): The pause timer runs out and transmission may start again. -/
def execPauseTimerExpiry (p : Fin 8) (s : State) : Host.Outcome State Fault Refusal :=
  s.act (fun c => c.pauseExpire p.val)

/-- PFC_TIMER_EXPIRY (08 R226): A priority's pause timer runs out. -/
def execPfcTimerExpiry (p : Fin 8) (prio : Fin 8) (s : State) : Host.Outcome State Fault Refusal :=
  s.act (fun c => c.pfcExpire p.val prio.val)

/-- PAUSE_REFRESH (08 R227): Half of PAUSE_TIME has passed with a ring still below XON_CREDIT and PAUSE is sent again. -/
def execPauseRefresh (p : Fin 8) (s : State) : Host.Outcome State Fault Refusal :=
  s.act (fun c => c.pauseRefresh p.val)

/-- FLOW_CONTROL_FRAME_SEND (08 R228): A generated PAUSE or PFC frame is sent at the first frame boundary. -/
def execFlowControlFrameSend (p : Fin 8) (s : State) : Host.Outcome State Fault Refusal :=
  s.act (fun c => c.sendControl p.val)

/-- HOST_FRAME_RX (08 R215): A read of HOST_FRAME_RX returns and releases the oldest HOST frame with its descriptor. -/
def execHostFrameRx (q : Envelope) (p : Fin 8) (s : State) : Host.Outcome State Fault Refusal :=
  s.act (fun c => c.ask q (.read (0x5130 + p.val) 1))

/-- HOST_FRAME_TX (08 R216): A write of HOST_FRAME_TX queues a host frame with its descriptor. -/
def execHostFrameTx (q : Envelope) (p : Fin 8) (bytes : List Nat) (s : State) : Host.Outcome State Fault Refusal :=
  s.act (fun c => c.askBytes q (0x5138 + p.val) 1 bytes)

/-- FRAME_TRANSMIT (08 R218): A queued frame is started and completed by the MAC with checks, one-step insertion and its status. -/
def execFrameTransmit (p : Fin 8) (ring : Fin 3) (ps : Nat) (cut : Option Nat) (s : State) :
    Host.Outcome State Fault Refusal :=
  s.act (fun c => sending p.val (c.transmit p.val ring.val ps cut))

/-- TX_LPI_ENTRY (08 R229): With the rings empty for LPI_IDLE_DELAY and no trick near, the transmitter enters low-power idle. -/
def execTxLpiEntry (p : Fin 8) (s : State) : Host.Outcome State Fault Refusal :=
  s.act (fun c => c.txIdle p.val)

/-- TX_LPI_EXIT (08 R229): The transmitter leaves low-power idle for a queued frame or TX_WAKE before a trick. -/
def execTxLpiExit (p : Fin 8) (s : State) : Host.Outcome State Fault Refusal :=
  s.act (fun c => c.txWake p.val)

/-- RX_LPI_ENTRY (08 R230): The partner signals low-power idle and PREFn enters ABSENT with LINK_IDLE. -/
def execRxLpiEntry (p : Fin 8) (s : State) : Host.Outcome State Fault Refusal :=
  s.act (fun c => c.rxIdle p.val)

/-- RX_LPI_EXIT (08 R230): The partner signals wake. -/
def execRxLpiExit (p : Fin 8) (s : State) : Host.Outcome State Fault Refusal :=
  s.act (fun c => c.rxWakePort p.val)

/-- PCS_LOCK_ACQUIRED (08 R204): The PCS gains block lock or code-group synchronisation, with auto-negotiation complete where enabled, and the 10 ms LINK_UP qualification begins. -/
def execPcsLockAcquired (p : Fin 8) (duplex : Bool) (pause : Bool) (asmDir : Bool) (gigabit : Bool) (s : State) :
    Host.Outcome State Fault Refusal :=
  s.act (fun c => c.pcsLock p.val duplex pause asmDir gigabit)

/-- PORT_ENABLE_WRITE (08 R204): A write of a port's ENABLE starts or stops its link, wakes or lets PORT sleep, and sends PREFn through ABSENT. -/
def execPortEnableWrite (q : Envelope) (p : Fin 8) (on : Bool) (rx : Bool) (s : State) : Host.Outcome State Fault Refusal :=
  s.act (fun c => (c.modPort p.val (fun x => { x with receiving := rx })).askWrite q (0x5000 + p.val) 1 on.toNat)

end Sys2Proof.Machine
end

