-- ==== Sys2Proof/Machine/CmdGuard.lean ====
section
/-!
DEFINITION. Sys2Proof/Machine/CmdGuard.lean: the commands of lifecycle, keys, firmware, debug and the panel. Each is an effect on the device, defined with its unit;
a command whose condition does not hold has no effect (log 5), and every unit then follows (`Chip.after`).
-/

namespace Sys2Proof.Machine

/-- LIFECYCLE_TO_OPEN (15 R380): A lifecycle request from FACTORY to OPEN generates the identity key. -/
def execLifecycleToOpen (q : Envelope) (s : State) : Host.Outcome State Fault Refusal :=
  s.act (fun c => c.askWrite q 0xB000 2 0x01434F4E)

/-- LIFECYCLE_TO_SEALED (15 R379): A lifecycle request from OPEN to SEALED locks the customer keys. -/
def execLifecycleToSealed (q : Envelope) (s : State) : Host.Outcome State Fault Refusal :=
  s.act (fun c => c.askWrite q 0xB000 2 0x02434F4E)

/-- LIFECYCLE_TO_RETIRED (15 R380): A lifecycle request to RETIRED erases the keys. -/
def execLifecycleToRetired (q : Envelope) (s : State) : Host.Outcome State Fault Refusal :=
  s.act (fun c => c.askWrite q 0xB000 2 0x03434F4E)

/-- ROTATE (15 R383): A write of ROTATE generates a new identity key. -/
def execRotate (q : Envelope) (s : State) : Host.Outcome State Fault Refusal :=
  s.act (fun c => c.askWrite q 0xB001 3 1)

/-- FW_KEY_WRITE (15 R382): A write of FW_KEY stores the customer firmware key. -/
def execFwKeyWrite (q : Envelope) (key : List Nat) (s : State) : Host.Outcome State Fault Refusal :=
  s.act (fun c => c.askBytes q 0xB002 1 key)

/-- DEBUG_KEY_WRITE (15 R382): A write of DEBUG_KEY stores the customer debug key. -/
def execDebugKeyWrite (q : Envelope) (key : List Nat) (s : State) : Host.Outcome State Fault Refusal :=
  s.act (fun c => c.askBytes q 0xB002 3 key)

/-- IMAGE_CHECK_COMPLETE (15 R387): A firmware image or patch check ends with its result. -/
def execImageCheckComplete (patch : Bool) (image : List Nat) (s : State) : Host.Outcome State Fault Refusal :=
  s.act (fun c => c.imageCheck patch image)

/-- TAMPER_OPENING (15 R390): 32 samples at the open level accept an opening, which erases keys when TAMPER_USE is 1. -/
def execTamperOpening (s : State) : Host.Outcome State Fault Refusal :=
  s.act (fun c => c.tamperOpen)

/-- CHALLENGE_READ (15 R392): A read of CHALLENGE returns 32 fresh random bytes. -/
def execChallengeRead (q : Envelope) (s : State) : Host.Outcome State Fault Refusal :=
  s.act (fun c => c.ask q (.read 0xB100 4))

/-- CHALLENGE_EXPIRY (15 R392): 60 s after it was issued, an unused challenge expires. -/
def execChallengeExpiry (s : State) : Host.Outcome State Fault Refusal :=
  s.act (fun c => c.modSec fun x => { x with challenge := none })

/-- CHALLENGE_LOCKOUT_END (15 R392): 10 s after a failed response, CHALLENGE reads are allowed again. -/
def execChallengeLockoutEnd (s : State) : Host.Outcome State Fault Refusal :=
  s.act (fun c => c.modSec fun x => { x with lockout := false })

/-- DEBUG_OBSERVE_REQUEST (15 R392): DEBUG_REQUEST 0x01 requests an OBSERVE session. -/
def execDebugObserveRequest (q : Envelope) (s : State) : Host.Outcome State Fault Refusal :=
  s.act (fun c => c.askWrite q 0xB100 2 1)

/-- DEBUG_FULL_REQUEST (15 R392): DEBUG_REQUEST 0x02 requests a FULL session. -/
def execDebugFullRequest (q : Envelope) (s : State) : Host.Outcome State Fault Refusal :=
  s.act (fun c => c.askWrite q 0xB100 2 2)

/-- DEBUG_END_REQUEST (15 R394): DEBUG_REQUEST 0x00 ends the debug session. -/
def execDebugEndRequest (q : Envelope) (s : State) : Host.Outcome State Fault Refusal :=
  s.act (fun c => c.askWrite q 0xB100 2 0)

/-- RESPONSE (15 R392): A write of RESPONSE is verified and grants FULL, or fails. -/
def execResponse (q : Envelope) (sig : List Nat) (s : State) : Host.Outcome State Fault Refusal :=
  s.act (fun c => c.askBytes q 0xB100 5 sig)

/-- DEBUG_TIMEOUT (15 R394): DEBUG_TIMEOUT passes without debug access and the session ends. -/
def execDebugTimeout (s : State) : Host.Outcome State Fault Refusal :=
  s.act (fun c => c.debugEnd)

/-- DEBUG_ACCESS (15 R395): A JTAG debug access reaches memory as master 0x1B. -/
def execDebugAccess (kind : AccessKind) (addr : Nat) (data : Nat) (s : State) : Host.Outcome State Fault Refusal :=
  s.act (fun c => c.debugAccess kind addr data)

/-- JTAG_INSTRUCTION (15 R396): A JTAG instruction is selected, or BYPASS where it is not offered. -/
def execJtagInstruction (ir : JtagInstr) (s : State) : Host.Outcome State Fault Refusal :=
  s.act (fun c => c.jtagSelect ir)

/-- REKEY_RESPONSE (15 R391): A write of REKEY_RESPONSE is verified and opens a re-key grant. -/
def execRekeyResponse (q : Envelope) (sig : List Nat) (s : State) : Host.Outcome State Fault Refusal :=
  s.act (fun c => c.askBytes q 0xB100 9 sig)

/-- REKEY_GRANT_EXPIRY (15 R391): 600 s after it opened, the re-key grant ends. -/
def execRekeyGrantExpiry (s : State) : Host.Outcome State Fault Refusal :=
  s.act (fun c => c.rekeyEnd)

/-- KEY_PRESS_ACCEPTED (16 R399): A key reads pressed for KEY_DEBOUNCE samples and the press is accepted. -/
def execKeyPressAccepted (k : Fin 8) (s : State) : Host.Outcome State Fault Refusal :=
  s.act (fun c => c.keyDown k.val)

/-- KEY_RELEASE_ACCEPTED (16 R400): A key release is accepted and a short press acts. -/
def execKeyReleaseAccepted (k : Fin 8) (s : State) : Host.Outcome State Fault Refusal :=
  s.act (fun c => c.keyUp k.val)

/-- LONG_PRESS (16 R400): A press held for LONG_PRESS acts as a long press. -/
def execLongPress (k : Fin 8) (s : State) : Host.Outcome State Fault Refusal :=
  s.act (fun c => c.longPress k.val)

/-- LAMP_TEST_END (16 R404): The 3 s lamp test ends. -/
def execLampTestEnd (s : State) : Host.Outcome State Fault Refusal :=
  s.act (fun c => c.lampEnd)

/-- CURSOR_LAPSE (16 R401): SELECT_TIMEOUT after the last key action, the cursor lapses. -/
def execCursorLapse (s : State) : Host.Outcome State Fault Refusal :=
  s.act (fun c => c.cursorLapse)

/-- TAMPER_CLOSING (15 R390): TAMPER has read closed for 32 samples, so OPENED clears and the next opening is accepted as new. -/
def execTamperClosing (s : State) : Host.Outcome State Fault Refusal :=
  s.act (fun c => c.tamperClose)

end Sys2Proof.Machine
end

