-- ==== Sys2Proof/Machine/CmdOutputs.lean ====
section
/-!
DEFINITION. Sys2Proof/Machine/CmdOutputs.lean: the commands of synthesis and the outputs. Each is an effect on the device, defined with its unit;
a command whose condition does not hold has no effect (log 5), and every unit then follows (`Chip.after`).
-/

namespace Sys2Proof.Machine

/-- APPLY (06 R147): A write of APPLY checks the staged plan and makes it active, starting a hop if needed. -/
def execApply (q : Envelope) (g : Fin 8) (s : State) : Host.Outcome State Fault Refusal :=
  s.act (fun c => c.askWrite q (0x4010 + g.val) 0x10 1)

/-- APLL_LOCK_WINDOW_END (06 R149): A core APLL lock window ends and its count declares lock or loss. -/
def execApllLockWindowEnd (count : Nat) (s : State) : Host.Outcome State Fault Refusal :=
  s.act (fun c => c.apllJudge count)

/-- APLL_RETRY_TIMER (06 R150): The 200 µs or 10 ms APLL retry interval ends and the APLL repeats its band search. -/
def execApllRetryTimer (s : State) : Host.Outcome State Fault Refusal :=
  s.act (fun c => c.apllRetry)

/-- APLL_BAND_SEARCH_END (06 R148): The core APLL band search ends. -/
def execApllBandSearchEnd (found : Bool) (band : Nat) (s : State) : Host.Outcome State Fault Refusal :=
  s.act (fun c => c.apllFound found band)

/-- HOP_SETTLE_END (06 R155): A cached band has settled and the group enters LOCKING. -/
def execHopSettleEnd (g : Fin 8) (s : State) : Host.Outcome State Fault Refusal :=
  s.act (fun c => c.hopSettled g.val)

/-- SEARCH_STEP_END (06 R155): A step of the binary band search ends its 32 µs count. -/
def execSearchStepEnd (g : Fin 8) (count : Nat) (s : State) : Host.Outcome State Fault Refusal :=
  s.act (fun c => c.searchStep g.val count)

/-- MDLL_LOCK_WINDOW_END (06 R154): An MDLL lock window ends and d is judged against the thresholds. -/
def execMdllLockWindowEnd (g : Fin 8) (d : Int) (s : State) : Host.Outcome State Fault Refusal :=
  s.act (fun c => c.mdllWindow g.val d)

/-- LOCKING_LIMIT_EXPIRY (06 R153): A group is not LOCKED within t_L in LOCKING or UNLOCKED and makes a full search. -/
def execLockingLimitExpiry (g : Fin 8) (s : State) : Host.Outcome State Fault Refusal :=
  s.act (fun c => c.lockingLimit g.val)

/-- BAND_SEARCH_RETRY (06 R156): 10 ms after a failed full search, the search is retried. -/
def execBandSearchRetry (g : Fin 8) (s : State) : Host.Outcome State Fault Refusal :=
  s.act (fun c => c.searchRetry g.val)

/-- BAND_CACHE_CLEAR (06 R157): A write of CLEAR erases every band-cache entry. -/
def execBandCacheClear (q : Envelope) (s : State) : Host.Outcome State Fault Refusal :=
  s.act (fun c => c.askWrite q 0x4300 2 1)

/-- SQUELCH_LOW_REACHED (06 R159): A squelched output reaches its falling edge, or its high-phase limit, and goes low. -/
def execSquelchLowReached (k : Fin 16) (high : Nat) (s : State) : Host.Outcome State Fault Refusal :=
  s.act (fun c => c.squelchLow k.val high)

/-- SQUELCH_HIZ_TIMER (06 R159): One half period after going low, a SQUELCH_HIZ driver goes to high impedance. -/
def execSquelchHizTimer (k : Fin 16) (s : State) : Host.Outcome State Fault Refusal :=
  s.act (fun c => c.squelchHiz k.val)

/-- FENCE_VIOLATION (06 R162): An output period shorter than 1/F closes the output's gate. -/
def execFenceViolation (k : Fin 16) (high low : Nat) (s : State) : Host.Outcome State Fault Refusal :=
  s.act (fun c => c.fenceViolate k.val high low)

/-- FENCE_GATE_OPEN (06 R162): After 8 periods without violation, the gate opens at a rising edge. -/
def execFenceGateOpen (k : Fin 16) (low : Nat) (s : State) : Host.Outcome State Fault Refusal :=
  s.act (fun c => c.fenceOpen k.val low)

/-- SYNC (06 R165): A write of SYNC synchronises the group's outputs, or is held until LOCKED. -/
def execSync (q : Envelope) (g : Fin 8) (s : State) : Host.Outcome State Fault Refusal :=
  s.act (fun c => c.askWrite q (0x4010 + g.val) 9 1)

/-- OUTPUT_RESTART (06 R165): An output in restart starts running at the first target instant after its minimum low time. -/
def execOutputRestart (k : Fin 16) (low : Nat) (s : State) : Host.Outcome State Fault Refusal :=
  s.act (fun c => c.outRestart k.val low)

/-- SLIP_COMPLETE (06 R165): A slipping output reaches its target and ADJUSTING clears. -/
def execSlipComplete (k : Fin 16) (s : State) : Host.Outcome State Fault Refusal :=
  s.act (fun c => c.slipDone k.val)

/-- PHASE_ADJ_WRITE (06 R168): A write of PHASE_ADJ is checked and applied as a slip. -/
def execPhaseAdjWrite (q : Envelope) (k : Fin 16) (ps : Int) (s : State) : Host.Outcome State Fault Refusal :=
  s.act (fun c => c.askWrite q (0x4100 + k.val) 5 (wrapInt 64 ps))

/-- RAMP_START (06 R170): RAMP_CTRL START runs the named profile from the present r. -/
def execRampStart (q : Envelope) (g : Fin 8) (s : State) : Host.Outcome State Fault Refusal :=
  s.act (fun c => c.askWrite q (0x4010 + g.val) 0x0C 1)

/-- RAMP_STOP (06 R170): RAMP_CTRL STOP freezes r. -/
def execRampStop (q : Envelope) (g : Fin 8) (s : State) : Host.Outcome State Fault Refusal :=
  s.act (fun c => c.askWrite q (0x4010 + g.val) 0x0C 2)

/-- RAMP_ZERO (06 R170): RAMP_CTRL ZERO ramps r to 0. -/
def execRampZero (q : Envelope) (g : Fin 8) (s : State) : Host.Outcome State Fault Refusal :=
  s.act (fun c => c.askWrite q (0x4010 + g.val) 0x0C 3)

/-- RAMP_SEGMENT_END (06 R170): A ramp segment ends and the next begins, or the profile ends, loops or commits. -/
def execRampSegmentEnd (g : Fin 8) (s : State) : Host.Outcome State Fault Refusal :=
  s.act (fun c => c.rampSegment g.val)

/-- SSC_MODE_WRITE (06 R171): A write of SSC_MODE starts a spread or requests its end. -/
def execSscModeWrite (q : Envelope) (g : Fin 8) (mode : Nat) (s : State) : Host.Outcome State Fault Refusal :=
  s.act (fun c => c.askWrite q (0x4010 + g.val) 0x0D mode)

/-- SSC_END (06 R171): The spread ends at the triangle's next pass through r = 0. -/
def execSscEnd (g : Fin 8) (s : State) : Host.Outcome State Fault Refusal :=
  s.act (fun c => c.sscEnd g.val)

/-- BANK_VOLTAGE_CHECK (06 R173): Each second, bank supplies are measured and mismatched banks go to high impedance. -/
def execBankVoltageCheck (mismatch : Nat) (s : State) : Host.Outcome State Fault Refusal :=
  s.act (fun c => c.bankCheck mismatch)

/-- FORMAT_WRITE (06 R174): A FORMAT write is checked and the output changes format through squelch and restart. -/
def execFormatWrite (q : Envelope) (k : Fin 16) (format : Nat) (s : State) : Host.Outcome State Fault Refusal :=
  s.act (fun c => c.askWrite q (0x4100 + k.val) 1 format)

/-- GROUP_ENABLE_WRITE (06 R153): A write of a group's ENABLE starts a hop from OFF, or sends the group to OFF through the squelch sequence. -/
def execGroupEnableWrite (q : Envelope) (g : Fin 8) (on : Bool) (s : State) : Host.Outcome State Fault Refusal :=
  s.act (fun c => c.askWrite q (0x4010 + g.val) 1 on.toNat)

end Sys2Proof.Machine
end

