-- ==== Sys2Proof/Machine/CmdProtocol.lean ====
section
/-!
DEFINITION. Sys2Proof/Machine/CmdProtocol.lean: the commands of TPP and the object dictionary. Each is an effect on the device, defined with its unit;
a command whose condition does not hold has no effect (log 5), and every unit then follows (`Chip.after`).
-/

namespace Sys2Proof.Machine

/-- READ (12 R318): A TPP READ returns one subindex. -/
def execRead (q : Envelope) (idx : Nat) (sub : Nat) (s : State) : Host.Outcome State Fault Refusal :=
  s.act (fun c => c.ask q (.read idx sub))

/-- WRITE (12 R315): A TPP WRITE to a subindex without its own behaviour is checked and applied. -/
def execWrite (q : Envelope) (idx : Nat) (sub : Nat) (ty : Nat) (data : List Nat) (s : State) :
    Host.Outcome State Fault Refusal :=
  s.act (fun c => c.ask q (.write idx sub ty data))

/-- MULTI_READ (12 R318): A TPP MULTI_READ returns up to 32 items in one pass. -/
def execMultiRead (q : Envelope) (items : List (Nat × Nat)) (s : State) : Host.Outcome State Fault Refusal :=
  s.act (fun c => c.ask q (.multiRead items))

/-- SEG_READ_INIT (12 R319): A segmented read opens with a snapshot and a token. -/
def execSegReadInit (q : Envelope) (idx : Nat) (sub : Nat) (s : State) : Host.Outcome State Fault Refusal :=
  s.act (fun c => c.ask q (.segReadInit idx sub))

/-- SEG_READ_NEXT (12 R319): A segment of an open segmented read is returned. -/
def execSegReadNext (q : Envelope) (token : Nat) (segment : Nat) (maxLen : Nat) (s : State) :
    Host.Outcome State Fault Refusal :=
  s.act (fun c => c.ask q (.segReadNext token segment maxLen))

/-- SEG_WRITE_INIT (12 R319): A segmented write opens with its total length. -/
def execSegWriteInit (q : Envelope) (idx : Nat) (sub : Nat) (ty : Nat) (total : Nat) (s : State) :
    Host.Outcome State Fault Refusal :=
  s.act (fun c => c.ask q (.segWriteInit idx sub ty total))

/-- SEG_WRITE_NEXT (12 R319): A segment of a segmented write is stored, and at LAST the write is checked and applied. -/
def execSegWriteNext (q : Envelope) (token : Nat) (last : Bool) (segment : Nat) (data : List Nat) (s : State) :
    Host.Outcome State Fault Refusal :=
  s.act (fun c => c.ask q (.segWriteNext token last segment data))

/-- ABORT (12 R322): A requester's ABORT closes an open segmented transfer. -/
def execAbort (q : Envelope) (idx : Nat) (sub : Nat) (token : Nat) (code : Nat) (info : Nat) (s : State) :
    Host.Outcome State Fault Refusal :=
  s.act (fun c => c.ask q (.abort idx sub token code info))

/-- TRANSFER_TIMEOUT (12 R319): A transfer with no request for 2 s is closed. -/
def execTransferTimeout (token : Nat) (s : State) : Host.Outcome State Fault Refusal :=
  s.act (fun c => c.transferTimeout token)

/-- COUNTERS_CLEAR (12 R308): A write of 0 to :00 of a counter object clears all its counters. -/
def execCountersClear (q : Envelope) (idx : Nat) (s : State) : Host.Outcome State Fault Refusal :=
  s.act (fun c => c.askWrite q idx 0 0)

/-- WRITE_PDU (12 R332): A QSPI WRITE_PDU places one request in the inbox, or is discarded. -/
def execWritePdu (len : Nat) (bytes : List Nat) (midByte : Bool) (s : State) : Host.Outcome State Fault Refusal :=
  s.act (fun c => c.writePdu len bytes midByte)

/-- READ_PDU (12 R332): A QSPI READ_PDU returns the oldest response from the outbox. -/
def execReadPdu (complete : Bool) (s : State) : Host.Outcome State Fault Refusal :=
  s.act (fun c => c.readPdu complete)

/-- READ_STATUS (12 R332): A QSPI READ_STATUS returns the status byte. -/
def execReadStatus (s : State) : Host.Outcome State Fault Refusal :=
  s.act (fun c => c.readStatus)

/-- CLEAR_STATUS (12 R332): A QSPI CLEAR_STATUS clears OVERRUN and FRAMING_ERROR by mask. -/
def execClearStatus (bytes : List Nat) (midByte : Bool) (s : State) : Host.Outcome State Fault Refusal :=
  s.act (fun c => c.clearStatus bytes midByte)

/-- PEER_ENTRY_WRITE (12 R325): A write of a peer subindex is recorded in the NV security region before it takes effect. -/
def execPeerEntryWrite (q : Envelope) (n : Fin 32) (sub : Nat) (value : Nat) (s : State) :
    Host.Outcome State Fault Refusal :=
  s.act (fun c => c.askWrite q (0x1110 + n.val) sub value)

/-- PEER_KEY_WRITE (12 R328): A write of a peer KEY resets its sequence counters and floors. -/
def execPeerKeyWrite (q : Envelope) (n : Fin 32) (key : List Nat) (s : State) : Host.Outcome State Fault Refusal :=
  s.act (fun c => c.askBytes q (0x1110 + n.val) 3 key)

/-- SEQUENCE_FLOOR_RECORD (12 R328): A sequence counter crosses a multiple of 65,536 and its floor is recorded. -/
def execSequenceFloorRecord (n : Fin 32) (tx : Bool) (s : State) : Host.Outcome State Fault Refusal :=
  s.act (fun c => c.floorRecord n.val tx)

end Sys2Proof.Machine
end

