-- ==== Sys2Proof/Machine/CmdReaction.lean ====
section
/-!
DEFINITION. Sys2Proof/Machine/CmdReaction.lean: the commands of faults, power and wake. Each is an effect on the device, defined with its unit;
a command whose condition does not hold has no effect (log 5), and every unit then follows (`Chip.after`).
-/

namespace Sys2Proof.Machine

/-- CHIP_RESET (13 R352): A fault chip reset resets every switched domain and restarts the Steward with cause fault. -/
def execChipReset (s : State) : Host.Outcome State Fault Refusal :=
  s.act (fun c => c.faultReset)

/-- PF_CLEAR (14 R370): Supplies have been good for 10 ms and PF_ACTIVE clears, resuming the target state. -/
def execPfClear (s : State) : Host.Outcome State Fault Refusal :=
  s.act (fun c => c.pfClear)

/-- RAIL_PAIR_BROKEN (13 R339): A dual-rail pair reads equal rails on two consecutive cycles and F000 asserts. -/
def execRailPairBroken (src : Fin 128) (high : Bool) (s : State) : Host.Outcome State Fault Refusal :=
  s.act (fun c => c.breakPair src.val high false)

/-- FAULT_ASSERTION (13 R341): A fault source asserts; its pennant, capture, escalation and reaction are applied. -/
def execFaultAssertion (src : Fin 128) (inst : Nat) (detail : Nat) (access : Option Access) (s : State) :
    Host.Outcome State Fault Refusal :=
  s.act (fun c => c.assertion src.val inst detail access)

/-- FAULT_TRAP (13 R345): The Steward takes a waiting trap in class and source order. -/
def execFaultTrap (s : State) : Host.Outcome State Fault Refusal :=
  s.act (fun c => c.trapTake)

/-- ERR_WIDTH_EXPIRY (13 R349): ERR_N's minimum low time ends and it returns high or stays held. -/
def execErrWidthExpiry (s : State) : Host.Outcome State Fault Refusal :=
  s.act (fun c => c.errWidthEnd)

/-- ERR_RELEASE (13 R349): A write of ERR_RELEASE releases a held ERR_N. -/
def execErrRelease (q : Envelope) (s : State) : Host.Outcome State Fault Refusal :=
  s.act (fun c => c.askWrite q 0x9000 3 1)

/-- CAPTURE_RELEASE (13 R348): A write of RELEASE clears the fault capture and arms it. -/
def execCaptureRelease (q : Envelope) (s : State) : Host.Outcome State Fault Refusal :=
  s.act (fun c => c.askWrite q 0x9010 9 1)

/-- PENNANT_CLEAR (13 R353): A write of CLEAR lowers one pennant if its source is not live. -/
def execPennantClear (q : Envelope) (src : Fin 128) (s : State) : Host.Outcome State Fault Refusal :=
  s.act (fun c => c.askWrite q (0x9100 + src.val) 2 1)

/-- CLEAR_ALL (13 R353): A write of CLEAR_ALL lowers every pennant whose source is not live. -/
def execClearAll (q : Envelope) (s : State) : Host.Outcome State Fault Refusal :=
  s.act (fun c => c.askWrite q 0x9000 7 1)

/-- FORCE (13 R354): A write of FORCE drives a source asserted or breaks its rails. -/
def execForce (q : Envelope) (src : Fin 128) (value : Nat) (s : State) : Host.Outcome State Fault Refusal :=
  s.act (fun c => c.askWrite q (0x9100 + src.val) 4 value)

/-- SUPPLY_GOOD_CHANGE (14 R357): A monitored supply becomes good or bad and waiting wakes proceed or wait. -/
def execSupplyGoodChange (rail : Fin 5) (good : Bool) (s : State) : Host.Outcome State Fault Refusal :=
  s.act (fun c => c.supplyChange rail.val good)

/-- CORE_SUPPLY_LOSS (14 R358): VDD_CORE leaves its range with a domain awake and every switched domain is isolated. -/
def execCoreSupplyLoss (s : State) : Host.Outcome State Fault Refusal :=
  s.act (fun c => c.coreLoss)

/-- POWER_TARGET_WRITE (14 R366): A write of POWER_TARGET requests a power state. -/
def execPowerTargetWrite (q : Envelope) (target : Nat) (s : State) : Host.Outcome State Fault Refusal :=
  s.act (fun c => c.askWrite q 0xA000 1 target)

/-- POWER_DOWN_TRANSITION (14 R367): At the end of the next deal's processing, domains stop in order for a lower state. -/
def execPowerDownTransition (s : State) : Host.Outcome State Fault Refusal :=
  s.act (fun c => c.moveDown)

/-- WAKE_ADMIT (14 R374): The sequencer admits a queued wake within the inrush budget. -/
def execWakeAdmit (s : State) : Host.Outcome State Fault Refusal :=
  s.act (fun c => c.wakeAdmit)

/-- DOMAIN_WAKE_COMPLETE (14 R373): A waking domain's clock starts, its units are charged and it becomes usable. -/
def execDomainWakeComplete (d : Dom) (s : State) : Host.Outcome State Fault Refusal :=
  s.act (fun c => c.wakeDone d)

/-- WAKE_TIMEOUT (14 R376): A wake has not completed by twice its maximum time and is abandoned. -/
def execWakeTimeout (d : Dom) (s : State) : Host.Outcome State Fault Refusal :=
  s.act (fun c => c.wakeTimeout d)

/-- RAIL_PAIR_RESTORED (13 R339): A broken rail pair reads valid on two consecutive cycles, so BROKEN clears and the live bit follows the pair again. -/
def execRailPairRestored (src : Fin 128) (s : State) : Host.Outcome State Fault Refusal :=
  s.act (fun c => c.restorePair src.val)

/-- FAULT_DEASSERTION (13 R340): The live bit of a condition source returns to 0, for example F005 when the die falls below 120 °C. -/
def execFaultDeassertion (src : Fin 128) (s : State) : Host.Outcome State Fault Refusal :=
  s.act (fun c => c.drop src.val)

end Sys2Proof.Machine
end

