-- ==== Sys2Proof/Machine/CmdRecord.lean ====
section
/-!
DEFINITION. Sys2Proof/Machine/CmdRecord.lean: the commands of the parameter store, the NV array and the scorecard. Each is an effect on the device, defined with its unit;
a command whose condition does not hold has no effect (log 5), and every unit then follows (`Chip.after`).
-/

namespace Sys2Proof.Machine

/-- NV_PROGRAM_COMPLETE (11 R284): An NV program ends with its verify, retrying or failing on mismatch. -/
def execNvProgramComplete (verified : Bool) (s : State) : Host.Outcome State Fault Refusal :=
  s.act (fun c => c.nvComplete verified)

/-- NV_REFRESH_READ (11 R286): A page is read at margin and rewritten if any bit fails. -/
def execNvRefreshRead (page : Fin 4096) (weak : Bool) (s : State) : Host.Outcome State Fault Refusal :=
  s.act (fun c => c.nvRefresh page.val weak)

/-- STORE_WRITE_START (11 R291): The hold-off and interval have passed and a parameter-store record write starts. -/
def execStoreWriteStart (s : State) : Host.Outcome State Fault Refusal :=
  s.act (fun c => c.storeTimer)

/-- SAVE (11 R291): A write of SAVE starts a store write at once. -/
def execSave (q : Envelope) (s : State) : Host.Outcome State Fault Refusal :=
  s.act (fun c => c.askWrite q 0x8010 4 1)

/-- FLUSH_TRIGGER (11 R292): PWR_FAIL_N falls or VDD_MAST drops below its flush threshold: the flush and the entry to PF_STATE begin. -/
def execFlushTrigger (monitor : Bool) (s : State) : Host.Outcome State Fault Refusal :=
  s.act (fun c => c.pwrFail monitor)

/-- PWR_FAIL_RELEASE (11 R292): PWR_FAIL_N is released without VDD_MAST falling and POWER_RESTORED is carded. -/
def execPwrFailRelease (s : State) : Host.Outcome State Fault Refusal :=
  s.act (fun c => c.pwrRelease)

/-- MINUTE_CLOSE (11 R298): 20 ms into the next minute, or at a step, the minute card is queued. -/
def execMinuteClose (s : State) : Host.Outcome State Fault Refusal :=
  s.act (fun c => c.minuteTimer)

/-- CARD_WRITE (11 R294): The Steward writes queued cards into the next ring slot as body and commit programs. -/
def execCardWrite (s : State) : Host.Outcome State Fault Refusal :=
  s.act (fun c => c.cardWrite)

/-- SEAL_SIGNATURE_COMPLETE (11 R302): The SGN returns the signature and the three seal cards are written. -/
def execSealSignatureComplete (s : State) : Host.Outcome State Fault Refusal :=
  s.act (fun c => c.sealSigned)

/-- SIGN_TIMEOUT (11 R303): The SGN produces no signature within 20 ms and the seal is written unsigned. -/
def execSignTimeout (s : State) : Host.Outcome State Fault Refusal :=
  s.act (fun c => c.sealTimeout)

/-- ACK_SEQ_WRITE (11 R304): A write of ACK_SEQ acknowledges cards and queues an ACK card. -/
def execAckSeqWrite (q : Envelope) (seq : Nat) (s : State) : Host.Outcome State Fault Refusal :=
  s.act (fun c => c.askWrite q 0x8102 1 seq)

/-- CARD_READ (11 R306): A read of CARDS returns up to COUNT cards from FROM_SEQ. -/
def execCardRead (q : Envelope) (s : State) : Host.Outcome State Fault Refusal :=
  s.act (fun c => c.ask q (.read 0x8101 3))

end Sys2Proof.Machine
end

