-- ==== Sys2Proof/Machine/CmdRefs.lean ====
section
/-!
DEFINITION. Sys2Proof/Machine/CmdRefs.lean: the commands of references, candidates and edge measurement. Each is an effect on the device, defined with its unit;
a command whose condition does not hold has no effect (log 5), and every unit then follows (`Chip.after`).
-/

namespace Sys2Proof.Machine

/-- LO_STARTUP_TIMEOUT (02 R65): The LO is declared absent when presence has not been declared 100 ms after reset release. -/
def execLoStartupTimeout (s : State) : Host.Outcome State Fault Refusal :=
  s.act (fun c => c.loLate)

/-- LO_ABSENT_DECLARED (02 R65): No LO edge for 1 µs: the LO is declared absent, candidates go ABSENT, the counter moves to RC and the model resets. -/
def execLoAbsentDeclared (s : State) : Host.Outcome State Fault Refusal :=
  s.act (fun c => c.loAbsent)

/-- LO_PRESENT_DECLARED (02 R65): After 32 RC cycles without a gap, the LO is declared present and the counter returns to LO ticks. -/
def execLoPresentDeclared (s : State) : Host.Outcome State Fault Refusal :=
  s.act (fun c => c.loFound)

/-- PLUG_UNPLUG_ACCEPTED (02 R48): Four unplugged samples accept an unplug and the candidate enters ABSENT with PLUG_OUT. -/
def execPlugUnplugAccepted (n : Fin 16) (s : State) : Host.Outcome State Fault Refusal :=
  s.act (fun c => c.unplug n.val)

/-- PLUG_IN_ACCEPTED (02 R49): PLUGn has read plugged for PLUG_DEBOUNCE and a plug-in is accepted, counted and posted. -/
def execPlugInAccepted (n : Fin 16) (s : State) : Host.Outcome State Fault Refusal :=
  s.act (fun c => c.plugIn n.val)

/-- CANDIDATE_RECONFIGURE (02 R56): A write to candidate subindices :02 to :07 or USER_OFFSET sends an enabled candidate through ABSENT with RECONFIGURED. -/
def execCandidateReconfigure (q : Envelope) (idx : Nat) (sub : Nat) (data : List Nat) (s : State) :
    Host.Outcome State Fault Refusal :=
  s.act (fun c => c.askBytes q idx sub data)

/-- REFERENCE_EDGE (03 R79): An edge arrives; one that hold-off and pre-divider pass (02 R44, R45) reaches the lane and is treated
according to the converter state. -/
def execReferenceEdge (lane : Fin 24) (instant : Nat) (falling : Bool) (s : State) : Host.Outcome State Fault Refusal :=
  s.act (fun c => c.refEdge lane.val instant falling)

/-- CONVERSION_COMPLETE (03 R76): A conversion completes and the lane forms the sample's PHASE and COARSE. -/
def execConversionComplete (lane : Fin 24) (m : RingCounts) (s : State) : Host.Outcome State Fault Refusal :=
  s.act (fun c => c.convert lane.val (rawCode m))

/-- SAMPLE_DELIVERY (03 R78): A sample reaches the monitors and selection logic in LOOP and is judged for outliers and phase jumps. -/
def execSampleDelivery (lane : Fin 24) (s : State) : Host.Outcome State Fault Refusal :=
  s.act (fun c => c.sampleDelivery lane.val)

/-- CAL_PREDICTED_PAIR_START (03 R75): A lane starts a predicted calibration pair 16 cycles before the predicted edge. -/
def execCalPredictedPairStart (lane : Fin 24) (cycle : Nat) (s : State) : Host.Outcome State Fault Refusal :=
  s.act (fun c => c.calPredicted lane.val cycle)

/-- CAL_REFRESH_DUE (03 R75): CAL_REFRESH has passed since the last pair and a refresh pair starts. -/
def execCalRefreshDue (lane : Fin 24) (cycle : Nat) (s : State) : Host.Outcome State Fault Refusal :=
  s.act (fun c => c.calRefresh lane.val cycle)

/-- CAL_PAIR_COMPLETE (03 R74): A calibration pair completes and is judged valid or rejected. -/
def execCalPairComplete (lane : Fin 28) (m1 m2 : RingCounts) (cycle : Nat) (s : State) :
    Host.Outcome State Fault Refusal :=
  s.act (fun c => c.pairDone lane.val (rawCode m1) (rawCode m2) cycle)

/-- CAL_FAIL_TIMEOUT (03 R74): 1 ms after the last valid pair, the lane stops delivering and shows CAL_FAILED. -/
def execCalFailTimeout (lane : Fin 28) (s : State) : Host.Outcome State Fault Refusal :=
  s.act (fun c => c.calFail lane.val)

/-- MCLK_LOCK_WINDOW_END (03 R69): A measurement-clock lock window ends and its count declares loss or lock. -/
def execMclkLockWindowEnd (count : Nat) (s : State) : Host.Outcome State Fault Refusal :=
  s.act (fun c => c.mclkWindowEnd count)

/-- ACTIVITY_TIMEOUT (02 R56): No pre-divided edge for ACT_LIMIT / 8 periods fails the activity monitor. -/
def execActivityTimeout (lane : Fin 24) (s : State) : Host.Outcome State Fault Refusal :=
  s.act (fun c => c.actFail lane.val)

/-- FREQUENCY_EVALUATION (02 R52): At each whole second, the frequency monitor fits y, runs the gross check and updates the LO offset. -/
def execFrequencyEvaluation (s : State) : Host.Outcome State Fault Refusal :=
  s.act (fun c => c.freqEvalAll)

/-- SOAK_END (02 R58): The soak duration has elapsed and the candidate enters QUALIFIED if its conditions hold. -/
def execSoakEnd (n : Fin 28) (s : State) : Host.Outcome State Fault Refusal :=
  s.act (fun c => c.soakEnd n.val)

/-- NO_SIGNAL_TIMEOUT (02 R56): A candidate DISQUALIFIED for ACTIVITY without signal for ABSENT_AFTER enters ABSENT with NO_SIGNAL. -/
def execNoSignalTimeout (n : Fin 28) (s : State) : Host.Outcome State Fault Refusal :=
  s.act (fun c => c.noSignal n.val)

/-- PKT_SAMPLE (02 R47): A servo writes a sample to the PKT mailbox, where it is kept or discarded for uncertainty. -/
def execPktSample (k : Fin 4) (s : State) : Host.Outcome State Fault Refusal :=
  s.act (fun c => c.servoWrite k.val)

/-- PKT_ACTIVITY_TIMEOUT (02 R56): No kept PKT sample for PKT_TIMEOUT fails the activity monitor. -/
def execPktActivityTimeout (k : Fin 4) (s : State) : Host.Outcome State Fault Refusal :=
  s.act (fun c => c.actFail (24 + k.val))

/-- TOD_BINARY_MESSAGE (02 R455): A binary time message is received and checked for length, CRC, type and window. -/
def execTodBinaryMessage (bytes : List Nat) (s : State) : Host.Outcome State Fault Refusal :=
  s.act (fun c => c.todBinary bytes)

/-- TOD_NMEA_SENTENCE (02 R62): An NMEA RMC or ZDA sentence is received and checked. -/
def execTodNmeaSentence (chars : List Nat) (s : State) : Host.Outcome State Fault Refusal :=
  s.act (fun c => c.todNmea chars)

/-- TOD_EDGE_JUDGEMENT (02 R456): An edge of PPS_REF is judged: its seconds, rank and accuracy are decided and TOD_VALID is updated. -/
def execTodEdgeJudgement (s : State) : Host.Outcome State Fault Refusal :=
  s.act (fun c => c.todJudge)

/-- TOD_TIMEOUT (02 R63): TOD_VALID has been 0 for TOD_TIMEOUT while TOD_REQUIRED is 1, so the time-of-day monitor fails. -/
def execTodTimeout (s : State) : Host.Outcome State Fault Refusal :=
  s.act (fun c => c.todTimeout)

/-- TOD_TRANSMIT (02 R64): TX_DELAY after a TX_TTU pulse, the device sends one binary message describing it. -/
def execTodTransmit (s : State) : Host.Outcome State Fault Refusal :=
  s.act (fun c => c.todTransmit)

/-- AUX_EDGE (03 R82): An edge from an auxiliary source is measured by converter X or Y, or captured coarse-only. -/
def execAuxEdge (a : Fin 2) (src : Nat) (falling : Bool) (cycle : Nat) (m : RingCounts) (s : State) :
    Host.Outcome State Fault Refusal :=
  s.act (fun c => c.auxEdge a.val src falling cycle (rawCode m))

/-- AUX_CALIBRATION_DUE (03 R82): An auxiliary converter's pair is 1,280 cycles old and it calibrates, Y after X. -/
def execAuxCalibrationDue (a : Fin 2) (y : Bool) (s : State) : Host.Outcome State Fault Refusal :=
  s.act (fun c => c.auxCalDue a.val y)

/-- TIA_ARM_SINGLE (03 R84): A write of ARM 0x01 starts a single time-interval measurement. -/
def execTiaArmSingle (q : Envelope) (a : Fin 2) (s : State) : Host.Outcome State Fault Refusal :=
  s.act (fun c => c.askWrite q (0x2160 + a.val) 1 1)

/-- TIA_ARM_CONTINUOUS (03 R84): A write of ARM 0x02 starts continuous time-interval measurement. -/
def execTiaArmContinuous (q : Envelope) (a : Fin 2) (s : State) : Host.Outcome State Fault Refusal :=
  s.act (fun c => c.askWrite q (0x2160 + a.val) 1 2)

/-- TIA_DISARM (03 R84): A write of ARM 0x00 stops the time-interval unit. -/
def execTiaDisarm (q : Envelope) (a : Fin 2) (s : State) : Host.Outcome State Fault Refusal :=
  s.act (fun c => c.askWrite q (0x2160 + a.val) 1 0)

/-- STOP_HOLD_EXPIRY (03 R86): In unsigned mode, a stop held for 8 cycles without a matching start is judged earlier than the start. -/
def execStopHoldExpiry (a : Fin 2) (s : State) : Host.Outcome State Fault Refusal :=
  s.act (fun c => c.stopExpire a.val)

/-- TIA_TIMEOUT (03 R85): A pair is incomplete TIMEOUT after arming: TIMEOUT is set and counted. -/
def execTiaTimeout (a : Fin 2) (s : State) : Host.Outcome State Fault Refusal :=
  s.act (fun c => c.tiaTimeout a.val)

/-- TIA_RESULT_READ (03 R87): A read of RESULT clears VALID and OVERWRITTEN. -/
def execTiaResultRead (q : Envelope) (a : Fin 2) (s : State) : Host.Outcome State Fault Refusal :=
  s.act (fun c => c.ask q (.read (0x2168 + a.val) 2))

/-- TRIG_EDGE_CAPTURE (03 R88): An enabled TRIG edge is timestamped and appended to the capture FIFO, or lost. -/
def execTrigEdgeCapture (pin : Fin 4) (falling : Bool) (cycle : Nat) (m : RingCounts) (s : State) :
    Host.Outcome State Fault Refusal :=
  s.act (fun c => c.capture pin.val falling cycle (rawCode m))

/-- CAPTURE_HEAD_READ (03 R88): A read of CAPTURE_HEAD removes and returns the oldest capture. -/
def execCaptureHeadRead (q : Envelope) (s : State) : Host.Outcome State Fault Refusal :=
  s.act (fun c => c.ask q (.read 0x2171 1))

/-- CAPTURE_LOST_CLEAR (03 R89): A write of 0 to LOST clears it and re-arms FIRST_LOST_SEQ. -/
def execCaptureLostClear (q : Envelope) (s : State) : Host.Outcome State Fault Refusal :=
  s.act (fun c => c.askWrite q 0x2170 4 0)

end Sys2Proof.Machine
end

