-- ==== Sys2Proof/Machine/CmdService.lean ====
section
/-!
DEFINITION. Sys2Proof/Machine/CmdService.lean: the commands of hands, tricks and sessions. Each is an effect on the device, defined with its unit;
a command whose condition does not hold has no effect (log 5), and every unit then follows (`Chip.after`).
-/

namespace Sys2Proof.Machine

/-- DEAL_CLOSE (09 R245): At the guard start, rings close for the closing hand, engine stamps are discarded and the drain begins. -/
def execDealClose (s : State) : Host.Outcome State Fault Refusal :=
  s.act (fun c => c.dealStep1)

/-- DEAL_DISCARD (09 R245): At the drain limit, residue is discarded, then write-back, clear, commit, prepare and prefetch run. -/
def execDealDiscard (s : State) : Host.Outcome State Fault Refusal :=
  s.act (fun c => c.dealStep3)

/-- DEAL_INSTANT (09 R246): At the deal instant, HAND_NUMBER advances. -/
def execDealInstant (s : State) : Host.Outcome State Fault Refusal :=
  s.act (fun c => c.dealInstant)

/-- TRICK_WRITE (09 R236): A write of TRICKS stores trick entries into the idle bank. -/
def execTrickWrite (q : Envelope) (p : Fin 8) (data : List Nat) (s : State) : Host.Outcome State Fault Refusal :=
  s.act (fun c => c.askBytes q (0x6010 + p.val) 2 data)

/-- IDLE_COUNT_WRITE (09 R236): A write of IDLE_COUNT sets the idle bank's entry count. -/
def execIdleCountWrite (q : Envelope) (p : Fin 8) (count : Nat) (s : State) : Host.Outcome State Fault Refusal :=
  s.act (fun c => c.askWrite q (0x6008 + p.val) 3 count)

/-- SWAP_AT_WRITE (09 R238): A write of SWAP_AT validates the idle bank and makes a swap pending, or cancels one. -/
def execSwapAtWrite (q : Envelope) (p : Fin 8) (hand : Nat) (s : State) : Host.Outcome State Fault Refusal :=
  s.act (fun c => c.askWrite q (0x6008 + p.val) 4 hand)

/-- TRICK_COMPOSE (09 R239): COMPOSE_LEAD before a trick, the serving engine composes its due frames into the SCHED ring. -/
def execTrickCompose (p : Fin 8) (late : Bool) (miss : Bool) (s : State) : Host.Outcome State Fault Refusal :=
  s.act (fun c => c.trickCompose p.val late miss)

/-- TRICK_START (09 R239): At a trick's start, the MAC starts its first frame or hands it to the LTU. -/
def execTrickStart (p : Fin 8) (ps : Nat) (s : State) : Host.Outcome State Fault Refusal :=
  s.act (fun c => c.trickStart p.val ps)

/-- TRICK_END (09 R241): At a trick's end, unstarted frames are discarded and the trick's outcome is counted. -/
def execTrickEnd (p : Fin 8) (s : State) : Host.Outcome State Fault Refusal :=
  s.act (fun c => c.trickEnd p.val)

/-- DOZE_ENTRY (09 R251): A domain with no pending work and a distant next need dozes. -/
def execDozeEntry (d : Dom) (s : State) : Host.Outcome State Fault Refusal :=
  s.act (fun c => c.dozeEnter d)

/-- DOZE_WAKE_REQUEST (09 R251): At its next need less wake time and margin, a dozing domain asks for its wake. -/
def execDozeWakeRequest (d : Dom) (s : State) : Host.Outcome State Fault Refusal :=
  s.act (fun c => c.dozeWake d)

/-- SESSION_HOST_WRITE (10 R258): A write of HOST fills the session window buffer. -/
def execSessionHostWrite (q : Envelope) (data : List Nat) (s : State) : Host.Outcome State Fault Refusal :=
  s.act (fun c => c.askBytes q 0x6100 2 data)

/-- SESSION_COMMIT (10 R257): A write of COMMIT checks the window buffer and queues a commit. -/
def execSessionCommit (q : Envelope) (s : State) : Host.Outcome State Fault Refusal :=
  s.act (fun c => c.askWrite q 0x6100 4 1)

/-- PTP_DELAY_REQ_RECEIVE (10 R264): A Delay_Req or Pdelay_Req is accepted and copied into the session's pending fields. -/
def execPtpDelayReqReceive (p : Fin 8) (s : State) : Host.Outcome State Fault Refusal :=
  s.act (fun c => c.delayReq p.val)

/-- REQUEST_UNICAST_TRANSMISSION (10 R270): A unicast grant request is granted, denied or refused, possibly creating a session from the pool. -/
def execRequestUnicastTransmission (p : Fin 8) (s : State) : Host.Outcome State Fault Refusal :=
  s.act (fun c => c.unicastRequest p.val)

/-- CANCEL_UNICAST_TRANSMISSION (10 R272): A peer's cancel ends the named grants at once and is acknowledged. -/
def execCancelUnicastTransmission (p : Fin 8) (s : State) : Host.Outcome State Fault Refusal :=
  s.act (fun c => c.unicastCancel p.val)

/-- GRANT_EXPIRY (10 R272): Every grant of a session has expired and it becomes EXPIRED, releasing MODE 3 entries. -/
def execGrantExpiry (index : Nat) (s : State) : Host.Outcome State Fault Refusal :=
  s.act (fun c => c.grantExpiry index)

/-- PTP_ANNOUNCE_RECEIVE (10 R277): A servo accepts an Announce and runs master selection. -/
def execPtpAnnounceReceive (k : Fin 4) (s : State) : Host.Outcome State Fault Refusal :=
  s.act (fun c => c.servoAnnounce k.val)

/-- PTP_SYNC_RECEIVE (10 R278): A servo receives a Sync and records t1 and t2. -/
def execPtpSyncReceive (k : Fin 4) (s : State) : Host.Outcome State Fault Refusal :=
  s.act (fun c => c.servoSync k.val)

/-- PTP_FOLLOW_UP_RECEIVE (10 R278): A servo receives a Follow_Up carrying t1. -/
def execPtpFollowUpReceive (k : Fin 4) (s : State) : Host.Outcome State Fault Refusal :=
  s.act (fun c => c.servoFollow k.val)

/-- PTP_DELAY_RESP_RECEIVE (10 R278): A Delay_Resp completes an exchange and the servo computes the offset. -/
def execPtpDelayRespReceive (k : Fin 4) (s : State) : Host.Outcome State Fault Refusal :=
  s.act (fun c => c.servoDelayResp k.val)

/-- ANNOUNCE_RECEIPT_TIMEOUT (10 R277): No Announce from the selected master for announceReceiptTimeout deselects it. -/
def execAnnounceReceiptTimeout (k : Fin 4) (s : State) : Host.Outcome State Fault Refusal :=
  s.act (fun c => c.announceTimeout k.val)

/-- SERVO_GRANT_RENEWAL (10 R277): At half the granted duration, the servo renews its grants. -/
def execServoGrantRenewal (k : Fin 4) (s : State) : Host.Outcome State Fault Refusal :=
  s.act (fun c => c.servoRequest k.val)

/-- TC_FORWARD (10 R279): A PTP frame on a TC port is forwarded out of the other TC ports with residence time. -/
def execTcForward (p : Fin 8) (s : State) : Host.Outcome State Fault Refusal :=
  s.act (fun c => c.tcForward p.val)

/-- TC_FOLLOW_UP_TIMEOUT (10 R279): A held two-step correction is dropped after one hand without its Follow_Up. -/
def execTcFollowUpTimeout (p : Fin 8) (s : State) : Host.Outcome State Fault Refusal :=
  s.act (fun c => c.tcTimeout p.val)

/-- MULTICAST_DELAY_RESP (10 R266): A multicast session answers Delay_Req by multicast Delay_Resp as best-effort work. -/
def execMulticastDelayResp (p : Fin 8) (s : State) : Host.Outcome State Fault Refusal :=
  s.act (fun c => c.multicastResp p.val)

/-- ESMC_PDU_RECEIVE (10 R280): An ESMC PDU is checked and its quality level written to PREFp. -/
def execEsmcPduReceive (p : Fin 8) (s : State) : Host.Outcome State Fault Refusal :=
  s.act (fun c => c.esmcReceive p.val)

/-- ESMC_QL_TIMEOUT (10 R280): No usable PDU for 5 s writes QL-FAILED. -/
def execEsmcQlTimeout (p : Fin 8) (s : State) : Host.Outcome State Fault Refusal :=
  s.act (fun c => c.esmcTimeout p.val)

/-- ESMC_INFORMATION_PDU (10 R281): Each second, an enabled port sends an ESMC information PDU. -/
def execEsmcInformationPdu (p : Fin 8) (s : State) : Host.Outcome State Fault Refusal :=
  s.act (fun c => c.esmcSend p.val false)

/-- ESMC_EVENT_PDU (10 R281): A change of the quality level sent triggers an event PDU within one hand. -/
def execEsmcEventPdu (p : Fin 8) (s : State) : Host.Outcome State Fault Refusal :=
  s.act (fun c => c.esmcSend p.val true)

/-- SA_ENTRY_WRITE (10 R275): A write of SA ENTRY stores a security association and clears KEY_ERASED. -/
def execSaEntryWrite (q : Envelope) (data : List Nat) (s : State) : Host.Outcome State Fault Refusal :=
  s.act (fun c => c.askBytes q 0x6280 2 data)

/-- PDELAY_RESP_RECEIVE (10 R278): A Pdelay_Resp, with its follow-up when two-step, completes a peer-delay measurement and updates the port's peer delay. -/
def execPdelayRespReceive (p : Fin 8) (s : State) : Host.Outcome State Fault Refusal :=
  s.act (fun c => c.pdelayResp p.val)

/-- SERVO_GRANT_RESPONSE (10 R277): A servo receives a grant or a denial for its unicast request and moves between negotiating and running, counting GRANT_DENIALS. -/
def execServoGrantResponse (k : Fin 4) (s : State) : Host.Outcome State Fault Refusal :=
  s.act (fun c => c.servoGranted k.val)

/-- SERVO_DELAY_REQ (10 R278): A servo with no SERVO trick in the active plan sends Delay_Req as best-effort work at its LOG_DELAY interval. -/
def execServoDelayReq (k : Fin 4) (s : State) : Host.Outcome State Fault Refusal :=
  s.act (fun c => c.servoDelayReq k.val)

/-- PREFETCH_END (09 R247): Step 8 of a deal ends after the deal instant, and step 9 takes effect then as a deal overrun. -/
def execPrefetchEnd (s : State) : Host.Outcome State Fault Refusal :=
  s.act (fun c => c.prefetchEnd)

end Sys2Proof.Machine
end

