-- ==== Sys2Proof/Machine/CmdStart.lean ====
section
/-!
DEFINITION. Sys2Proof/Machine/CmdStart.lean: the commands of reset, start-up, the LO, the engine clock and self-test. Each is an effect on the device, defined with its unit;
a command whose condition does not hold has no effect (log 5), and every unit then follows (`Chip.after`).
-/

namespace Sys2Proof.Machine

/-- MAST_POWER_UP (17 R407): VDD_MAST rises through its power-on threshold and MAST starts from reset, restarting the time counter. -/
def execMastPowerUp (s : State) : Host.Outcome State Fault Refusal :=
  s.act (fun c => c.mastPowerUp)

/-- MAST_RESET (19 R436): VDD_MAST falls below the reset threshold and MAST is reset. -/
def execMastReset (groupsDone : Nat) (s : State) : Host.Outcome State Fault Refusal :=
  s.act (fun c => c.mastReset groupsDone)

/-- STEWARD_START (17 R410): The Steward starts and runs the start-up steps: patch, lifecycle, ring scan, parameter store and domain wakes. -/
def execStewardStart (straps : Fin 8) (testMode : Fin 4) (s : State) : Host.Outcome State Fault Refusal :=
  s.act (fun c => c.stewardStart straps.val testMode.val)

/-- POST_COMPLETE (17 R410): The power-on self-test ends and its result decides between continuing and RECOVERY. -/
def execPostComplete (cells : Nat) (planFail : Bool) (engines : Nat) (lanes : Nat) (rails : Nat) (monitors : Nat) (s : State) :
    Host.Outcome State Fault Refusal :=
  s.act (fun c => c.postComplete cells planFail engines lanes rails monitors)

/-- RST_N_ASSERT (17 R408): A low level on RST_N resets and holds every switched domain. -/
def execRstNAssert (s : State) : Host.Outcome State Fault Refusal :=
  s.act (fun c => c.rstFall)

/-- RST_N_RELEASE (17 R408): RST_N rises and start-up continues from the INIT step. -/
def execRstNRelease (s : State) : Host.Outcome State Fault Refusal :=
  s.act (fun c => c.rstRise)

/-- SOFTWARE_RESET (17 R408): A write of 0x0052_5354 to RESET acts as a 1 µs RST_N pulse. -/
def execSoftwareReset (q : Envelope) (value : Nat) (s : State) : Host.Outcome State Fault Refusal :=
  s.act (fun c => c.askWrite q 0x1030 6 value)

/-- SYSPLL_LOCK_WINDOW_END (01 R31): A SYSPLL lock-monitor window ends and the count is judged for loss or lock. -/
def execSyspllLockWindowEnd (count : Nat) (s : State) : Host.Outcome State Fault Refusal :=
  s.act (fun c => c.syspllWindow count)

/-- ENGINE_CLOCK_STOP (01 R32): The old engine clock stops at its falling edge, or after four LO cycles, and is held low. -/
def execEngineClockStop (s : State) : Host.Outcome State Fault Refusal :=
  s.act (fun c => c.clockStop)

/-- ENGINE_CLOCK_START (01 R32): The new source starts at its falling edge; the move is counted and its pennant raised. -/
def execEngineClockStart (s : State) : Host.Outcome State Fault Refusal :=
  s.act (fun c => c.clockStart)

/-- SYSPLL_RESTART_TIMEOUT (01 R33): SYSPLL has not locked within 100 µs of a restart; after three such restarts it counts as a lock failure. -/
def execSyspllRestartTimeout (s : State) : Host.Outcome State Fault Refusal :=
  s.act (fun c => c.syspllTimeout)

/-- INTERNAL_ACCESS (01 R38): A master accesses the internal address space and the access is checked for decode, rights and a sleeping domain. -/
def execInternalAccess (master : Fin 29) (kind : AccessKind) (addr : Nat) (data : Nat) (s : State) :
    Host.Outcome State Fault Refusal :=
  s.act (fun c => c.internalAccess master.val kind addr data)

/-- CROSS_CHECK_DWELL_END (17 R417): CROSS_DWELL ends and AUX1 moves to the next enabled lane. -/
def execCrossCheckDwellEnd (s : State) : Host.Outcome State Fault Refusal :=
  s.act (fun c => c.crossNext)

/-- FIRMWARE_LOAD_COMPLETE (17 R414): An engine image is fetched and checked, and the engines are started. -/
def execFirmwareLoadComplete (loadUs : Nat) (s : State) : Host.Outcome State Fault Refusal :=
  s.act (fun c => c.loadComplete loadUs)

/-- FIRMWARE_LOAD_TIMEOUT (17 R414): A load passes its firmware-load limit and fails. -/
def execFirmwareLoadTimeout (loadUs : Nat) (s : State) : Host.Outcome State Fault Refusal :=
  s.act (fun c => c.loadTimeout loadUs)

/-- SPARE_TEST_COMPLETE (17 R417): A spare test pass ends, failing the engine or returning it to service. -/
def execSpareTestComplete (passed : Bool) (s : State) : Host.Outcome State Fault Refusal :=
  s.act (fun c => c.spareTest passed)

/-- ENGINE_RETRY_TIMER (17 R416): 60 s after a failed return test, the engine retries. -/
def execEngineRetryTimer (e : Fin 16) (s : State) : Host.Outcome State Fault Refusal :=
  s.act (fun c => c.engineRetry e.val)

/-- RETRY (17 R416): A write of RETRY restarts the return of a FAILED engine. -/
def execRetry (q : Envelope) (mask : Nat) (s : State) : Host.Outcome State Fault Refusal :=
  s.act (fun c => c.askWrite q 0xE000 0x14 mask)

/-- MARCH_CELL_TEST (17 R419): Free packet-buffer cells are march-tested, and failing cells are withdrawn. -/
def execMarchCellTest (cell : Fin 12288) (failed : Bool) (s : State) : Host.Outcome State Fault Refusal :=
  s.act (fun c => c.marchCell cell.val failed)

/-- RAIL_PAIR_TOGGLE (17 R420): A rail pair is inverted for two LO cycles and the received pattern is compared. -/
def execRailPairToggle (src : Fin 128) (mismatch : Bool) (s : State) : Host.Outcome State Fault Refusal :=
  s.act (fun c => c.pairToggle src.val mismatch)

/-- LOCK_MONITOR_CHECK (17 R421): Each LOCKCHECK_PERIOD, one window of each lock monitor is judged with an offset comparator. -/
def execLockMonitorCheck (m : Monitor) (found : Bool) (agree : Bool) (s : State) : Host.Outcome State Fault Refusal :=
  s.act (fun c => c.monitorCheck m found agree)

/-- MARGIN_SCAN_COMPLETE (17 R422): A SerDes margin scan completes and MARGIN_H and MARGIN_V are updated. -/
def execMarginScanComplete (p : Fin 8) (marginH : Nat) (marginV : Nat) (s : State) :
    Host.Outcome State Fault Refusal :=
  s.act (fun c => c.marginScan p.val marginH marginV)

end Sys2Proof.Machine
end

