-- ==== Sys2Proof/Machine/Dispatch.lean ====
section
/-!
DEFINITION. Sys2Proof/Machine/Dispatch.lean: the one table from commands to their meanings.
-/

namespace Sys2Proof.Machine

def exec (i : Instr) (s : State) : Host.Outcome State Fault Refusal :=
  match i with
  | .mastPowerUp => Sys2Proof.Machine.execMastPowerUp s
  | .mastReset groupsDone => Sys2Proof.Machine.execMastReset groupsDone s
  | .stewardStart straps testMode => Sys2Proof.Machine.execStewardStart straps testMode s
  | .postComplete cells planFail engines lanes rails monitors => Sys2Proof.Machine.execPostComplete cells planFail engines lanes rails monitors s
  | .rstNAssert => Sys2Proof.Machine.execRstNAssert s
  | .rstNRelease => Sys2Proof.Machine.execRstNRelease s
  | .softwareReset q value => Sys2Proof.Machine.execSoftwareReset q value s
  | .chipReset => Sys2Proof.Machine.execChipReset s
  | .loStartupTimeout => Sys2Proof.Machine.execLoStartupTimeout s
  | .loAbsentDeclared => Sys2Proof.Machine.execLoAbsentDeclared s
  | .loPresentDeclared => Sys2Proof.Machine.execLoPresentDeclared s
  | .rcPeriodMeasure periodPs => Sys2Proof.Machine.execRcPeriodMeasure periodPs s
  | .syspllLockWindowEnd count => Sys2Proof.Machine.execSyspllLockWindowEnd count s
  | .engineClockStop => Sys2Proof.Machine.execEngineClockStop s
  | .engineClockStart => Sys2Proof.Machine.execEngineClockStart s
  | .syspllRestartTimeout => Sys2Proof.Machine.execSyspllRestartTimeout s
  | .internalAccess master kind addr data => Sys2Proof.Machine.execInternalAccess master kind addr data s
  | .plugUnplugAccepted n => Sys2Proof.Machine.execPlugUnplugAccepted n s
  | .plugInAccepted n => Sys2Proof.Machine.execPlugInAccepted n s
  | .candidateReconfigure q idx sub data => Sys2Proof.Machine.execCandidateReconfigure q idx sub data s
  | .referenceEdge lane instant falling => Sys2Proof.Machine.execReferenceEdge lane instant falling s
  | .conversionComplete lane m => Sys2Proof.Machine.execConversionComplete lane m s
  | .sampleDelivery lane => Sys2Proof.Machine.execSampleDelivery lane s
  | .calPredictedPairStart lane cycle => Sys2Proof.Machine.execCalPredictedPairStart lane cycle s
  | .calRefreshDue lane cycle => Sys2Proof.Machine.execCalRefreshDue lane cycle s
  | .calPairComplete lane m1 m2 cycle => Sys2Proof.Machine.execCalPairComplete lane m1 m2 cycle s
  | .calFailTimeout lane => Sys2Proof.Machine.execCalFailTimeout lane s
  | .mclkLockWindowEnd count => Sys2Proof.Machine.execMclkLockWindowEnd count s
  | .activityTimeout lane => Sys2Proof.Machine.execActivityTimeout lane s
  | .frequencyEvaluation => Sys2Proof.Machine.execFrequencyEvaluation s
  | .soakEnd n => Sys2Proof.Machine.execSoakEnd n s
  | .noSignalTimeout n => Sys2Proof.Machine.execNoSignalTimeout n s
  | .pktSample k => Sys2Proof.Machine.execPktSample k s
  | .pktActivityTimeout k => Sys2Proof.Machine.execPktActivityTimeout k s
  | .todBinaryMessage bytes => Sys2Proof.Machine.execTodBinaryMessage bytes s
  | .todNmeaSentence chars => Sys2Proof.Machine.execTodNmeaSentence chars s
  | .todEdgeJudgement => Sys2Proof.Machine.execTodEdgeJudgement s
  | .todTimeout => Sys2Proof.Machine.execTodTimeout s
  | .todTransmit => Sys2Proof.Machine.execTodTransmit s
  | .auxEdge a src falling cycle m => Sys2Proof.Machine.execAuxEdge a src falling cycle m s
  | .auxCalibrationDue a y => Sys2Proof.Machine.execAuxCalibrationDue a y s
  | .tiaArmSingle q a => Sys2Proof.Machine.execTiaArmSingle q a s
  | .tiaArmContinuous q a => Sys2Proof.Machine.execTiaArmContinuous q a s
  | .tiaDisarm q a => Sys2Proof.Machine.execTiaDisarm q a s
  | .stopHoldExpiry a => Sys2Proof.Machine.execStopHoldExpiry a s
  | .tiaTimeout a => Sys2Proof.Machine.execTiaTimeout a s
  | .tiaResultRead q a => Sys2Proof.Machine.execTiaResultRead q a s
  | .trigEdgeCapture pin falling cycle m => Sys2Proof.Machine.execTrigEdgeCapture pin falling cycle m s
  | .captureHeadRead q => Sys2Proof.Machine.execCaptureHeadRead q s
  | .captureLostClear q => Sys2Proof.Machine.execCaptureLostClear q s
  | .crossCheckDwellEnd => Sys2Proof.Machine.execCrossCheckDwellEnd s
  | .loopUpdate ch => Sys2Proof.Machine.execLoopUpdate ch s
  | .acquireTimeout ch => Sys2Proof.Machine.execAcquireTimeout ch s
  | .trump q ch value => Sys2Proof.Machine.execTrump q ch value s
  | .lockout q ch k set => Sys2Proof.Machine.execLockout q ch k set s
  | .selectionEntryWrite q ch k value => Sys2Proof.Machine.execSelectionEntryWrite q ch k value s
  | .realign q ch => Sys2Proof.Machine.execRealign q ch s
  | .tebEvaluation dieTemp mastTemp => Sys2Proof.Machine.execTebEvaluation dieTemp mastTemp s
  | .learningEpochEnd ch => Sys2Proof.Machine.execLearningEpochEnd ch s
  | .hostTempTimeout ch => Sys2Proof.Machine.execHostTempTimeout ch s
  | .modelReset q ch => Sys2Proof.Machine.execModelReset q ch s
  | .holdoverExpiry ch byLimit => Sys2Proof.Machine.execHoldoverExpiry ch byLimit s
  | .apply q g => Sys2Proof.Machine.execApply q g s
  | .apllLockWindowEnd count => Sys2Proof.Machine.execApllLockWindowEnd count s
  | .apllRetryTimer => Sys2Proof.Machine.execApllRetryTimer s
  | .apllBandSearchEnd found band => Sys2Proof.Machine.execApllBandSearchEnd found band s
  | .hopSettleEnd g => Sys2Proof.Machine.execHopSettleEnd g s
  | .searchStepEnd g count => Sys2Proof.Machine.execSearchStepEnd g count s
  | .mdllLockWindowEnd g d => Sys2Proof.Machine.execMdllLockWindowEnd g d s
  | .lockingLimitExpiry g => Sys2Proof.Machine.execLockingLimitExpiry g s
  | .bandSearchRetry g => Sys2Proof.Machine.execBandSearchRetry g s
  | .bandCacheClear q => Sys2Proof.Machine.execBandCacheClear q s
  | .squelchLowReached k high => Sys2Proof.Machine.execSquelchLowReached k high s
  | .squelchHizTimer k => Sys2Proof.Machine.execSquelchHizTimer k s
  | .fenceViolation k high low => Sys2Proof.Machine.execFenceViolation k high low s
  | .fenceGateOpen k low => Sys2Proof.Machine.execFenceGateOpen k low s
  | .sync q g => Sys2Proof.Machine.execSync q g s
  | .outputRestart k low => Sys2Proof.Machine.execOutputRestart k low s
  | .slipComplete k => Sys2Proof.Machine.execSlipComplete k s
  | .phaseAdjWrite q k ps => Sys2Proof.Machine.execPhaseAdjWrite q k ps s
  | .rampStart q g => Sys2Proof.Machine.execRampStart q g s
  | .rampStop q g => Sys2Proof.Machine.execRampStop q g s
  | .rampZero q g => Sys2Proof.Machine.execRampZero q g s
  | .rampSegmentEnd g => Sys2Proof.Machine.execRampSegmentEnd g s
  | .sscModeWrite q g mode => Sys2Proof.Machine.execSscModeWrite q g mode s
  | .sscEnd g => Sys2Proof.Machine.execSscEnd g s
  | .bankVoltageCheck mismatch => Sys2Proof.Machine.execBankVoltageCheck mismatch s
  | .formatWrite q k format => Sys2Proof.Machine.execFormatWrite q k format s
  | .outSourceWrite q k source => Sys2Proof.Machine.execOutSourceWrite q k source s
  | .timeSet q value => Sys2Proof.Machine.execTimeSet q value s
  | .timeStep q delta => Sys2Proof.Machine.execTimeStep q delta s
  | .timeSlew q ps => Sys2Proof.Machine.execTimeSlew q ps s
  | .stepExecute => Sys2Proof.Machine.execStepExecute s
  | .leapApply => Sys2Proof.Machine.execLeapApply s
  | .tsQueueHeadRead q p => Sys2Proof.Machine.execTsQueueHeadRead q p s
  | .tsQueueLostClear q p => Sys2Proof.Machine.execTsQueueLostClear q p s
  | .hostReserveWrite q p value => Sys2Proof.Machine.execHostReserveWrite q p value s
  | .ttuArmOneShot q u => Sys2Proof.Machine.execTtuArmOneShot q u s
  | .ttuArmPeriodic q u => Sys2Proof.Machine.execTtuArmPeriodic q u s
  | .ttuDisarm q u => Sys2Proof.Machine.execTtuDisarm q u s
  | .ttuLeadingEdge u => Sys2Proof.Machine.execTtuLeadingEdge u s
  | .ttuTrailingEdge u => Sys2Proof.Machine.execTtuTrailingEdge u s
  | .ltuLaunch p err => Sys2Proof.Machine.execLtuLaunch p err s
  | .ltuLate p => Sys2Proof.Machine.execLtuLate p s
  | .linkUp p => Sys2Proof.Machine.execLinkUp p s
  | .linkDown p rx pcs => Sys2Proof.Machine.execLinkDown p rx pcs s
  | .portLinkRestartWrite q p sub value rx => Sys2Proof.Machine.execPortLinkRestartWrite q p sub value rx s
  | .frameReceive p bytes ps codeError lost fecOk fecBad => Sys2Proof.Machine.execFrameReceive p bytes ps codeError lost fecOk fecBad s
  | .pauseTimerExpiry p => Sys2Proof.Machine.execPauseTimerExpiry p s
  | .pfcTimerExpiry p prio => Sys2Proof.Machine.execPfcTimerExpiry p prio s
  | .pauseRefresh p => Sys2Proof.Machine.execPauseRefresh p s
  | .flowControlFrameSend p => Sys2Proof.Machine.execFlowControlFrameSend p s
  | .hostFrameRx q p => Sys2Proof.Machine.execHostFrameRx q p s
  | .hostFrameTx q p bytes => Sys2Proof.Machine.execHostFrameTx q p bytes s
  | .frameTransmit p ring ps cut => Sys2Proof.Machine.execFrameTransmit p ring ps cut s
  | .txLpiEntry p => Sys2Proof.Machine.execTxLpiEntry p s
  | .txLpiExit p => Sys2Proof.Machine.execTxLpiExit p s
  | .rxLpiEntry p => Sys2Proof.Machine.execRxLpiEntry p s
  | .rxLpiExit p => Sys2Proof.Machine.execRxLpiExit p s
  | .dealClose => Sys2Proof.Machine.execDealClose s
  | .dealDiscard => Sys2Proof.Machine.execDealDiscard s
  | .dealInstant => Sys2Proof.Machine.execDealInstant s
  | .trickWrite q p data => Sys2Proof.Machine.execTrickWrite q p data s
  | .idleCountWrite q p count => Sys2Proof.Machine.execIdleCountWrite q p count s
  | .swapAtWrite q p hand => Sys2Proof.Machine.execSwapAtWrite q p hand s
  | .trickCompose p late miss => Sys2Proof.Machine.execTrickCompose p late miss s
  | .trickStart p ps => Sys2Proof.Machine.execTrickStart p ps s
  | .trickEnd p => Sys2Proof.Machine.execTrickEnd p s
  | .dozeEntry d => Sys2Proof.Machine.execDozeEntry d s
  | .dozeWakeRequest d => Sys2Proof.Machine.execDozeWakeRequest d s
  | .sessionHostWrite q data => Sys2Proof.Machine.execSessionHostWrite q data s
  | .sessionCommit q => Sys2Proof.Machine.execSessionCommit q s
  | .ptpDelayReqReceive p => Sys2Proof.Machine.execPtpDelayReqReceive p s
  | .requestUnicastTransmission p => Sys2Proof.Machine.execRequestUnicastTransmission p s
  | .cancelUnicastTransmission p => Sys2Proof.Machine.execCancelUnicastTransmission p s
  | .grantExpiry index => Sys2Proof.Machine.execGrantExpiry index s
  | .ptpAnnounceReceive k => Sys2Proof.Machine.execPtpAnnounceReceive k s
  | .ptpSyncReceive k => Sys2Proof.Machine.execPtpSyncReceive k s
  | .ptpFollowUpReceive k => Sys2Proof.Machine.execPtpFollowUpReceive k s
  | .ptpDelayRespReceive k => Sys2Proof.Machine.execPtpDelayRespReceive k s
  | .announceReceiptTimeout k => Sys2Proof.Machine.execAnnounceReceiptTimeout k s
  | .servoGrantRenewal k => Sys2Proof.Machine.execServoGrantRenewal k s
  | .tcForward p => Sys2Proof.Machine.execTcForward p s
  | .tcFollowUpTimeout p => Sys2Proof.Machine.execTcFollowUpTimeout p s
  | .multicastDelayResp p => Sys2Proof.Machine.execMulticastDelayResp p s
  | .esmcPduReceive p => Sys2Proof.Machine.execEsmcPduReceive p s
  | .esmcQlTimeout p => Sys2Proof.Machine.execEsmcQlTimeout p s
  | .esmcInformationPdu p => Sys2Proof.Machine.execEsmcInformationPdu p s
  | .esmcEventPdu p => Sys2Proof.Machine.execEsmcEventPdu p s
  | .saEntryWrite q data => Sys2Proof.Machine.execSaEntryWrite q data s
  | .nvProgramComplete verified => Sys2Proof.Machine.execNvProgramComplete verified s
  | .nvRefreshRead page weak => Sys2Proof.Machine.execNvRefreshRead page weak s
  | .storeWriteStart => Sys2Proof.Machine.execStoreWriteStart s
  | .save q => Sys2Proof.Machine.execSave q s
  | .flushTrigger monitor => Sys2Proof.Machine.execFlushTrigger monitor s
  | .pwrFailRelease => Sys2Proof.Machine.execPwrFailRelease s
  | .pfClear => Sys2Proof.Machine.execPfClear s
  | .minuteClose => Sys2Proof.Machine.execMinuteClose s
  | .cardWrite => Sys2Proof.Machine.execCardWrite s
  | .sealSignatureComplete => Sys2Proof.Machine.execSealSignatureComplete s
  | .signTimeout => Sys2Proof.Machine.execSignTimeout s
  | .ackSeqWrite q seq => Sys2Proof.Machine.execAckSeqWrite q seq s
  | .cardRead q => Sys2Proof.Machine.execCardRead q s
  | .read q idx sub => Sys2Proof.Machine.execRead q idx sub s
  | .write q idx sub ty data => Sys2Proof.Machine.execWrite q idx sub ty data s
  | .multiRead q items => Sys2Proof.Machine.execMultiRead q items s
  | .segReadInit q idx sub => Sys2Proof.Machine.execSegReadInit q idx sub s
  | .segReadNext q token segment maxLen => Sys2Proof.Machine.execSegReadNext q token segment maxLen s
  | .segWriteInit q idx sub ty total => Sys2Proof.Machine.execSegWriteInit q idx sub ty total s
  | .segWriteNext q token last segment data => Sys2Proof.Machine.execSegWriteNext q token last segment data s
  | .abort q idx sub token code info => Sys2Proof.Machine.execAbort q idx sub token code info s
  | .transferTimeout token => Sys2Proof.Machine.execTransferTimeout token s
  | .countersClear q idx => Sys2Proof.Machine.execCountersClear q idx s
  | .writePdu len bytes midByte => Sys2Proof.Machine.execWritePdu len bytes midByte s
  | .readPdu complete => Sys2Proof.Machine.execReadPdu complete s
  | .readStatus => Sys2Proof.Machine.execReadStatus s
  | .clearStatus bytes midByte => Sys2Proof.Machine.execClearStatus bytes midByte s
  | .peerEntryWrite q n sub value => Sys2Proof.Machine.execPeerEntryWrite q n sub value s
  | .peerKeyWrite q n key => Sys2Proof.Machine.execPeerKeyWrite q n key s
  | .sequenceFloorRecord n tx => Sys2Proof.Machine.execSequenceFloorRecord n tx s
  | .railPairBroken src high => Sys2Proof.Machine.execRailPairBroken src high s
  | .faultAssertion src inst detail access => Sys2Proof.Machine.execFaultAssertion src inst detail access s
  | .faultTrap => Sys2Proof.Machine.execFaultTrap s
  | .errWidthExpiry => Sys2Proof.Machine.execErrWidthExpiry s
  | .errRelease q => Sys2Proof.Machine.execErrRelease q s
  | .captureRelease q => Sys2Proof.Machine.execCaptureRelease q s
  | .pennantClear q src => Sys2Proof.Machine.execPennantClear q src s
  | .clearAll q => Sys2Proof.Machine.execClearAll q s
  | .force q src value => Sys2Proof.Machine.execForce q src value s
  | .supplyGoodChange rail good => Sys2Proof.Machine.execSupplyGoodChange rail good s
  | .coreSupplyLoss => Sys2Proof.Machine.execCoreSupplyLoss s
  | .powerTargetWrite q target => Sys2Proof.Machine.execPowerTargetWrite q target s
  | .powerDownTransition => Sys2Proof.Machine.execPowerDownTransition s
  | .wakeAdmit => Sys2Proof.Machine.execWakeAdmit s
  | .domainWakeComplete d => Sys2Proof.Machine.execDomainWakeComplete d s
  | .wakeTimeout d => Sys2Proof.Machine.execWakeTimeout d s
  | .lifecycleToOpen q => Sys2Proof.Machine.execLifecycleToOpen q s
  | .lifecycleToSealed q => Sys2Proof.Machine.execLifecycleToSealed q s
  | .lifecycleToRetired q => Sys2Proof.Machine.execLifecycleToRetired q s
  | .rotate q => Sys2Proof.Machine.execRotate q s
  | .fwKeyWrite q key => Sys2Proof.Machine.execFwKeyWrite q key s
  | .debugKeyWrite q key => Sys2Proof.Machine.execDebugKeyWrite q key s
  | .imageCheckComplete patch image => Sys2Proof.Machine.execImageCheckComplete patch image s
  | .firmwareLoadComplete loadUs => Sys2Proof.Machine.execFirmwareLoadComplete loadUs s
  | .firmwareLoadTimeout loadUs => Sys2Proof.Machine.execFirmwareLoadTimeout loadUs s
  | .tamperOpening => Sys2Proof.Machine.execTamperOpening s
  | .challengeRead q => Sys2Proof.Machine.execChallengeRead q s
  | .challengeExpiry => Sys2Proof.Machine.execChallengeExpiry s
  | .challengeLockoutEnd => Sys2Proof.Machine.execChallengeLockoutEnd s
  | .debugObserveRequest q => Sys2Proof.Machine.execDebugObserveRequest q s
  | .debugFullRequest q => Sys2Proof.Machine.execDebugFullRequest q s
  | .debugEndRequest q => Sys2Proof.Machine.execDebugEndRequest q s
  | .response q sig => Sys2Proof.Machine.execResponse q sig s
  | .debugTimeout => Sys2Proof.Machine.execDebugTimeout s
  | .debugAccess kind addr data => Sys2Proof.Machine.execDebugAccess kind addr data s
  | .jtagInstruction ir => Sys2Proof.Machine.execJtagInstruction ir s
  | .rekeyResponse q sig => Sys2Proof.Machine.execRekeyResponse q sig s
  | .rekeyGrantExpiry => Sys2Proof.Machine.execRekeyGrantExpiry s
  | .keyPressAccepted k => Sys2Proof.Machine.execKeyPressAccepted k s
  | .keyReleaseAccepted k => Sys2Proof.Machine.execKeyReleaseAccepted k s
  | .longPress k => Sys2Proof.Machine.execLongPress k s
  | .lampTestEnd => Sys2Proof.Machine.execLampTestEnd s
  | .cursorLapse => Sys2Proof.Machine.execCursorLapse s
  | .spareTestComplete passed => Sys2Proof.Machine.execSpareTestComplete passed s
  | .engineRetryTimer e => Sys2Proof.Machine.execEngineRetryTimer e s
  | .retry q mask => Sys2Proof.Machine.execRetry q mask s
  | .marchCellTest cell failed => Sys2Proof.Machine.execMarchCellTest cell failed s
  | .railPairToggle src mismatch => Sys2Proof.Machine.execRailPairToggle src mismatch s
  | .lockMonitorCheck m found agree => Sys2Proof.Machine.execLockMonitorCheck m found agree s
  | .marginScanComplete p marginH marginV => Sys2Proof.Machine.execMarginScanComplete p marginH marginV s
  | .pcsLockAcquired p duplex pause asmDir gigabit => Sys2Proof.Machine.execPcsLockAcquired p duplex pause asmDir gigabit s
  | .pdelayRespReceive p => Sys2Proof.Machine.execPdelayRespReceive p s
  | .servoGrantResponse k => Sys2Proof.Machine.execServoGrantResponse k s
  | .servoDelayReq k => Sys2Proof.Machine.execServoDelayReq k s
  | .tamperClosing => Sys2Proof.Machine.execTamperClosing s
  | .railPairRestored src => Sys2Proof.Machine.execRailPairRestored src s
  | .faultDeassertion src => Sys2Proof.Machine.execFaultDeassertion src s
  | .prefetchEnd => Sys2Proof.Machine.execPrefetchEnd s
  | .groupEnableWrite q g on => Sys2Proof.Machine.execGroupEnableWrite q g on s
  | .portEnableWrite q p on rx => Sys2Proof.Machine.execPortEnableWrite q p on rx s

end Sys2Proof.Machine
end

