-- ==== Sys2Proof/WellFormed.lean ====
section
/-!
DEFINITION. Sys2Proof/WellFormed.lean: which commands can reach the device: operands that fit the fields that carry them.
-/

namespace Sys2Proof

/-- At most `n` bytes, each below 256. -/
def bytesWf (n : Nat) (b : List Nat) : Bool := decide (b.length ≤ n) && b.all (fun x => decide (x < 256))

/-- The addresses of a requester fit their fields (12 R331). -/
def Transport.wf : Transport → Bool
  | .qspi => true
  | .eth _ mac vlan => decide (mac < 2 ^ 48) && (match vlan with
      | some v => decide (v < 2 ^ 16)
      | none => true)
  | .udp _ mac vlan v6 addr port =>
    decide (mac < 2 ^ 48) && (match vlan with
      | some v => decide (v < 2 ^ 16)
      | none => true) && decide (addr < (if v6 then 2 ^ 128 else 2 ^ 32)) && decide (port < 2 ^ 16)

/-- PEER_ID, SEQ and TAG fit their fields (12 R317, R326). -/
def Auth.wf (a : Auth) : Bool := decide (a.peer < 2 ^ 32 ∧ a.seq < 2 ^ 32 ∧ a.tag < 2 ^ 128)

/-- The envelope fits the request's layout (12 R317). -/
def Envelope.wf (q : Envelope) : Bool :=
  q.src.wf && decide (q.tid < 2 ^ 16) && (match q.auth with
    | some a => a.wf
    | none => true)

/-- A request's fields fit its layout (12 R317 and table "Opcodes"). -/
def Call.wf : Call → Bool
  | .read i s => decide (i < 2 ^ 16 ∧ s < 2 ^ 8)
  | .write i s t d => decide (i < 2 ^ 16 ∧ s < 2 ^ 8 ∧ t < 2 ^ 8) && bytesWf 1384 d
  | .multiRead l => decide (1 ≤ l.length ∧ l.length ≤ 32) && l.all (fun p => decide (p.1 < 2 ^ 16 ∧ p.2 < 2 ^ 8))
  | .segReadInit i s => decide (i < 2 ^ 16 ∧ s < 2 ^ 8)
  | .segReadNext t g m => decide (t < 2 ^ 8 ∧ g < 2 ^ 16 ∧ m < 2 ^ 16)
  | .segWriteInit i s t n => decide (i < 2 ^ 16 ∧ s < 2 ^ 8 ∧ t < 2 ^ 8 ∧ n < 2 ^ 32)
  | .segWriteNext t _ g d => decide (t < 2 ^ 8 ∧ g < 2 ^ 16) && bytesWf 1386 d
  | .abort i s t c n => decide (i < 2 ^ 16 ∧ s < 2 ^ 8 ∧ t < 2 ^ 8 ∧ c < 2 ^ 32 ∧ n < 2 ^ 32)

/-- The counts of a conversion: Nv never exceeds 32 (03 R72), and the raw code fits its register. -/
def RingCounts.wf (m : RingCounts) : Bool := decide (m.nv ≤ 32 ∧ m.nv ≤ 32 * m.nc ∧ m.nc < 128)

/-- A command's operands fit what carries them. -/
def Instr.wf : Instr → Bool
  | .mastPowerUp => true
  | .mastReset _ => true
  | .stewardStart _ _ => true
  | .postComplete cells _ engines lanes rails monitors => decide (cells < 2 ^ 12288) && decide (engines < 2 ^ 16) && decide (lanes < 2 ^ 24) && decide (rails < 2 ^ 128) && decide (monitors < 2 ^ 11)
  | .rstNAssert => true
  | .rstNRelease => true
  | .softwareReset q value => q.wf && decide (value < 2 ^ 64)
  | .chipReset => true
  | .loStartupTimeout => true
  | .loAbsentDeclared => true
  | .loPresentDeclared => true
  | .rcPeriodMeasure periodPs => decide (0 < periodPs)
  | .syspllLockWindowEnd count => decide (count < 2 ^ 32)
  | .engineClockStop => true
  | .engineClockStart => true
  | .syspllRestartTimeout => true
  | .internalAccess _ _ addr data => decide (addr < 2 ^ 32) && decide (data < 2 ^ 32)
  | .plugUnplugAccepted _ => true
  | .plugInAccepted _ => true
  | .candidateReconfigure q idx sub data => q.wf && decide (idx < 2 ^ 16) && decide (sub < 2 ^ 8) && bytesWf 1392 data
  | .referenceEdge _ _ _ => true
  | .conversionComplete _ m => m.wf
  | .sampleDelivery _ => true
  | .calPredictedPairStart _ _ => true
  | .calRefreshDue _ _ => true
  | .calPairComplete _ m1 m2 _ => m1.wf && m2.wf
  | .calFailTimeout _ => true
  | .mclkLockWindowEnd count => decide (count < 2 ^ 32)
  | .activityTimeout _ => true
  | .frequencyEvaluation => true
  | .soakEnd _ => true
  | .noSignalTimeout _ => true
  | .pktSample _ => true
  | .pktActivityTimeout _ => true
  | .todBinaryMessage bytes => bytesWf 9618 bytes
  | .todNmeaSentence chars => bytesWf 256 chars
  | .todEdgeJudgement => true
  | .todTimeout => true
  | .todTransmit => true
  | .auxEdge _ src _ _ m => decide (src < 2 ^ 9) && m.wf
  | .auxCalibrationDue _ _ => true
  | .tiaArmSingle q _ => q.wf
  | .tiaArmContinuous q _ => q.wf
  | .tiaDisarm q _ => q.wf
  | .stopHoldExpiry _ => true
  | .tiaTimeout _ => true
  | .tiaResultRead q _ => q.wf
  | .trigEdgeCapture _ _ _ m => m.wf
  | .captureHeadRead q => q.wf
  | .captureLostClear q => q.wf
  | .crossCheckDwellEnd => true
  | .loopUpdate _ => true
  | .acquireTimeout _ => true
  | .trump q _ value => q.wf && decide (value < 2 ^ 64)
  | .lockout q _ _ _ => q.wf
  | .selectionEntryWrite q _ _ value => q.wf && decide (value < 2 ^ 64)
  | .realign q _ => q.wf
  | .tebEvaluation _ _ => true
  | .learningEpochEnd _ => true
  | .hostTempTimeout _ => true
  | .modelReset q _ => q.wf
  | .holdoverExpiry _ _ => true
  | .apply q _ => q.wf
  | .apllLockWindowEnd count => decide (count < 2 ^ 32)
  | .apllRetryTimer => true
  | .apllBandSearchEnd _ band => decide (band < 2 ^ 8)
  | .hopSettleEnd _ => true
  | .searchStepEnd _ count => decide (count < 2 ^ 32)
  | .mdllLockWindowEnd _ _ => true
  | .lockingLimitExpiry _ => true
  | .bandSearchRetry _ => true
  | .bandCacheClear q => q.wf
  | .squelchLowReached _ _ => true
  | .squelchHizTimer _ => true
  | .fenceViolation _ _ _ => true
  | .fenceGateOpen _ _ => true
  | .sync q _ => q.wf
  | .outputRestart _ _ => true
  | .slipComplete _ => true
  | .phaseAdjWrite q _ ps => q.wf && decide (-(2 ^ 63 : Int) ≤ ps ∧ ps < 2 ^ 63)
  | .rampStart q _ => q.wf
  | .rampStop q _ => q.wf
  | .rampZero q _ => q.wf
  | .rampSegmentEnd _ => true
  | .sscModeWrite q _ mode => q.wf && decide (mode < 2 ^ 8)
  | .sscEnd _ => true
  | .bankVoltageCheck mismatch => decide (mismatch < 2 ^ 4)
  | .formatWrite q _ format => q.wf && decide (format < 2 ^ 8)
  | .outSourceWrite q _ source => q.wf && decide (source < 2 ^ 8)
  | .timeSet q value => q.wf && decide (value < 2 ^ 64)
  | .timeStep q delta => q.wf && decide (-(2 ^ 63 : Int) ≤ delta ∧ delta < 2 ^ 63)
  | .timeSlew q ps => q.wf && decide (-(2 ^ 63 : Int) ≤ ps ∧ ps < 2 ^ 63)
  | .stepExecute => true
  | .leapApply => true
  | .tsQueueHeadRead q _ => q.wf
  | .tsQueueLostClear q _ => q.wf
  | .hostReserveWrite q _ value => q.wf && decide (value < 2 ^ 64)
  | .ttuArmOneShot q _ => q.wf
  | .ttuArmPeriodic q _ => q.wf
  | .ttuDisarm q _ => q.wf
  | .ttuLeadingEdge _ => true
  | .ttuTrailingEdge _ => true
  | .ltuLaunch _ _ => true
  | .ltuLate _ => true
  | .linkUp _ => true
  | .linkDown _ _ _ => true
  | .portLinkRestartWrite q _ sub value _ => q.wf && decide (sub < 2 ^ 8) && decide (value < 2 ^ 64)
  | .frameReceive _ bytes _ _ _ _ _ => bytesWf 9618 bytes
  | .pauseTimerExpiry _ => true
  | .pfcTimerExpiry _ _ => true
  | .pauseRefresh _ => true
  | .flowControlFrameSend _ => true
  | .hostFrameRx q _ => q.wf
  | .hostFrameTx q _ bytes => q.wf && bytesWf 9618 bytes
  | .frameTransmit _ _ _ _ => true
  | .txLpiEntry _ => true
  | .txLpiExit _ => true
  | .rxLpiEntry _ => true
  | .rxLpiExit _ => true
  | .dealClose => true
  | .dealDiscard => true
  | .dealInstant => true
  | .trickWrite q _ data => q.wf && bytesWf 1392 data
  | .idleCountWrite q _ count => q.wf && decide (count < 2 ^ 32)
  | .swapAtWrite q _ hand => q.wf && decide (hand < 2 ^ 32)
  | .trickCompose _ _ _ => true
  | .trickStart _ _ => true
  | .trickEnd _ => true
  | .dozeEntry _ => true
  | .dozeWakeRequest _ => true
  | .sessionHostWrite q data => q.wf && bytesWf 1392 data
  | .sessionCommit q => q.wf
  | .ptpDelayReqReceive _ => true
  | .requestUnicastTransmission _ => true
  | .cancelUnicastTransmission _ => true
  | .grantExpiry index => decide (index < 2 ^ 16)
  | .ptpAnnounceReceive _ => true
  | .ptpSyncReceive _ => true
  | .ptpFollowUpReceive _ => true
  | .ptpDelayRespReceive _ => true
  | .announceReceiptTimeout _ => true
  | .servoGrantRenewal _ => true
  | .tcForward _ => true
  | .tcFollowUpTimeout _ => true
  | .multicastDelayResp _ => true
  | .esmcPduReceive _ => true
  | .esmcQlTimeout _ => true
  | .esmcInformationPdu _ => true
  | .esmcEventPdu _ => true
  | .saEntryWrite q data => q.wf && bytesWf 1392 data
  | .nvProgramComplete _ => true
  | .nvRefreshRead _ _ => true
  | .storeWriteStart => true
  | .save q => q.wf
  | .flushTrigger _ => true
  | .pwrFailRelease => true
  | .pfClear => true
  | .minuteClose => true
  | .cardWrite => true
  | .sealSignatureComplete => true
  | .signTimeout => true
  | .ackSeqWrite q seq => q.wf && decide (seq < 2 ^ 32)
  | .cardRead q => q.wf
  | .read q idx sub => q.wf && decide (idx < 2 ^ 16) && decide (sub < 2 ^ 8)
  | .write q idx sub ty data => q.wf && decide (idx < 2 ^ 16) && decide (sub < 2 ^ 8) && decide (ty < 2 ^ 8) && bytesWf 1392 data
  | .multiRead q items => q.wf && decide (1 ≤ items.length ∧ items.length ≤ 32) && items.all (fun p => decide (p.1 < 2 ^ 16 ∧ p.2 < 2 ^ 8))
  | .segReadInit q idx sub => q.wf && decide (idx < 2 ^ 16) && decide (sub < 2 ^ 8)
  | .segReadNext q token segment maxLen => q.wf && decide (token < 2 ^ 8) && decide (segment < 2 ^ 16) && decide (maxLen < 2 ^ 16)
  | .segWriteInit q idx sub ty total => q.wf && decide (idx < 2 ^ 16) && decide (sub < 2 ^ 8) && decide (ty < 2 ^ 8) && decide (total < 2 ^ 32)
  | .segWriteNext q token _ segment data => q.wf && decide (token < 2 ^ 8) && decide (segment < 2 ^ 16) && bytesWf 1392 data
  | .abort q idx sub token code info => q.wf && decide (idx < 2 ^ 16) && decide (sub < 2 ^ 8) && decide (token < 2 ^ 8) && decide (code < 2 ^ 32) && decide (info < 2 ^ 32)
  | .transferTimeout token => decide (token < 2 ^ 8)
  | .countersClear q idx => q.wf && decide (idx < 2 ^ 16)
  | .writePdu len bytes _ => decide (len < 2 ^ 16) && bytesWf 1401 bytes
  | .readPdu _ => true
  | .readStatus => true
  | .clearStatus bytes _ => bytesWf 1401 bytes
  | .peerEntryWrite q _ sub value => q.wf && decide (sub < 2 ^ 8) && decide (value < 2 ^ 64)
  | .peerKeyWrite q _ key => q.wf && bytesWf 32 key
  | .sequenceFloorRecord _ _ => true
  | .railPairBroken _ _ => true
  | .faultAssertion _ inst detail access => decide (inst < 2 ^ 8) && decide (detail < 2 ^ 24) && (match access with
      | some a => decide (a.master < 29 ∧ a.code < 8 ∧ a.addr < 2 ^ 32)
      | none => true)
  | .faultTrap => true
  | .errWidthExpiry => true
  | .errRelease q => q.wf
  | .captureRelease q => q.wf
  | .pennantClear q _ => q.wf
  | .clearAll q => q.wf
  | .force q _ value => q.wf && decide (value < 2 ^ 64)
  | .supplyGoodChange _ _ => true
  | .coreSupplyLoss => true
  | .powerTargetWrite q target => q.wf && decide (target < 2 ^ 8)
  | .powerDownTransition => true
  | .wakeAdmit => true
  | .domainWakeComplete _ => true
  | .wakeTimeout _ => true
  | .lifecycleToOpen q => q.wf
  | .lifecycleToSealed q => q.wf
  | .lifecycleToRetired q => q.wf
  | .rotate q => q.wf
  | .fwKeyWrite q key => q.wf && bytesWf 32 key
  | .debugKeyWrite q key => q.wf && bytesWf 32 key
  | .imageCheckComplete _ image => bytesWf 1048576 image
  | .firmwareLoadComplete _ => true
  | .firmwareLoadTimeout _ => true
  | .tamperOpening => true
  | .challengeRead q => q.wf
  | .challengeExpiry => true
  | .challengeLockoutEnd => true
  | .debugObserveRequest q => q.wf
  | .debugFullRequest q => q.wf
  | .debugEndRequest q => q.wf
  | .response q sig => q.wf && bytesWf 64 sig
  | .debugTimeout => true
  | .debugAccess _ addr data => decide (addr < 2 ^ 32) && decide (data < 2 ^ 32)
  | .jtagInstruction _ => true
  | .rekeyResponse q sig => q.wf && bytesWf 64 sig
  | .rekeyGrantExpiry => true
  | .keyPressAccepted _ => true
  | .keyReleaseAccepted _ => true
  | .longPress _ => true
  | .lampTestEnd => true
  | .cursorLapse => true
  | .spareTestComplete _ => true
  | .engineRetryTimer _ => true
  | .retry q mask => q.wf && decide (mask < 2 ^ 16)
  | .marchCellTest _ _ => true
  | .railPairToggle _ _ => true
  | .lockMonitorCheck _ _ _ => true
  | .marginScanComplete _ marginH marginV => decide (marginH < 2 ^ 8) && decide (marginV < 2 ^ 8)
  | .pcsLockAcquired _ _ _ _ _ => true
  | .pdelayRespReceive _ => true
  | .servoGrantResponse _ => true
  | .servoDelayReq _ => true
  | .tamperClosing => true
  | .railPairRestored _ => true
  | .faultDeassertion _ => true
  | .prefetchEnd => true
  | .groupEnableWrite q _ _ => q.wf
  | .portEnableWrite q _ _ _ => q.wf

end Sys2Proof
end

