-- ==== Sys2Proof/Safety.lean ====
section
/-!
DEFINITION. Sys2Proof/Safety.lean: the words in which statements about the device are made: the own effect of a command, what it
leaves as it was, and when a request over TPP is taken.
-/

namespace Sys2Proof.Machine

/-- The own effect of a command at a state is the device `d`: the command answers a next state, whose queue is as it was and
whose device is `d` after every unit has followed it (`Chip.settle`). -/
def Acts (i : Instr) (s : State) (d : Chip) : Prop := exec i s = .next { s with chip := s.chip.keep d.settle }

/-! ### What is left as it was -/

/-- The parts of the device beside the object store. -/
inductive Part where
  | staged | free | time | cands | tod | tdc | chans | nv | faults | power | tpp | sec | start | panel | synth | ttus | ports | hand | sess
  deriving DecidableEq, Repr

/-- A part is the same in two devices. -/
def Part.same : Part → Chip → Chip → Prop
  | .staged, c, d => d.staged = c.staged
  | .free, c, d => d.free = c.free
  | .time, c, d => d.time = c.time
  | .cands, c, d => d.cands = c.cands
  | .tod, c, d => d.tod = c.tod
  | .tdc, c, d => d.tdc = c.tdc
  | .chans, c, d => d.chans = c.chans
  | .nv, c, d => d.nv = c.nv
  | .faults, c, d => d.faults = c.faults
  | .power, c, d => d.power = c.power
  | .tpp, c, d => d.tpp = c.tpp
  | .sec, c, d => d.sec = c.sec
  | .start, c, d => d.start = c.start
  | .panel, c, d => d.panel = c.panel
  | .synth, c, d => d.synth = c.synth
  | .ttus, c, d => d.ttus = c.ttus
  | .ports, c, d => d.ports = c.ports
  | .hand, c, d => d.hand = c.hand
  | .sess, c, d => d.sess = c.sess

/-- From `c` to `d` nothing changes but the parts and the subindices listed. -/
def Chip.Frame (c d : Chip) (parts : List Part) (objs : List (Nat × Nat)) : Prop :=
  d.grade = c.grade ∧ (∀ p, p ∉ parts → p.same c d) ∧
    ∀ idx sub, sub < 256 → (idx, sub) ∉ objs → d.rd idx sub = c.rd idx sub

/-! ### States that a run can reach -/

/-- The NV array is in canonical form, every unit that the device has a fixed number of is there, and the values that a deal has readied
are of RWD subindices. -/
def Chip.Sound (c : Chip) : Prop :=
  Memory.wf c.nv.cells = true ∧ c.cands.length = 28 ∧ c.chans.length = 8 ∧ c.ttus.length = 8 ∧ c.tdc.lanes.length = 24 ∧
    c.tdc.aux.length = 2 ∧ c.faults.srcs.length = 128 ∧ c.power.doms.length = 9 ∧ c.tpp.peers.length = 32 ∧
    c.sec.peerKeys.length = 32 ∧ c.sec.saKeys.length = 256 ∧ c.synth.groups.length = 8 ∧ c.synth.outs.length = 16 ∧ c.synth.trigs.length = 4 ∧
    c.synth.cache.length = 64 ∧ c.sess.servos.length = 4 ∧ c.sess.sas.length = 256 ∧ c.ports.length = 8 ∧
    (∀ x ∈ c.hand.rwd, isRwd x.1 = true) ∧
    ∀ p ∈ c.ports, p.rx.length = 5 ∧ p.tx.length = 3 ∧ p.pfcEnd.length = 8 ∧ p.back.length = 2 ∧ p.banks.length = 2

/-! ### Requests (12 R314, R321, R331–R334) -/

/-- The device on which a request is served at once when it arrives; none while its transport, or an earlier request, does not
let it be served. -/
def Chip.arrives (c : Chip) (q : Envelope) (call : Call) : Option Chip :=
  let net (p : Fin 8) : Option Chip :=
    if !c.netUp p.val || !c.netOn q.src then none
    else if c.netHead p q.src (encodeRequest q.tid q.auth call) then some (c.rxTake p.val 3).2 else some c
  match q.src with
  | .qspi =>
    if c.qspiUp && c.tpp.ready && !c.qspiBusy && c.tpp.inbox.isEmpty && decide (c.tpp.outbox.length < 4) then some c else none
  | .eth p _ _ => net p
  | .udp p .. => net p

/-- A request is served on the device `d` for requester `a`: it has arrived, passed checks 1 and 2 and been counted, it repeats no request
whose response is kept, and it waits for the wake of no domain. `n`: the entry whose key signs the response. -/
def Chip.Served (c : Chip) (q : Envelope) (call : Call) (n : Option Nat) (a : Asker) (d : Chip) : Prop :=
  ∃ b p, c.arrives q call = some b ∧ b.entryCheck q call = .pass n a p ∧ d = p.inc 0x1101 (7 - transportBit q.src) ∧
    d.keptFor q = none ∧ callMiscounted call = false ∧ d.callNeeds a q call = []

/-- A write of bytes is served and passes checks 3 to 10 of R314; `r`: the row of its subindex; `e`: the device on which it acts. -/
def Chip.BytesTaken (c : Chip) (q : Envelope) (idx sub : Nat) (data : List Nat) (n : Option Nat) (r : Row) (e : Chip) : Prop :=
  c.grade.rule idx sub = some r ∧ ∃ a d, c.Served q (.write idx sub r.ty.code data) n a d ∧ e = d.accessWake r ∧
    d.writeForm a idx sub r.ty.code data true = .ok r ∧ d.valueErr r idx sub data true = none ∧
    e.stateBad idx sub (r.stored data) = false

/-- A write of the number `v` is served, passes checks 3 to 10, and acts on `e`. -/
def Chip.WriteTaken (c : Chip) (q : Envelope) (idx sub v : Nat) (n : Option Nat) (r : Row) (e : Chip) : Prop :=
  r.var = false ∧ r.stored (r.encode v) = v ∧ c.BytesTaken q idx sub (r.encode v) n r e

/-- A read is served on `d` and passes checks 3 to 10. -/
def Chip.ReadTaken (c : Chip) (q : Envelope) (idx sub : Nat) (n : Option Nat) (d : Chip) : Prop :=
  ∃ a, c.Served q (.read idx sub) n a d ∧ d.readRefusal a idx sub true = none

/-- The device after a read has answered with `bytes`. -/
def Chip.saidRead (e : Chip) (q : Envelope) (n : Option Nat) (head bytes : List Nat) : Chip :=
  e.respondKeep q n 0x81 (head ++ toBytes 2 bytes.length ++ bytes)

/-- The device after a write of a number has taken effect and its response has been sent and kept. -/
def Chip.saidOk (e : Chip) (q : Envelope) (n : Option Nat) (idx sub : Nat) : Chip :=
  e.respondKeep q n 0x82 (toBytes 2 idx ++ [sub, 0])

end Sys2Proof.Machine
end

