-- ==== Sys2Proof/Certificates/Slice0/Obligations.lean ====
section
/-!
DEFINITION. Sys2Proof/Certificates/Slice0/Obligations.lean: the statements for the provers, family by family. `Acts i s d` says
that command `i` completes at `s` with the own effect `d`, which every unit then follows. Premises such as
`s.chip.cands.length = 28` are parts of the invariant `Chip.Sound`, which EveryStepKeepsTheInvariant states.
-/

open Sys2Proof Sys2Proof.Machine

/-! ### The machine -/

/-- A step takes the command at the front of the queue and acts as `exec` does with the rest of the queue kept; with no command
waiting it only lets the device idle (the queue and the idle tick are the model's choice: logs 1 and 7). -/
def Obligations.StepRunsTheFrontCommand : Prop :=
  (∀ (i : Instr) (s : State), step (s.withFront i) = exec i s) ∧
  (∀ s : State, s.pending = [] → step s = .next { s with chip := s.chip.idle }) ∧
  ∀ s : State, ∃ t, step s = .next t ∧ t.pending = s.pending.tail

/-- At reset no command waits, the time counter reads 0, OPERATING_PHASE is RESET, no subindex differs from its reset or default,
nothing is staged, no request is served and ERR_N is high; and the state is one that the invariant holds of (objects whose reset
the spec marks "—" read 0: log 2; grade -F: log 3). -/
def Obligations.ResetState : Prop :=
  State.reset.pending = [] ∧ State.reset.chip.time.seconds = 0 ∧ State.reset.chip.time.nanoseconds = 0 ∧
    State.reset.chip.time.fraction = 0 ∧ State.reset.chip.phase = 0 ∧ State.reset.chip.staged = [] ∧
    State.reset.chip.tpp.ready = false ∧ State.reset.chip.tpp.inbox = [] ∧ State.reset.chip.tpp.outbox = [] ∧
    State.reset.chip.faults.errLow = false ∧ (∀ idx sub, State.reset.chip.rd idx sub = dfltOf idx sub) ∧ State.reset.chip.Sound

/-- Every step of a device whose NV array is canonical, whose units are all there, and whose deal has readied RWD values only, answers
such a device, of the same grade. -/
def Obligations.EveryStepKeepsTheInvariant : Prop :=
  ∀ s t : State, s.chip.Sound → step s = .next t → t.chip.Sound ∧ t.chip.grade = s.chip.grade

/-- What the device reads from the bytes of a well-formed request of at most 1,400 bytes is that request: its TRANSACTION_ID, its
authentication and every field of its body (12 R317). -/
def Obligations.RequestsParseBack : Prop :=
  ∀ (q : Envelope) (call : Call), q.wf = true → call.wf = true → (encodeRequest q.tid q.auth call).length ≤ 1400 →
    parseRequest (encodeRequest q.tid q.auth call) = some (q.tid, .ok (q.auth, call))

/-- A bound of v ps is encoded with the smallest exponent for which its mantissa, rounded up, fits the limit, and a bound of 0 as
1 ps; the encoded value is never smaller; what cannot be stated is 0x3FFFF; no mantissa is 0, and a received one of 0 is unknown;
fields encoded "as R14" follow the same rules with their own limit and largest exponent (00 R14). -/
def Obligations.BoundsAreEncodedUpward : Prop :=
  (∀ lim top v e m : Nat, 1 ≤ lim → (encodeBound lim top v = some (e, m) ↔
    e ≤ top ∧ ceilDiv v (2 ^ e) ≤ lim ∧ (∀ f, f < e → lim < ceilDiv v (2 ^ f)) ∧ m = (if v = 0 then 1 else ceilDiv v (2 ^ e)))) ∧
  (∀ lim top v, encodeBound lim top v = none ↔ ∀ e, e ≤ top → lim < ceilDiv v (2 ^ e)) ∧
  (∀ lim top v e m, encodeBound lim top v = some (e, m) → v ≤ m * 2 ^ e ∧ m ≠ 0) ∧
  (∀ v e m, encodeBound 8191 30 v = some (e, m) → encodeTeb (some v) = e * 8192 + m ∧
    decodeTeb (encodeTeb (some v)) = some (m * 2 ^ e)) ∧
  (∀ v, encodeBound 8191 30 v = none → encodeTeb (some v) = 0x3FFFF) ∧ encodeTeb none = 0x3FFFF ∧
  (∀ v, field 12 0 (encodeTeb v) ≠ 0) ∧ ∀ t, field 12 0 t = 0 → decodeTeb t = none

/-- The subindices of UNIT_PRESENCE are CONST: every role reads them and none may write them; their values are those of the grade,
and no step changes the grade (00 R3). -/
def Obligations.UnitPresenceIsConst : Prop :=
  (∀ (c : Chip) (a : Asker) (sub ty : Nat) (d : List Nat) (whole : Bool), 1 ≤ sub → sub ≤ 4 →
    (∃ r, c.grade.rule 0x1020 sub = some r ∧ r.acc = .const) ∧ c.writeForm a 0x1020 sub ty d whole = .error readOnly ∧
      c.readRefusal a 0x1020 sub true = none ∧
      c.readNow 0x1020 sub = (toBytes (if sub = 4 then 1 else 4) (c.grade.presence sub), c)) ∧
  (Grade.presence .f 1 = 0xFFFFFFFF ∧ Grade.presence .s 1 = 0xFFFFFFFF ∧ Grade.presence .e 1 = 0x00FF0F0F) ∧
  (Grade.presence .f 2 = 0xFFFF0003 ∧ Grade.presence .s 2 = 0xFFFF0002 ∧ Grade.presence .e 2 = 0x00FF0000) ∧
  (Grade.presence .f 3 = 65536 ∧ Grade.presence .s 3 = 32768 ∧ Grade.presence .e 3 = 8192) ∧
  (Grade.presence .f 4 = 3 ∧ Grade.presence .s 4 = 2 ∧ Grade.presence .e 4 = 2) ∧
  ∀ s t : State, step s = .next t → t.chip.grade = s.chip.grade

/-! ### Starts, the LO and the engine clock (01, 17) -/

/-- MAST_POWER_UP restarts the time counter with cause 0x0 and leaves every object but those of OPERATING_PHASE and SUPPLY_GOOD at
its reset or default, the NV array as it was; MAST_RESET leaves MAST without content, and of a program in progress the bytes of
column groups done read new, those of groups not started old, each bit of the group in progress old or new, and every other byte
as it was (17 R407, 19 R436, 11 R285; reset values of objects: log 2). -/
def Obligations.MastPowerRestartsTheDevice : Prop :=
  (∀ s : State, ∃ d, Acts .mastPowerUp s d ∧ d.time.seconds = 0 ∧ d.time.nanoseconds = 0 ∧ d.time.fraction = 0 ∧
    d.rd 0x1030 1 = 0 ∧ d.rd 0x1030 2 = 0 ∧ d.nv.cells = s.chip.nv.cells ∧ d.grade = s.chip.grade ∧ d.start.powered = true ∧
    d.tpp.ready = false ∧ ∀ idx sub, sub < 256 → idx ≠ 0x1030 → (idx, sub) ≠ (0xA001, 2) → d.rd idx sub = dfltOf idx sub) ∧
  (∀ (s : State) (n : Nat), ∃ d, Acts (.mastReset n) s d ∧ d.start.powered = false ∧ d.grade = s.chip.grade ∧ d.nv.prog = none ∧
    (s.chip.nv.prog = none → d.nv.cells = s.chip.nv.cells) ∧
    ∀ idx sub, sub < 256 → (idx, sub) ≠ (0xA001, 2) → d.rd idx sub = dfltOf idx sub) ∧
  ∀ (s : State) (n : Nat) (p : NvProg), s.chip.nv.prog = some p → (p.bytes.map (·.1)).Nodup → Memory.wf s.chip.nv.cells = true →
    let before (b : Nat) : Nat := ((List.range (b / 64)).filter (fun g => p.bytes.any (fun x => x.1 / 64 == g))).length
    ∃ d, Acts (.mastReset n) s d ∧ (∀ x, (∀ b ∈ p.bytes, p.page * 256 + b.1 ≠ x) → d.nvByte x = s.chip.nvByte x) ∧
      ∀ b ∈ p.bytes, b.1 < 256 → (before b.1 < n → d.nvByte (p.page * 256 + b.1) = b.2 % 256) ∧
        (n < before b.1 → d.nvByte (p.page * 256 + b.1) = s.chip.nvByte (p.page * 256 + b.1)) ∧
        ∀ i, i < 8 → bit i (d.nvByte (p.page * 256 + b.1)) = bit i (b.2 % 256) ∨
          bit i (d.nvByte (p.page * 256 + b.1)) = bit i (s.chip.nvByte (p.page * 256 + b.1))

/-- RST_N_ASSERT, CHIP_RESET and SOFTWARE_RESET restart the Steward with the causes 0x1, 0x2 and 0x3 of R407: phase RESET, no
request and no response of any requester left, nothing staged, and the start-up at its beginning. -/
def Obligations.StewardRestartsWithItsCause : Prop :=
  let restarted (d : Chip) (cause : Nat) : Prop :=
    d.rd 0x1030 1 = 0 ∧ d.rd 0x1030 2 = cause ∧ d.staged = [] ∧ d.tpp.ready = false ∧ d.tpp.inbox = [] ∧ d.tpp.outbox = [] ∧
      d.tpp.transfers = [] ∧ d.tpp.kept = [] ∧ d.start.stage = 0
  (∀ s : State, s.chip.start.rstLow = false → ∃ d, Acts .rstNAssert s d ∧ restarted d 1 ∧ d.start.rstLow = true) ∧
  (∀ s : State, s.chip.faults.chipReset = true → ∃ d, Acts .chipReset s d ∧ restarted d 2) ∧
  ∀ (s : State) (q : Envelope) (n : Option Nat) (r : Row) (e : Chip), s.chip.WriteTaken q 0x1030 6 0x00525354 n r e →
    ∃ d, Acts (.softwareReset q 0x00525354) s d ∧ restarted d 3

/-- The Steward's start, with no erasure journal to replay: in the recorded lifecycle FACTORY with a test mode it ends in phase
FACTORY; else it waits in RESET while RST_N is low, and otherwise ends in INIT with requests served; it shows the straps and the
test mode, and that the test mode was ignored in another lifecycle. RST_N's rise lets a start that waits for it go on to INIT, and
one that has not run its first steps only sees the pin high (17 R408–R410, R423). -/
def Obligations.StewardStartsToInit : Prop :=
  let ready (c : Chip) (lc : Nat) : Prop := c.start.stage = 0 ∧ c.start.powered = true ∧ (c.secLoad (.journal 0)).1 = none ∧
    ∃ p, (c.secLoad .lifecycle).1 = some p ∧ byteAt p 0 = lc
  (∀ (s : State) (straps : Fin 8) (mode : Fin 4), ready s.chip 0 → mode.val ≠ 0 →
    ∃ d, Acts (.stewardStart straps mode) s d ∧ d.rd 0x1030 1 = 5 ∧ d.start.stage = 1 ∧ d.tpp.ready = true ∧
      d.rd 0x1030 3 = mode.val * 8 + straps.val) ∧
  (∀ (s : State) (straps : Fin 8) (mode : Fin 4) (lc : Nat), ready s.chip lc → lc ≠ 0 ∨ mode.val = 0 →
    s.chip.start.rstLow = true → s.chip.rd 0x1030 1 = 0 → s.chip.tpp.ready = false →
    ∃ d, Acts (.stewardStart straps mode) s d ∧ d.rd 0x1030 1 = 0 ∧ d.start.stage = 1 ∧ d.tpp.ready = false ∧
      d.rd 0x1030 3 = (if mode.val = 0 then 0 else 32) + mode.val * 8 + straps.val) ∧
  (∀ (s : State) (straps : Fin 8) (mode : Fin 4) (lc : Nat), ready s.chip lc → lc ≠ 0 ∨ mode.val = 0 →
    s.chip.start.rstLow = false →
    ∃ d, Acts (.stewardStart straps mode) s d ∧ d.rd 0x1030 1 = 1 ∧ d.start.stage = 2 ∧ d.tpp.ready = true ∧
      d.rd 0x1030 3 = (if mode.val = 0 then 0 else 32) + mode.val * 8 + straps.val) ∧
  (∀ s : State, s.chip.start.rstLow = true → s.chip.start.stage = 1 → s.chip.phase = 0 →
    ∃ d, Acts .rstNRelease s d ∧ d.start.rstLow = false ∧ d.rd 0x1030 1 = 1 ∧ d.start.stage = 2 ∧ d.tpp.ready = true) ∧
  ∀ s : State, s.chip.start.rstLow = true → s.chip.start.stage = 0 →
    ∃ d, Acts .rstNRelease s d ∧ d.start.rstLow = false ∧ d.start.stage = 0 ∧ s.chip.Frame d [.start] []

/-- The power-on self-test shows its result and its map of failed tests, and begins the image load of step 8; with more than 64 cells
withdrawn, a plan or session-table failure, or fewer than two engines left, it leads to RECOVERY, as SAFE_START does; an
engine-image load that ends in time starts the engines, and one that does not counts as a failure (17 R410, R412, R414 and the
table "Power-on self-test"). -/
def Obligations.SelfTestAndLoadEnd : Prop :=
  (∀ (s : State) (cells engines lanes rails monitors : Nat) (plan : Bool), s.chip.phase = 2 → s.chip.start.stage = 3 →
    s.chip.start.loading = false →
    let es := (bitsSet 16 engines).filter (fun e => e < s.chip.grade.engines)
    let ls := (bitsSet 24 lanes).filter s.chip.grade.hasLane
    let rs := (bitsSet 128 rails).filter (srcPresent s.chip.grade)
    let ms := bitsSet (3 + s.chip.grade.chans) monitors
    let map := (if bitsSet 12288 cells = [] ∧ plan = false then 0 else 1) + (if es = [] then 0 else 2) + (if ls = [] then 0 else 4) +
      (if rs = [] then 0 else 8) + (if ms = [] then 0 else 16)
    let bad := decide (64 < (bitsSet 12288 cells).length) || plan || decide (s.chip.grade.engines < es.length + 2)
    ∃ d, Acts (.postComplete cells plan engines lanes rails monitors) s d ∧ d.rd 0xD001 1 = (if map = 0 then 1 else 2) ∧
      d.rd 0xD001 2 = map ∧ d.rd 0x1030 1 = (if bad || s.chip.safeStart then 4 else 2) ∧ d.start.stage = 4 ∧
      d.start.postFailed = bad ∧ d.start.loading = true ∧ d.rd 0xE001 6 = satAdd 32 (s.chip.rd 0xE001 6) 1) ∧
  (∀ (s : State) (us : Nat), s.chip.start.loading = true → s.chip.start.imageBad = false →
    ∃ d, Acts (.firmwareLoadComplete us) s d ∧ d.start.loading = false ∧ d.start.enginesUp = true ∧
      d.rd 0xE001 8 = us % 2 ^ 32) ∧
  ∀ (s : State) (us : Nat), s.chip.start.loading = true →
    ∃ d, Acts (.firmwareLoadTimeout us) s d ∧ d.start.loading = false ∧ d.start.imageBad = true ∧
      d.rd 0xE001 7 = satAdd 32 (s.chip.rd 0xE001 7) 1 ∧ d.rd 0xE001 8 = us % 2 ^ 32 ∧
      (s.chip.phase = 2 → d.rd 0x1030 1 = 4)

/-- The LO's presence: it is absent once declared so, or 100 ms after a start without it: shown, counted, with F002 live, the
measurement clock without lock and, where the engine clock ran on the LO, that clock stopped; it is present once found, F002 no
longer live and an engine clock that had stopped taken from SYSPLL where that is locked, with both engine domains reset (02 R65,
01 R36, 03 R69). -/
def Obligations.LoPresenceIsDeclared : Prop :=
  let absent (c d : Chip) : Prop := d.time.lo = .absent ∧ d.rdb 0x4000 4 1 = false ∧ d.rd 0x4000 7 = satAdd 32 (c.rd 0x4000 7) 1 ∧
    d.mclk = false ∧ (d.src 2).live = true
  let sound (c : Chip) : Prop := c.faults.srcs.length = 128 ∧ (c.src 2).broken = false ∧ c.rd 0x9102 4 = 0
  (∀ s : State, sound s.chip → s.chip.time.lo ≠ .absent → ∃ d, Acts .loAbsentDeclared s d ∧ absent s.chip d ∧
    (s.chip.time.lo = .present → s.chip.rd 0x4008 1 = 2 → d.rd 0x4008 1 = 3)) ∧
  (∀ s : State, sound s.chip → s.chip.time.lo = .undeclared → ∃ d, Acts .loStartupTimeout s d ∧ absent s.chip d) ∧
  ∀ s : State, sound s.chip → s.chip.time.lo ≠ .present → ∃ d, Acts .loPresentDeclared s d ∧ d.time.lo = .present ∧
    d.rdb 0x4000 4 1 = true ∧ (d.src 2).live = false ∧ (s.chip.rd 0x4008 1 = 3 → s.chip.syspllLocked = true → d.rd 0x4008 1 = 0 ∧
      Dom.enga ∈ d.power.resetDoms ∧ Dom.engb ∈ d.power.resetDoms)

/-- SYSPLL and the engine clock (01 R31–R34): a window judged off by more than 1 % ends lock; the fourth good window in a row
declares it; the old clock stops before the new one starts, and the start shows the new source, counting a move to the core APLL,
to the LO, or a return (which of the three a move to a more preferred source counts in is the model's choice: log 57); a restart
that failed is repeated, and counted while no user of the clock is awake. -/
def Obligations.EngineClockMoves : Prop :=
  let expected (c : Chip) : Nat := roundDiv (c.nominal * 128) 100000000 * 1000000000 / c.nominal
  (∀ (s : State) (n : Nat), s.chip.awake .syspll = true → s.chip.loPresent = true →
    s.chip.start.untrusted.contains .syspll = false → s.chip.syspllLocked = true → 100 * n < 99 * expected s.chip →
    ∃ d, Acts (.syspllLockWindowEnd n) s d ∧ d.syspllLocked = false ∧ d.start.sysRestarting = true) ∧
  (∀ s : State, s.chip.awake .syspll = true → s.chip.loPresent = true → s.chip.start.untrusted.contains .syspll = false →
    s.chip.syspllLocked = false → 3 ≤ s.chip.start.sysGood →
    ∃ d, Acts (.syspllLockWindowEnd (expected s.chip)) s d ∧ d.syspllLocked = true) ∧
  (∀ (s : State) (m : Nat), s.chip.start.muxTo = some m → ∃ d, Acts .engineClockStop s d ∧ d.start.muxHeld = true ∧
    d.start.muxTo = some m ∧ s.chip.Frame d [.start] []) ∧
  (∀ (s : State) (m : Nat), s.chip.start.muxTo = some m → s.chip.start.muxHeld = true →
    ∃ d, Acts .engineClockStart s d ∧ d.rd 0x4008 1 = m ∧ d.start.muxTo = none ∧ d.start.muxHeld = false ∧
      (m < s.chip.rd 0x4008 1 → d.rd 0x4008 5 = satAdd 32 (s.chip.rd 0x4008 5) 1) ∧
      (¬ m < s.chip.rd 0x4008 1 → m = 1 → d.rd 0x4008 3 = satAdd 32 (s.chip.rd 0x4008 3) 1) ∧
      (¬ m < s.chip.rd 0x4008 1 → m ≠ 1 → d.rd 0x4008 4 = satAdd 32 (s.chip.rd 0x4008 4) 1)) ∧
  ∀ s : State, s.chip.start.sysRestarting = true → s.chip.syspllLocked = false →
    ∃ d, Acts .syspllRestartTimeout s d ∧ d.start.sysRestarts = (s.chip.start.sysRestarts + 1) % 3 ∧ d.start.sysRestarting = true ∧
      d.rd 0x4008 6 = (if s.chip.clockUsed then s.chip.rd 0x4008 6 else satAdd 32 (s.chip.rd 0x4008 6) 1)

/-- The self-tests in service count a pass, or a failure with its time and test, while they are enabled in SERVICE or RECOVERY; an
engine whose retry time has come, and that no FULL session holds, may return (17 R416–R422). -/
def Obligations.SelfTestsCount : Prop :=
  (∀ s : State, s.chip.testRuns 0 = true → s.chip.spare < 16 →
    (∀ e, e < 16 → s.chip.engState e ≠ 5) →
    (∃ d, Acts (.spareTestComplete true) s d ∧ d.rd 0xD001 3 = satAdd 32 (s.chip.rd 0xD001 3) 1 ∧ s.chip.Frame d [] [(0xD001, 3)]) ∧
    ∃ d, Acts (.spareTestComplete false) s d ∧ d.rd 0xD001 0x0A = satAdd 32 (s.chip.rd 0xD001 0x0A) 1 ∧ d.rd 0xD001 0x12 = 0 ∧
      d.rd 0xD001 0x11 = s.chip.stamp 0 0) ∧
  (∀ s : State, s.chip.testRuns 1 = true → s.chip.awake .fabric = true → s.chip.start.withdrawn.contains 12287 = false →
    ∃ d, Acts (.marchCellTest 12287 false) s d ∧ d.rd 0xD001 4 = satAdd 32 (s.chip.rd 0xD001 4) 1) ∧
  (∀ (s : State) (x : Fin 12288), s.chip.testRuns 1 = true → s.chip.awake .fabric = true →
    s.chip.start.withdrawn.contains x.val = false →
    ∃ d, Acts (.marchCellTest x true) s d ∧ d.rd 0xD001 0x0B = satAdd 32 (s.chip.rd 0xD001 0x0B) 1 ∧ d.rd 0xD001 0x12 = 1 ∧
      x.val ∈ d.start.withdrawn ∧ d.rd 0xD001 0x13 = s.chip.start.withdrawn.length + 1) ∧
  (∀ s : State, s.chip.testRuns 4 = true →
    ∃ d, Acts (.railPairToggle 127 false) s d ∧ d.rd 0xD001 7 = satAdd 32 (s.chip.rd 0xD001 7) 1) ∧
  (∀ (s : State) (x : Fin 128), s.chip.testRuns 4 = true → srcPresent s.chip.grade x.val = true → s.chip.srcDriven x.val = true →
    ∃ d, Acts (.railPairToggle x true) s d ∧ d.rd 0xD001 0x0E = satAdd 32 (s.chip.rd 0xD001 0x0E) 1) ∧
  (∀ (s : State) (m : Monitor), s.chip.testRuns 5 = true →
    (∃ d, Acts (.lockMonitorCheck m true true) s d ∧ d.rd 0xD001 8 = satAdd 32 (s.chip.rd 0xD001 8) 1) ∧
    ∃ d, Acts (.lockMonitorCheck m true false) s d ∧ d.rd 0xD001 0x0F = satAdd 32 (s.chip.rd 0xD001 0x0F) 1 ∧
      m ∈ d.start.untrusted) ∧
  (∀ (s : State) (p : Fin 8) (h v : Nat), s.chip.testRuns 6 = true → s.chip.rxLpi p.val = true → p.val < s.chip.grade.ports →
    ∃ d, Acts (.marginScanComplete p h v) s d ∧ d.rd (0xD008 + p.val) 1 = h % 65536 ∧ d.rd (0xD008 + p.val) 2 = v % 65536 ∧
      d.rdb (0xD008 + p.val) 3 0 = decide (h % 65536 < s.chip.rd 0xD000 5)) ∧
  (∀ (s : State) (e : Fin 16), s.chip.engState e.val = 3 → s.chip.start.retryWait.contains e.val = true →
    s.chip.recentFails e.val < 3 → s.chip.heldFull e.val = false → ∃ d, Acts (.engineRetryTimer e) s d ∧ d.engState e.val = 5) ∧
  ∀ (s : State) (l : Nat), s.chip.testRuns 3 = true → s.chip.armed 1 = 0 → s.chip.tdc.crossLane = some l →
    ∃ d, Acts .crossCheckDwellEnd s d ∧ d.rd 0xD001 6 = satAdd 32 (s.chip.rd 0xD001 6) 1 ∧
      ∀ m, d.tdc.crossLane = some m → s.chip.laneRuns m = true

/-! ### Faults (13) -/

/-- The first error of a present, unbroken event source other than F001 (never captured, R347) while no capture is held: it is
counted, its pennant rises, the capture holds the source, its class, master, access and address, its instance and DETAIL, and no
later error, with the INFO word of R355; no subindex outside the collector changes (13 R341, R346, R355). -/
def Obligations.FirstErrorIsCaptured : Prop :=
  ∀ (s : State) (src : Fin 128) (inst detail : Nat) (a : Access), srcPresent s.chip.grade src.val = true → src.val ≠ 1 →
    srcCond src.val = false → s.chip.srcDriven src.val = true → (s.chip.src src.val).broken = false →
    (s.chip.src src.val).pennant = false → s.chip.rdb 0x9010 1 15 = false → src.val < s.chip.faults.srcs.length →
    ¬ (104 ≤ src.val ∧ src.val < 120) →
    let info := if src.val = 8 ∨ src.val = 9 then detail % 4096
      else if 40 ≤ src.val ∧ src.val < 48 then (src.val - 40) * 2 ^ 24
      else if 64 ≤ src.val ∧ src.val < 72 then (src.val - 64) * 2 ^ 24
      else if src.val ∈ [23, 34, 48, 49, 50, 61, 62, 88, 89, 90] then inst % 256 * 2 ^ 24 else 0
    ∃ d, Acts (.faultAssertion src inst detail (some a)) s d ∧ (d.src src.val).pennant = true ∧
      d.rd (0x9100 + src.val) 5 = satAdd 32 (s.chip.rd (0x9100 + src.val) 5) 1 ∧
      d.rd (0x9100 + src.val) 6 = satAdd 32 (s.chip.rd (0x9100 + src.val) 6) 1 ∧
      d.rd 0x9010 1 = 2 ^ 15 + 2 ^ 13 + srcClass src.val * 2 ^ 7 + src.val ∧ d.rd 0x9010 2 = a.master ∧
      d.rd 0x9010 3 = a.code ∧ d.rd 0x9010 4 = a.addr ∧ d.rd 0x9010 5 = info ∧
      d.rd 0x9010 7 = 0 ∧
      ∀ idx sub, sub < 256 → idx < 0x9000 ∨ 0x9180 ≤ idx → d.rd idx sub = s.chip.rd idx sub

/-- A repeat of an error whose pennant stands is counted and is no error: nothing else changes; while a capture is held, a further
error of a later LO cycle leaves it as it is, counts as a later error, raises the highest class seen and F001; and one of the same
LO cycle and a higher class takes the capture, the one captured before it counting as later (13 R341, R346, R347). -/
def Obligations.RepeatedAndLaterErrors : Prop :=
  let event (c : Chip) (x : Nat) : Prop := srcPresent c.grade x = true ∧ srcCond x = false ∧ c.srcDriven x = true ∧
    (c.src x).broken = false ∧ ¬ (104 ≤ x ∧ x < 120) ∧ c.faults.srcs.length = 128
  (∀ (s : State) (src : Fin 128) (inst detail : Nat) (a : Option Access), event s.chip src.val → (s.chip.src src.val).pennant = true →
    ∃ d, Acts (.faultAssertion src inst detail a) s d ∧
      d.rd (0x9100 + src.val) 5 = satAdd 32 (s.chip.rd (0x9100 + src.val) 5) 1 ∧
      s.chip.Frame d [] [(0x9100 + src.val, 5)]) ∧
  (∀ (s : State) (src : Fin 128) (inst detail : Nat) (a : Option Access), event s.chip src.val →
    (s.chip.src src.val).pennant = false → s.chip.rdb 0x9010 1 15 = true → src.val ≠ 1 →
    s.chip.faults.capturedAt ≠ some s.chip.time.mono →
    ∃ d, Acts (.faultAssertion src inst detail a) s d ∧ (∀ k, 1 ≤ k → k ≤ 6 → d.rd 0x9010 k = s.chip.rd 0x9010 k) ∧
      d.rd 0x9010 7 = satAdd 32 (s.chip.rd 0x9010 7) 1 ∧
      d.rdf 0x9010 8 1 0 = max (s.chip.rdf 0x9010 8 1 0) (srcClass src.val) ∧
      d.rd 0x9101 5 = satAdd 32 (s.chip.rd 0x9101 5) 1 ∧ (d.src 1).pennant = true) ∧
  ∀ (s : State) (src : Fin 128) (inst detail : Nat) (a : Option Access), event s.chip src.val →
    (s.chip.src src.val).pennant = false → s.chip.rdb 0x9010 1 15 = true → src.val ≠ 1 →
    s.chip.faults.capturedAt = some s.chip.time.mono → s.chip.rdf 0x9010 1 8 7 < srcClass src.val →
    ∃ d, Acts (.faultAssertion src inst detail a) s d ∧ d.rdf 0x9010 1 6 0 = src.val ∧ d.rdf 0x9010 1 8 7 = srcClass src.val ∧
      d.rdb 0x9010 1 15 = true ∧ d.rd 0x9010 7 = satAdd 32 (s.chip.rd 0x9010 7) 1 ∧ d.rdf 0x9010 8 1 0 = srcClass src.val

/-- A source's condition ends, a pair breaks or is valid again, the waiting trap of the highest class and in it of the lowest source
is taken, and ERR_N's minimum width ends (13 R339, R340, R345, R349). -/
def Obligations.CollectorFollowsItsInputs : Prop :=
  (∀ (s : State) (src : Fin 128), src.val < s.chip.faults.srcs.length → (s.chip.src src.val).broken = false →
    s.chip.rd (0x9100 + src.val) 4 ≠ 1 →
    ∃ d, Acts (.faultDeassertion src) s d ∧ (d.src src.val).live = false ∧ (d.src src.val).pennant = (s.chip.src src.val).pennant ∧
      s.chip.Frame d [.faults] []) ∧
  (∀ (s : State) (src : Fin 128) (high : Bool), src.val ≠ 0 → s.chip.faults.srcs.length = 128 →
    srcPresent s.chip.grade src.val = true → s.chip.srcDriven src.val = true → (s.chip.src src.val).broken = false →
    ∃ d, Acts (.railPairBroken src high) s d ∧ (d.src src.val).broken = true ∧ (d.src src.val).brokenHigh = high ∧
      (d.src src.val).live = (s.chip.src src.val).live ∧ ((s.chip.src 0).broken = false → (d.src 0).live = true)) ∧
  (∀ (s : State) (src : Fin 128), s.chip.faults.srcs.length = 128 → (s.chip.src src.val).broken = true →
    (s.chip.src src.val).rail = false → ∃ d, Acts (.railPairRestored src) s d ∧ (d.src src.val).broken = false ∧
      (d.src src.val).live = false) ∧
  (∀ (s : State) (k : Fin 128), (s.chip.src k.val).trapWaits = true →
    (∀ j : Fin 128, (s.chip.src j.val).trapWaits = true → 1 ≤ srcClass j.val ∧
      (srcClass j.val < srcClass k.val ∨ srcClass j.val = srcClass k.val ∧ k.val ≤ j.val)) → s.chip.faults.srcs.length = 128 →
    ∃ d, Acts .faultTrap s d ∧ d.faults.trap = some k.val ∧ (d.src k.val).trapWaits = false ∧ s.chip.Frame d [.faults] []) ∧
  ∀ s : State, s.chip.faults.errWidth = true →
    ∃ d, Acts .errWidthExpiry s d ∧ d.faults.errWidth = false ∧ s.chip.Frame d [.faults] [] ∧
      d.faults.errLow = (s.chip.faults.errLow && !(s.chip.rd 0x9000 2 == 0 || s.chip.faults.errRelease))

/-- ERR_RELEASE, CAPTURE_RELEASE, PENNANT_CLEAR, CLEAR_ALL, FORCE and RETRY, once taken, act on the device as their rules say, and are
answered: ERR_N returns high, at the end of its minimum width if that runs; the capture is emptied and armed; a pennant, or every
one, is lowered whose source is not live; a forced condition is live, a forced event is counted, and forced rails are broken; and
an engine named by RETRY no longer waits, its failures forgotten (13 R348, R349, R353, R354, 17 R416). -/
def Obligations.CollectorWritesAct : Prop :=
  (∀ (s : State) (q : Envelope) (n : Option Nat) (r : Row) (e : Chip), s.chip.WriteTaken q 0x9000 3 1 n r e →
    ∃ d : Chip, Acts (.errRelease q) s (d.saidOk q n 0x9000 3) ∧ e.Frame d [.faults] [] ∧ d.faults.srcs = e.faults.srcs ∧
      (e.faults.errWidth = false → d.faults.errLow = false) ∧
      (e.faults.errWidth = true → d.faults.errLow = e.faults.errLow ∧ d.faults.errRelease = true)) ∧
  (∀ (s : State) (q : Envelope) (n : Option Nat) (r : Row) (e : Chip), s.chip.WriteTaken q 0x9010 9 1 n r e →
    ∃ d : Chip, Acts (.captureRelease q) s (d.saidOk q n 0x9010 9) ∧ e.Frame d [] [(0x9010, 1), (0x9010, 7), (0x9010, 8)] ∧
      d.rdb 0x9010 1 15 = false ∧ d.rd 0x9010 7 = 0 ∧ d.rdf 0x9010 8 1 0 = 0) ∧
  (∀ (s : State) (q : Envelope) (src : Fin 128) (n : Option Nat) (r : Row) (e : Chip),
    s.chip.WriteTaken q (0x9100 + src.val) 2 1 n r e → e.faults.srcs.length = 128 →
    ∃ d : Chip, Acts (.pennantClear q src) s (d.saidOk q n (0x9100 + src.val) 2) ∧ (d.src src.val).pennant = false ∧
      (∀ k, k ≠ src.val → d.src k = e.src k) ∧ e.Frame d [.faults] []) ∧
  (∀ (s : State) (q : Envelope) (n : Option Nat) (r : Row) (e : Chip), s.chip.WriteTaken q 0x9000 7 1 n r e →
    e.faults.srcs.length = 128 → ∃ d : Chip, Acts (.clearAll q) s (d.saidOk q n 0x9000 7) ∧ e.Frame d [.faults] [] ∧
      ∀ k, k < 128 → ((e.src k).live = false → (d.src k).pennant = false) ∧ ((e.src k).live = true → d.src k = e.src k)) ∧
  (∀ (s : State) (q : Envelope) (src : Fin 128) (n : Option Nat) (r : Row) (e : Chip), e.faults.srcs.length = 128 →
    srcPresent e.grade src.val = true → e.srcDriven src.val = true → (e.src src.val).broken = false →
    e.rd (0x9100 + src.val) 4 = 0 →
    (s.chip.WriteTaken q (0x9100 + src.val) 4 0 n r e → ∃ d : Chip, Acts (.force q src 0) s (d.saidOk q n (0x9100 + src.val) 4) ∧
      e.Frame d [] []) ∧
    (s.chip.WriteTaken q (0x9100 + src.val) 4 1 n r e →
      ∃ d : Chip, Acts (.force q src 1) s (d.saidOk q n (0x9100 + src.val) 4) ∧
        (srcCond src.val = true → d.rd (0x9100 + src.val) 4 = 1 ∧ (d.src src.val).live = true) ∧
        (srcCond src.val = false → d.rd (0x9100 + src.val) 4 = 0 ∧ (d.src src.val).pennant = true ∧
          d.rd (0x9100 + src.val) 5 = satAdd 32 (e.rd (0x9100 + src.val) 5) 1)) ∧
    (s.chip.WriteTaken q (0x9100 + src.val) 4 2 n r e → ∃ d : Chip, Acts (.force q src 2) s (d.saidOk q n (0x9100 + src.val) 4) ∧
      d.rd (0x9100 + src.val) 4 = 2 ∧ (d.src src.val).broken = true)) ∧
  ∀ (s : State) (q : Envelope) (mask : Nat) (n : Option Nat) (r : Row) (e : Chip), s.chip.WriteTaken q 0xE000 0x14 mask n r e →
    e.start.fails.length = 16 → ∃ d : Chip, Acts (.retry q mask) s (d.saidOk q n 0xE000 0x14) ∧ e.Frame d [.start] [] ∧
      ∀ k, k < 16 → bit k mask = true → e.engState k = 3 → nth d.start.fails k [0] = [] ∧ k ∉ d.start.retryWait

/-! ### Power (14) -/

/-- A good or bad supply is shown; a bad VDDA_PLL or VDDA_SER with its domains awake puts them to sleep and is counted, a bad VDDIO
is a power failure; a loss of VDD_CORE with a domain awake puts every switched domain to sleep, and the device into SLEEP; a flush
trigger raises F004 and enters PF_STATE, and its end follows PWR_FAIL_N; and once the supplies have been good, PF_ACTIVE clears
(14 R357, R358, R369, R370, 11 R292). -/
def Obligations.SuppliesAndPowerFailure : Prop :=
  (∀ (s : State) (rail : Fin 5), s.chip.rdb 0xA001 2 rail.val = false →
    ∃ d, Acts (.supplyGoodChange rail true) s d ∧ d.rdb 0xA001 2 rail.val = true ∧
      (rail.val ≠ 4 → s.chip.Frame d [.power] [(0xA001, 2)]) ∧
      (rail.val = 4 → s.chip.power.pfPin = false → s.chip.power.pfMonitor = false → d.failing = false)) ∧
  (∀ s : State, s.chip.power.doms.length = 9 →
    (s.chip.rdb 0xA001 2 0 = true → (∃ x ∈ switched, s.chip.dom x ≠ .asleep) →
      ∃ d, Acts (.supplyGoodChange 0 false) s d ∧ d.rdb 0xA001 2 0 = false ∧ ∀ x ∈ switched, d.dom x = .asleep) ∧
    (s.chip.rdb 0xA001 2 1 = true → s.chip.dom .sense ≠ .asleep ∨ s.chip.dom .synth ≠ .asleep →
      ∃ d, Acts (.supplyGoodChange 1 false) s d ∧ d.rdb 0xA001 2 1 = false ∧ d.dom .sense = .asleep ∧ d.dom .synth = .asleep ∧
        d.rd 0xA001 5 = satAdd 32 (s.chip.rd 0xA001 5) 1) ∧
    ∀ rail : Fin 5, rail = 2 ∨ rail = 3 → s.chip.rdb 0xA001 2 rail.val = true → s.chip.dom .port ≠ .asleep →
      ∃ d, Acts (.supplyGoodChange rail false) s d ∧ d.rdb 0xA001 2 rail.val = false ∧ d.dom .port = .asleep ∧
        d.rd 0xA001 5 = satAdd 32 (s.chip.rd 0xA001 5) 1) ∧
  (∀ s : State, s.chip.rdb 0xA001 2 4 = true → ∃ d, Acts (.supplyGoodChange 4 false) s d ∧ d.rdb 0xA001 2 4 = false ∧
    d.failing = true ∧ d.rdb 0xA001 1 6 = true) ∧
  (∀ s : State, (∃ x ∈ switched, s.chip.dom x ≠ .asleep) → s.chip.power.doms.length = 9 → ∃ d, Acts .coreSupplyLoss s d ∧
    (∀ x ∈ switched, d.dom x = .asleep) ∧ d.rd 0xA001 5 = satAdd 32 (s.chip.rd 0xA001 5) 1 ∧ d.rdb 0xA001 1 6 = true ∧
    d.powerState = 2 ∧ d.power.downTo = none) ∧
  (∀ (s : State) (m : Bool), s.chip.rd 0xA000 2 < 4 → ∃ d, Acts (.flushTrigger m) s d ∧ d.failing = true ∧
    (if m then d.power.pfMonitor = true else d.power.pfPin = true) ∧ d.rdb 0xA001 1 6 = true ∧
    (s.chip.rdb 0xA001 1 6 = false → d.powerState = s.chip.rd 0xA000 2) ∧
    (s.chip.failing = false → s.chip.faults.srcs.length = 128 → (s.chip.src 4).broken = false → (d.src 4).live = true)) ∧
  (∀ s : State, s.chip.rdb 0xA001 2 4 = true →
    ∃ d, Acts .pwrFailRelease s d ∧ d.power.pfPin = false ∧ d.power.pfMonitor = false ∧ d.failing = false ∧ d.nv.flushing = false) ∧
  ∀ s : State, s.chip.rdb 0xA001 1 6 = true → s.chip.failing = false → s.chip.suppliesFor (s.chip.rd 0xA000 1) = true →
    (s.chip.rd 0xA000 3 ≠ 1 → ∃ d, Acts .pfClear s d ∧ d.rdb 0xA001 1 6 = false ∧ d.power.held = true ∧
      s.chip.Frame d [.power] [(0xA001, 1)]) ∧
    (s.chip.rd 0xA000 3 = 1 → s.chip.rdb 0xA000 7 0 = true → s.chip.rd 0xA000 1 < s.chip.powerState →
      ∃ d, Acts .pfClear s d ∧ d.rdb 0xA001 1 6 = false ∧ d.powerState = s.chip.rd 0xA000 1 ∧
        d.power.moving = some (s.chip.rd 0xA000 1))

/-- A transition to a lower power state takes effect once the deal after its request has been processed, and one to a higher
state at its request, the request itself being stored; one that is asked for while another is under way waits for it; when a
transition takes effect, STATE takes the code and the transition is counted (14 R366, R377). -/
def Obligations.PowerStateChanges : Prop :=
  (∀ (s : State) (t : Nat), s.chip.power.downTo = some t → s.chip.power.downReady = true → s.chip.rdb 0xA001 1 6 = false →
    t < 4 → s.chip.powerState ≠ t →
    ∃ d, Acts .powerDownTransition s d ∧ d.powerState = t ∧ d.rdb 0xA001 1 7 = true ∧ d.power.moving = some t ∧
      d.power.downTo = none ∧ d.rd 0xA001 6 = satAdd 32 (s.chip.rd 0xA001 6) 1) ∧
  ∀ (s : State) (q : Envelope) (t : Nat) (n : Option Nat) (r : Row) (e : Chip), t < 3 → s.chip.WriteTaken q 0xA000 1 t n r e →
    ∃ d : Chip, Acts (.powerTargetWrite q t) s (d.saidOk q n 0xA000 1) ∧ d.rd 0xA000 1 = t ∧
      (∀ m, e.power.moving = some m → d.power.nextTarget = some t ∧ d.powerState = e.powerState ∧ d.power.moving = some m) ∧
      (e.power.moving = none → t < e.powerState → d.powerState = t ∧ d.rdb 0xA001 1 7 = true ∧ d.power.moving = some t ∧
        d.rd 0xA001 6 = satAdd 32 (e.rd 0xA001 6) 1) ∧
      (e.power.moving = none → t = e.powerState → d.power.downTo = none ∧ d.powerState = e.powerState) ∧
      (e.power.moving = none → e.powerState < t → d.power.downTo = some t ∧ d.powerState = e.powerState ∧
        e.Frame d [.power] [(0xA000, 1)])

/-- The wake sequencer: an admitted wake whose charge fits the budget puts its domain into its wake and is counted, and one that does
not fit is counted once as delayed; a wake's end makes its domain awake, once what it requires is, its supplies are good, it has a
clock and, from content loss, SENSE and the synthesis part have their locks and an engine domain its firmware; a wake that times
out is abandoned and counted (14 R373–R376). -/
def Obligations.WakesAreSequenced : Prop :=
  (∀ (s : State) (r : WakeReq), firstWake (s.chip.power.wakes.filter (fun r =>
      !s.chip.waking r.dom && s.chip.wakeReady r.dom (s.chip.monoPs + s.chip.wakeTime r.dom))) = some r →
    s.chip.power.doms.length = 9 →
    (s.chip.budgetOk (s.chip.monoPs + s.chip.wakeTime r.dom) (wakeUnits r.dom) = true →
      ∃ d, Acts .wakeAdmit s d ∧ d.waking r.dom = true ∧ d.rd 0xA002 2 = satAdd 32 (s.chip.rd 0xA002 2) 1) ∧
    (s.chip.budgetOk (s.chip.monoPs + s.chip.wakeTime r.dom) (wakeUnits r.dom) = false → r.counted = false →
      ∃ d, Acts .wakeAdmit s d ∧ d.rd 0xA002 3 = satAdd 32 (s.chip.rd 0xA002 3) 1 ∧
        s.chip.Frame d [.power] [(0xA002, 3)] ∧ d.power.doms = s.chip.power.doms)) ∧
  (∀ (s : State) (x : Dom) (lost : Bool), s.chip.dom x = .waking lost → s.chip.supplied x = true →
    (s.chip.requires x).all s.chip.awake = true → s.chip.power.doms.length = 9 → (clockUser x = true → s.chip.clockReady = true) →
    (lost = true → (x = .sense → s.chip.mclk = true) ∧ (x = .synth → s.chip.apllLocked = true) ∧
      (x = .enga ∨ x = .engb → s.chip.start.loading = false ∧ s.chip.start.enginesUp = true)) →
    ∃ d, Acts (.domainWakeComplete x) s d ∧ d.awake x = true ∧ ∀ w ∈ d.power.wakes, w.dom ≠ x) ∧
  ∀ (s : State) (x : Dom), s.chip.waking x = true ∨ (∃ w ∈ s.chip.power.wakes, w.dom = x) →
    ∃ d, Acts (.wakeTimeout x) s d ∧ x ∈ d.power.abandoned ∧ d.rd 0xA002 5 = satAdd 32 (s.chip.rd 0xA002 5) 1 ∧
      ∀ w ∈ d.power.wakes, w.dom ≠ x

/-! ### References, lanes and capture (02, 03) -/

/-- An accepted unplug or plug-in, while VDDIO is good, is counted and posted; PLUGGED shows it, and reads 1 also for an unplug with
PLUG_USE 0 (02 R48, R49, R51, 14 R357). -/
def Obligations.PlugEventsAreTaken : Prop :=
  (∀ (s : State) (n : Fin 16), s.chip.grade.hasCand n.val = true → s.chip.panelInputs = true → (s.chip.cand n.val).plugged = true →
    s.chip.cands.length = 28 →
    ∃ d, Acts (.plugUnplugAccepted n) s d ∧ (d.cand n.val).plugged = false ∧ (d.cand n.val).replug = true ∧
      d.rd (0x2040 + n.val) 6 = satAdd 32 (s.chip.rd (0x2040 + n.val) 6) 1 ∧
      d.rdb (0x2020 + n.val) 1 3 = !s.chip.rdb (0x2000 + n.val) 6 1 ∧
      s.chip.Frame d [.cands, .panel, .nv] [(0x2040 + n.val, 6), (0x2020 + n.val, 1)]) ∧
  ∀ (s : State) (n : Fin 16), s.chip.grade.hasCand n.val = true → s.chip.panelInputs = true → (s.chip.cand n.val).plugged = false →
    s.chip.cands.length = 28 →
    ∃ d, Acts (.plugInAccepted n) s d ∧ (d.cand n.val).plugged = true ∧
      d.rd (0x2040 + n.val) 7 = satAdd 32 (s.chip.rd (0x2040 + n.val) 7) 1 ∧ d.rdb (0x2020 + n.val) 1 3 = true ∧
      s.chip.Frame d [.cands, .panel, .nv] [(0x2040 + n.val, 7), (0x2020 + n.val, 1)]

/-- An edge at the receiver of a running lane: one inside the hold-off of a REF is rejected and counted; one of the other polarity is
ignored; one that the pre-divider drops reaches no lane. One that passes is counted and, with an armed converter and a valid pair,
starts a conversion whose reference stop is the second measurement-clock edge after the edge's cycle, the pre-divider counting anew;
one that finds the converter busy or calibrating is counted as an overrun or a collision and starts none (02 R43–R45, 03 R72, R79,
R80; a PREF's edges are its rising ones, without hold-off: log 67). -/
def Obligations.EdgesStartConversions : Prop :=
  let held (c : Chip) (l at_ : Nat) : Prop := l < 16 ∧ ∃ h, (c.cand l).held = some h ∧ at_ < h + c.rd (0x2000 + l) 4 * 1024
  let wanted (c : Chip) (l : Nat) : Bool := decide (l < 16) && c.rdb (0x2000 + l) 3 6
  (∀ (s : State) (l : Fin 24) (at_ : Nat) (falling : Bool), s.chip.laneRuns l.val = true → held s.chip l.val at_ →
    ∃ d, Acts (.referenceEdge l at_ falling) s d ∧ d.rd (0x2040 + l.val) 2 = satAdd 32 (s.chip.rd (0x2040 + l.val) 2) 1 ∧
      s.chip.Frame d [] [(0x2040 + l.val, 2)]) ∧
  (∀ (s : State) (l : Fin 24) (at_ : Nat) (falling : Bool), s.chip.laneRuns l.val = true → ¬ held s.chip l.val at_ →
    falling ≠ wanted s.chip l.val → ∃ d, Acts (.referenceEdge l at_ falling) s d ∧ s.chip.Frame d [] []) ∧
  (∀ (s : State) (l : Fin 24) (at_ : Nat), s.chip.laneRuns l.val = true → ¬ held s.chip l.val at_ → 0 < (s.chip.cand l.val).skip →
    s.chip.cands.length = 28 →
    ∃ d, Acts (.referenceEdge l at_ (wanted s.chip l.val)) s d ∧ (d.cand l.val).held = some at_ ∧
      (d.cand l.val).skip = (s.chip.cand l.val).skip - 1 ∧ s.chip.Frame d [.cands] []) ∧
  ∀ (s : State) (l : Fin 24) (at_ : Nat), s.chip.laneRuns l.val = true → ¬ held s.chip l.val at_ → (s.chip.cand l.val).skip = 0 →
    s.chip.calFailed l.val = false → s.chip.tdc.lanes.length = 24 → s.chip.cands.length = 28 →
    (s.chip.lane l.val).lastEdge ≠ some (at_ / 1024) →
    ∃ d, Acts (.referenceEdge l at_ (wanted s.chip l.val)) s d ∧ (d.lane l.val).lastEdge = some (at_ / 1024) ∧
      d.rd (0x2040 + l.val) 1 = satAdd 32 (s.chip.rd (0x2040 + l.val) 1) 1 ∧
      (d.cand l.val).edges = (s.chip.cand l.val).edges + 1 ∧ (d.cand l.val).held = some at_ ∧
      (l.val < 16 → (d.cand l.val).skip = s.chip.rd (0x2000 + l.val) 5 - 1) ∧
      ((s.chip.lane l.val).conv = .armed → (s.chip.lane l.val).pair.isSome = true →
        (d.lane l.val).conv = .busy ∧ (d.lane l.val).stop = some (at_ / 1024 + 2)) ∧
      ((s.chip.lane l.val).conv = .busy → (d.lane l.val).conv = .busy ∧ (d.lane l.val).stop = (s.chip.lane l.val).stop ∧
        d.rd (0x2130 + l.val) 4 = satAdd 32 (s.chip.rd (0x2130 + l.val) 4) 1) ∧
      ((s.chip.lane l.val).conv = .calibrating → (d.lane l.val).conv = .calibrating ∧
        d.rd (0x2130 + l.val) 5 = satAdd 32 (s.chip.rd (0x2130 + l.val) 5) 1)

/-- A conversion's end forms the sample of R76 from the raw code 32·Nc − Nv, the valid pair, TRIM, USER_OFFSET and the reference stop,
with floor division; the lane is armed again, and nothing else changes (03 R71, R76, R77). -/
def Obligations.ConversionFormsItsSample : Prop :=
  ∀ (s : State) (l : Fin 24) (m : RingCounts) (stop : Nat) (p : Pair), (s.chip.lane l.val).conv = .busy →
    (s.chip.lane l.val).stop = some stop → (s.chip.lane l.val).pair = some p → (s.chip.lane l.val).calDue = false →
    s.chip.tdc.lanes.length = 24 →
    ∃ d, Acts (.conversionComplete l m) s d ∧ (d.lane l.val).conv = .armed ∧
      (d.lane l.val).formed =
        (let rm := 32 * m.nc - m.nv
        let ph := Int.fdiv (2 * (1024 * ((p.r2 : Int) - rm)) + ((p.r2 : Int) - p.r1)) (2 * ((p.r2 : Int) - p.r1)) -
            Config.laneTrim l.val (if l.val < 16 then s.chip.refMode l.val else 0) - sext 18 (s.chip.rd (0x2110 + l.val) 1)
        some ⟨wrapInt 32 ((stop : Int) - 2 + Int.fdiv ph 1024), (Int.fmod ph 1024).toNat⟩) ∧
      (∀ m, m ≠ l.val → d.lane m = s.chip.lane m) ∧ s.chip.Frame d [.tdc] []

/-- Calibration pairs: the predicted one starts, on an armed converter, 16 cycles before the predicted edge (the last edge plus the
last interval, or plus the nominal period where the interval departs from it by more than 1 %); a refresh starts at once, waits for
a busy converter, or is skipped where it would overlap the predicted pair; valid codes replace the lane's pair and clear CAL_FAILED;
a pair outside the limits of R74 is discarded and counted, and the last valid pair stays; 1 ms after the last valid pair the lane
shows CAL_FAILED; a converter of an auxiliary lane (lanes 24 to 27) takes its pair and loses it alike (03 R74, R75, R82). -/
def Obligations.CalibrationPairs : Prop :=
  let next (c : Chip) (l p : Nat) : Prop := ∃ e, (c.lane l).lastEdge = some e ∧ e ≤ p ∧
    (((c.lane l).interval = some (p - e) ∧ ratAbs (((p - e : Nat) : Rat) - c.nominalCycles l) * 100 ≤ c.nominalCycles l) ∨
      ((∀ i, (c.lane l).interval = some i → c.nominalCycles l < ratAbs ((i : Rat) - c.nominalCycles l) * 100) ∧
        p = e + (c.nominalCycles l).floor.toNat))
  let valid (r1 r2 : Nat) : Prop := 768 ≤ r1 ∧ r1 ≤ 1280 ∧ r1 + 896 ≤ r2 ∧ r2 ≤ r1 + 1152
  let raw (m : RingCounts) : Nat := 32 * m.nc - m.nv
  (∀ (s : State) (l : Fin 24) (cycle : Nat), s.chip.awake .sense = true → s.chip.mclk = true → next s.chip l.val (cycle + 16) →
    (s.chip.lane l.val).conv = .armed → s.chip.tdc.lanes.length = 24 →
    ∃ d, Acts (.calPredictedPairStart l cycle) s d ∧ (d.lane l.val).conv = .calibrating ∧ s.chip.Frame d [.tdc] []) ∧
  (∀ (s : State) (l : Fin 24) (cycle : Nat), s.chip.awake .sense = true → s.chip.mclk = true → s.chip.tdc.lanes.length = 24 →
    (∀ p, next s.chip l.val p → p - 16 + 8 ≤ cycle ∨ cycle + 8 ≤ p - 16) →
    ∃ d, Acts (.calRefreshDue l cycle) s d ∧ s.chip.Frame d [.tdc] [] ∧
      ((s.chip.lane l.val).conv = .armed → (d.lane l.val).conv = .calibrating) ∧
      ((s.chip.lane l.val).conv = .busy → (d.lane l.val).conv = .busy ∧ (d.lane l.val).calDue = true)) ∧
  (∀ (s : State) (l : Fin 24) (cycle p : Nat), next s.chip l.val p → cycle < p - 16 + 8 → p - 16 < cycle + 8 →
    ∃ d, Acts (.calRefreshDue l cycle) s d ∧ s.chip.Frame d [] []) ∧
  (∀ (s : State) (l : Fin 28) (m1 m2 : RingCounts) (cycle : Nat), l.val < 24 → (s.chip.lane l.val).conv = .calibrating →
    s.chip.tdc.lanes.length = 24 →
    ∃ d, Acts (.calPairComplete l m1 m2 cycle) s d ∧ (d.lane l.val).conv = .armed ∧
      (valid (raw m1) (raw m2) → (d.lane l.val).pair = some ⟨raw m1, raw m2, cycle, false⟩ ∧ d.rd (0x2130 + l.val) 2 = raw m1 ∧
        d.rd (0x2130 + l.val) 3 = raw m2 ∧ d.calFailed l.val = false ∧ d.rd (0x2130 + l.val) 6 = s.chip.rd (0x2130 + l.val) 6) ∧
      (¬ valid (raw m1) (raw m2) → (d.lane l.val).pair = (s.chip.lane l.val).pair ∧
        d.rd (0x2130 + l.val) 6 = satAdd 32 (s.chip.rd (0x2130 + l.val) 6) 1 ∧ s.chip.Frame d [.tdc] [(0x2130 + l.val, 6)])) ∧
  (∀ (s : State) (l : Fin 28) (m1 m2 : RingCounts) (cycle : Nat), 24 ≤ l.val → s.chip.tdc.aux.length = 2 →
    let conv (c : Chip) : AuxConv := if l.val % 2 = 0 then (c.aux ((l.val - 24) / 2)).x else (c.aux ((l.val - 24) / 2)).y
    (conv s.chip).calibrating = true →
    ∃ d, Acts (.calPairComplete l m1 m2 cycle) s d ∧ s.chip.Frame d [.tdc] [] ∧
      (valid (raw m1) (raw m2) → (conv d).pair = some ⟨raw m1, raw m2, cycle, false⟩) ∧
      (¬ valid (raw m1) (raw m2) → (conv d).pair = (conv s.chip).pair)) ∧
  (∀ (s : State) (l : Fin 28), l.val < 24 → s.chip.awake .sense = true → (s.chip.lane l.val).pair.isSome = true →
    s.chip.calFailed l.val = false → s.chip.tdc.lanes.length = 24 →
    ∃ d, Acts (.calFailTimeout l) s d ∧ d.calFailed l.val = true ∧ (d.lane l.val).formed = none) ∧
  ∀ (s : State) (l : Fin 28), 24 ≤ l.val → s.chip.awake .sense = true → s.chip.tdc.aux.length = 2 →
    ∃ d, Acts (.calFailTimeout l) s d ∧ s.chip.Frame d [.tdc] [] ∧
      (if l.val % 2 = 0 then (d.aux ((l.val - 24) / 2)).x else (d.aux ((l.val - 24) / 2)).y).pair = none

/-- The measurement clock's lock monitor: a window off by more than 2 counts while locked ends lock and is counted; the eighth window
within 1 count while unlocked declares it: the coarse counter starts at 0, every REF and PREF candidate that was not ABSENT goes
there, and no PKT instant of before is kept (03 R69, R70). -/
def Obligations.MeasurementClockLock : Prop :=
  let expected (c : Chip) : Int := 1024 * 312500000 / c.nominal
  (∀ (s : State) (n : Nat), s.chip.awake .sense = true → s.chip.loPresent = true → s.chip.mclk = true →
    2 < ((n : Int) - expected s.chip).natAbs →
    ∃ d, Acts (.mclkLockWindowEnd n) s d ∧ d.mclk = false ∧ d.rd 0x2100 4 = satAdd 32 (s.chip.rd 0x2100 4) 1) ∧
  ∀ (s : State) (n : Nat), s.chip.awake .sense = true → s.chip.loPresent = true → s.chip.mclk = false →
    s.chip.start.untrusted.contains .mclk = false → ((n : Int) - expected s.chip).natAbs ≤ 1 → 7 ≤ s.chip.tdc.goodWindows →
    s.chip.cands.length = 28 →
    ∃ d, Acts (.mclkLockWindowEnd n) s d ∧ d.mclk = true ∧ d.tdc.coarse = 0 ∧
      (∀ n, n < 24 → d.qState n = 0 ∧ (s.chip.qState n ≠ 0 → d.qReason n = 3)) ∧ ∀ n, 24 ≤ n → n < 28 → (d.cand n).fit = []

/-- Candidates: the activity monitor's time-out of an enabled candidate that passed fails it, a loss counted unless it is ABSENT
(log 63); a soak's end with a complete window qualifies; ABSENT_AFTER without signal makes a candidate disqualified for no activity
ABSENT. At each whole second every count of edges starts anew; a REF or PREF whose count was off by more than 1 % and 1 edge leaves
QUALIFIED; one still QUALIFIED counts the second; and with every REF and PREF ABSENT, MEASURED_OFFSET is unknown (02 R52, R56, R58,
R60, R67). -/
def Obligations.CandidatesChangeState : Prop :=
  let lost (c d : Chip) (n : Nat) : Prop := d.failBit n 0 = true ∧ (d.cand n).actOk = false ∧ (d.cand n).run = 0 ∧
    (c.qState n ≠ 0 → d.rd (0x2040 + n) 8 = satAdd 32 (c.rd (0x2040 + n) 8) 1) ∧
    c.Frame d [.cands] [(0x2020 + n, 3), (0x2040 + n, 8)]
  (∀ (s : State) (l : Fin 24), s.chip.candOn l.val = true → s.chip.failBit l.val 0 = false → s.chip.cands.length = 28 →
    ∃ d, Acts (.activityTimeout l) s d ∧ lost s.chip d l.val) ∧
  (∀ (s : State) (k : Fin 4), s.chip.candOn (24 + k.val) = true → s.chip.failBit (24 + k.val) 0 = false → s.chip.cands.length = 28 →
    ∃ d, Acts (.pktActivityTimeout k) s d ∧ lost s.chip d (24 + k.val)) ∧
  (∀ (s : State) (n : Fin 28), s.chip.qState n.val = 1 → s.chip.windowDone n.val = true → s.chip.cands.length = 28 →
    ∃ d, Acts (.soakEnd n) s d ∧ d.qState n.val = 2 ∧ d.qReason n.val = 0 ∧ d.rd (0x2020 + n.val) 7 = 0) ∧
  (∀ (s : State) (n : Fin 28), s.chip.qState n.val = 3 → s.chip.qReason n.val = 0x10 →
    ∃ d, Acts (.noSignalTimeout n) s d ∧ d.qState n.val = 0 ∧ d.qReason n.val = 0x03 ∧ d.rd (0x2020 + n.val) 7 = 0) ∧
  ∀ s : State, s.chip.cands.length = 28 → ∃ d, Acts .frequencyEvaluation s d ∧ (∀ n, n < 28 → (d.cand n).edges = 0) ∧
    (∀ n, n < 24 → s.chip.qState n = 2 → (s.chip.cand n).whole = true →
      max (s.chip.detRate n / 100) 1 < ratAbs (((s.chip.cand n).edges : Rat) - s.chip.detRate n) → d.qState n ≠ 2) ∧
    (∀ n, n < 28 → s.chip.qState n = 2 → d.qState n = 2 →
      d.rd (0x2040 + n) 0x0B = satAdd 32 (s.chip.rd (0x2040 + n) 0x0B) 1) ∧
    ((∀ n, n < 24 → s.chip.qState n = 0) → d.rd 0x4000 5 = 0x80000000 ∧ d.rdb 0x4000 4 0 = false)

/-- Samples reach qualification: a formed sample of a candidate that is not ABSENT is shown in PHASE and COARSE while its fit holds
fewer than two, and one farther from the line than JUMP_LIMIT is counted as an outlier and goes no further; a servo's estimate is
shown alike, or discarded and counted for its uncertainty or because its exchange overlapped the LO clock; and a write of a
candidate's settings or of USER_OFFSET stores the value and sends an enabled candidate through ABSENT with RECONFIGURED (02 R47,
R53, R56, 03 R77, R78, 01 R26). -/
def Obligations.SamplesAreDelivered : Prop :=
  (∀ (s : State) (l : Fin 24) (x : Sample), (s.chip.lane l.val).formed = some x → s.chip.tdc.lanes.length = 24 →
    s.chip.absentCause l.val = none → s.chip.calFailed l.val = false → s.chip.qState l.val ≠ 0 →
    (s.chip.cand l.val).fit.length < 2 →
    ∃ d, Acts (.sampleDelivery l) s d ∧ (d.lane l.val).formed = none ∧ d.rd (0x2020 + l.val) 8 = x.phase % 2 ^ 18 ∧
      d.rd (0x2020 + l.val) 9 = x.coarse % 2 ^ 32 ∧ d.failBit l.val 2 = false) ∧
  (∀ (s : State) (l : Fin 24) (x : Sample), (s.chip.lane l.val).formed = some x → s.chip.tdc.lanes.length = 24 →
    s.chip.cands.length = 28 → s.chip.absentCause l.val = none → s.chip.calFailed l.val = false → s.chip.qState l.val ≠ 0 →
    s.chip.windowDone l.val = true → 2 ≤ (s.chip.cand l.val).fit.length → (s.chip.cand l.val).outlierRun + 1 < s.chip.profile l.val 7 →
    (let t := ((s.chip.tdc.coarse : Int) + s.chip.coarseDist x.coarse) * 1024 + x.phase;
      (s.chip.profile l.val 6 : Rat) < residual (windowOf (s.chip.profile l.val 3) t (s.chip.cand l.val).fit) (s.chip.period l.val) t *
        25 / 8) →
    ∃ d, Acts (.sampleDelivery l) s d ∧ (d.lane l.val).formed = none ∧
      d.rd (0x2040 + l.val) 3 = satAdd 32 (s.chip.rd (0x2040 + l.val) 3) 1 ∧ d.rd (0x2020 + l.val) 8 = s.chip.rd (0x2020 + l.val) 8 ∧
      (d.cand l.val).outlierRun = (s.chip.cand l.val).outlierRun + 1 ∧ (d.cand l.val).fit = (s.chip.cand l.val).fit) ∧
  (∀ (s : State) (k : Fin 4) (x : Estimate), (s.chip.servo k.val).out = some x → s.chip.sess.servos.length = 4 → x.onLo = true →
    ∃ d, Acts (.pktSample k) s d ∧ d.rd (0x2040 + 24 + k.val) 0x0A = satAdd 32 (s.chip.rd (0x2040 + 24 + k.val) 0x0A) 1 ∧
      (d.servo k.val).out = none ∧ s.chip.Frame d [.sess] [(0x2040 + 24 + k.val, 0x0A)]) ∧
  (∀ (s : State) (k : Fin 4) (x : Estimate), (s.chip.servo k.val).out = some x → s.chip.sess.servos.length = 4 →
    s.chip.cands.length = 28 → x.onLo = false → s.chip.absentCause (24 + k.val) = none →
    s.chip.rd (0x2000 + 24 + k.val) 0x0E < x.unc →
    ∃ d, Acts (.pktSample k) s d ∧ d.rd (0x2040 + 24 + k.val) 9 = satAdd 32 (s.chip.rd (0x2040 + 24 + k.val) 9) 1 ∧
      (d.servo k.val).out = none ∧ (d.cand (24 + k.val)).uncRun = (s.chip.cand (24 + k.val)).uncRun + 1 ∧
      (s.chip.profile (24 + k.val) 7 ≤ (s.chip.cand (24 + k.val)).uncRun + 1 → d.failBit (24 + k.val) 5 = true)) ∧
  (∀ (s : State) (k : Fin 4) (x : Estimate), (s.chip.servo k.val).out = some x → s.chip.sess.servos.length = 4 →
    s.chip.cands.length = 28 → x.onLo = false → s.chip.absentCause (24 + k.val) = none →
    x.unc ≤ s.chip.rd (0x2000 + 24 + k.val) 0x0E → s.chip.qState (24 + k.val) ≠ 0 → (s.chip.cand (24 + k.val)).fit.length < 2 →
    ∃ d, Acts (.pktSample k) s d ∧ (d.servo k.val).out = none ∧ d.rd (0x2020 + 24 + k.val) 8 = wrapInt 18 x.phase ∧
      d.rd (0x2020 + 24 + k.val) 9 = x.coarse % 2 ^ 32 ∧ d.failBit (24 + k.val) 5 = false) ∧
  ∀ (s : State) (q : Envelope) (n : Fin 28) (idx sub v : Nat) (o : Option Nat) (r : Row) (e : Chip),
    idx = 0x2000 + n.val ∧ 2 ≤ sub ∧ sub ≤ 7 ∨ idx = 0x2110 + n.val ∧ sub = 1 → s.chip.WriteTaken q idx sub v o r e →
    ∃ d : Chip, Acts (.candidateReconfigure q idx sub (r.encode v)) s (d.saidOk q o idx sub) ∧ d.rd idx sub = v ∧
      (e.candOn n.val = false → e.Frame d [.nv] [(idx, sub), (0x8010, 3)]) ∧
      (e.candOn n.val = true → d.qState n.val = 0 ∧ (e.qState n.val ≠ 0 → d.qReason n.val = 8))

/-- Time of day: a binary message with a right CRC that begins 100 ms after the edge before it or later and ends within 900 ms of it
is counted and waits for the edge's judgement, one outside is late, one with a wrong CRC or version is counted as such; a sentence
likewise; an edge with no message ends the succession and TOD_VALID, one whose seconds follow the last one's sets it, one whose do
not is a discontinuity, and two messages that disagree are a conflict; an edge is judged once; TOD_TIMEOUT fails the monitor where
it is required; and a pulse of TX_TTU sends its message (02 R61–R64, R455, R456). -/
def Obligations.TimeOfDayMessages : Prop :=
  let on (c : Chip) : Prop := c.rdb 0x1240 1 0 = true
  let body (ver secs flags utc st ql teb : Nat) : List Nat :=
    [ver, 18] ++ toBytes 6 secs ++ [0, flags] ++ toBytes 2 utc ++ [st, ql] ++ toBytes 4 teb ++ [0, 0]
  let inWindow (c : Chip) (e len : Nat) : Prop := e + 100000000 * nsUnit ≤ c.time.mono - c.uartTime len ∧
    c.time.mono ≤ e + 900000000 * nsUnit
  (∀ (s : State) (secs flags utc st ql teb e : Nat), on s.chip → s.chip.rd 0x1240 3 ≠ 1 → s.chip.rd 0x1240 5 = 0 → secs < 2 ^ 48 →
    flags < 256 → st < 256 → ql < 256 → s.chip.tod.edge = some e →
    let b := body 1 secs flags utc st ql teb
    (inWindow s.chip e 24 → s.chip.rd 0x1240 3 = 2 ∨ s.chip.tod.waiting = [] ∧ s.chip.tod.judged = none →
      ∃ d, Acts (.todBinaryMessage ([0x49, 0x54] ++ b ++ toBytes 2 (crc16 b))) s d ∧
        d.rd 0x1241 2 = satAdd 32 (s.chip.rd 0x1241 2) 1 ∧
        ∃ m, d.tod.waiting = s.chip.tod.waiting ++ [m] ∧ m.secs = some secs ∧ m.binary = true ∧
          m.describes = (bit 7 flags && decide (st ≤ 1)) ∧ (ql ≤ 15 → m.rank = if st = 2 then 15 else ql)) ∧
    (e ≤ s.chip.time.mono - s.chip.uartTime 24 → ¬ inWindow s.chip e 24 →
      ∃ d, Acts (.todBinaryMessage ([0x49, 0x54] ++ b ++ toBytes 2 (crc16 b))) s d ∧
        d.rd 0x1241 6 = satAdd 32 (s.chip.rd 0x1241 6) 1 ∧ s.chip.Frame d [] [(0x1241, 6)])) ∧
  (∀ (s : State) (ver secs flags utc st ql teb x : Nat), on s.chip → s.chip.rd 0x1240 3 ≠ 1 → ver < 256 → flags < 256 → st < 256 →
    ql < 256 →
    let b := body ver secs flags utc st ql teb
    (x < 2 ^ 16 → x ≠ crc16 b → nextSync (b ++ toBytes 2 x) = [] →
      ∃ d, Acts (.todBinaryMessage ([0x49, 0x54] ++ b ++ toBytes 2 x)) s d ∧ d.rd 0x1241 3 = satAdd 32 (s.chip.rd 0x1241 3) 1 ∧
        s.chip.Frame d [] [(0x1241, 3)]) ∧
    (ver ≠ 1 → ∃ d, Acts (.todBinaryMessage ([0x49, 0x54] ++ b ++ toBytes 2 (crc16 b))) s d ∧
      d.rd 0x1241 4 = satAdd 32 (s.chip.rd 0x1241 4) 1 ∧ s.chip.Frame d [] [(0x1241, 4)])) ∧
  (∀ (s : State) (chars : List Nat) (rmc : Bool) (u e : Nat), on s.chip → s.chip.rd 0x1240 3 ≠ 0 → s.chip.rd 0x1240 5 = 0 →
    nmeaKind chars = some rmc → s.chip.tod.edge = some e → e ≤ s.chip.time.mono - s.chip.uartTime chars.length →
    (chars.length ≤ 82 → nmeaSumOk chars = true →
      nmeaUtc rmc (splitComma [] ((chars.drop 1).takeWhile (· != 42))) = some u →
      (inWindow s.chip e chars.length → ∃ d, Acts (.todNmeaSentence chars) s d ∧ d.rd 0x1241 2 = satAdd 32 (s.chip.rd 0x1241 2) 1 ∧
        ∃ m, d.tod.waiting = s.chip.tod.waiting ++ [m] ∧
          m.secs = (if s.chip.utcValid then some ((u : Int) + s.chip.utcOffset).toNat else none) ∧ m.binary = false ∧
          m.describes = s.chip.utcValid) ∧
      (¬ inWindow s.chip e chars.length → ∃ d, Acts (.todNmeaSentence chars) s d ∧
        d.rd 0x1241 6 = satAdd 32 (s.chip.rd 0x1241 6) 1 ∧ s.chip.Frame d [] [(0x1241, 6)])) ∧
    (82 < chars.length ∨ nmeaSumOk chars = false → ∃ d, Acts (.todNmeaSentence chars) s d ∧
      d.rd 0x1241 5 = satAdd 32 (s.chip.rd 0x1241 5) 1 ∧ s.chip.Frame d [] [(0x1241, 5)])) ∧
  (∀ s : State, s.chip.tod.edge.isSome = true → s.chip.tod.judged = none →
    let valid (d : Chip) (b : Bool) : Prop := d.tod.valid = b ∧ d.rdb (0x2020 + s.chip.ppsRef) 1 4 = b
    (s.chip.tod.waiting = [] → ∃ d, Acts .todEdgeJudgement s d ∧ valid d false ∧ d.tod.last = none ∧ d.tod.run = 0 ∧
      d.tod.judged = some none ∧ s.chip.Frame d [.tod] [(0x2020 + s.chip.ppsRef, 1)]) ∧
    (∀ (m : TodMsg) (v l : Nat), s.chip.tod.waiting = [m] → m.describes = true → m.secs = some v → s.chip.tod.last = some l →
      ∃ d, Acts .todEdgeJudgement s d ∧ d.tod.last = some v ∧ d.tod.waiting = [] ∧ d.tod.judged = some (some v) ∧
        field 127 80 (d.rd 0x1241 1) = v % 2 ^ 48 ∧
        (v = l + 1 → valid d true ∧ d.tod.run = s.chip.tod.run + 1) ∧
        (v ≠ l + 1 → valid d false ∧ d.tod.run = 1 ∧ d.rd 0x1241 8 = satAdd 32 (s.chip.rd 0x1241 8) 1)) ∧
    ∀ (m k : TodMsg), s.chip.tod.waiting = [m, k] → m.describes = true → k.describes = true → m.secs ≠ k.secs →
      ∃ d, Acts .todEdgeJudgement s d ∧ valid d false ∧ d.tod.last = none ∧ d.rd 0x1241 7 = satAdd 32 (s.chip.rd 0x1241 7) 1) ∧
  (∀ s : State, s.chip.tod.judged.isSome = true → ∃ d, Acts .todEdgeJudgement s d ∧ s.chip.Frame d [] []) ∧
  (∀ s : State, s.chip.tod.valid = false → s.chip.rdb 0x1240 6 0 = true →
    ∃ d, Acts .todTimeout s d ∧ d.tod.missing = true ∧ s.chip.Frame d [.tod] []) ∧
  ∀ (s : State) (t : Nat), (s.chip.ttu (s.chip.rd 0x1240 9)).last = some t → s.chip.rdb 0x1240 8 0 = true →
    ∃ d, Acts .todTransmit s d ∧ d.tod.sent.take 4 = [0x49, 0x54, 0x01, 18] ∧ d.tod.sent.length = 24 ∧
      (d.tod.sent.drop 4).take 6 = toBytes 6 (t / 1000000000000) ∧
      (s.chip.tcState 0 < 4 → (d.tod.sent.drop 14).take 1 = (nth [[2], [3], [0], [1]] (s.chip.tcState 0) [])) ∧
      d.tod.sent.drop 22 = toBytes 2 (crc16 ((d.tod.sent.drop 2).take 20)) ∧ s.chip.Frame d [.tod] []

/-- Time-interval measurement: a taken write of ARM arms, rearms or disarms the unit, and one that cannot run ends with ABORTED; the
first start of an armed unit is held for its stop, and a stop completes it in signed mode: RESULT, VALID and the count; a stop held
for 8 cycles is counted as earlier than its start; TIMEOUT is shown, counted and ends a single measurement (what ARM becomes:
log 68); and a converter's pair that falls due starts, Y's after X's (03 R82–R87). -/
def Obligations.TimeIntervalUnits : Prop :=
  let runs (c : Chip) (a : Nat) : Prop := c.awake .sense = true ∧ c.mclk = true ∧ c.grade.hasSrc (c.rd (0x2160 + a) 2) = true ∧
    c.grade.hasSrc (c.rd (0x2160 + a) 3) = true
  let arms (i : Instr) (s : State) (q : Envelope) (a v : Nat) (n : Option Nat) (e : Chip) : Prop :=
    e.tdc.aux.length = 2 → ∃ d : Chip, Acts i s (d.saidOk q n (0x2160 + a) 1) ∧ (d.aux a).start = none ∧ (d.aux a).stop = none ∧
      (d.aux a).held = [] ∧
      (v = 0 ∨ runs e a → d.armed a = v ∧ e.Frame d [.tdc] [(0x2160 + a, 1)]) ∧
      (v ≠ 0 → ¬ runs e a → d.armed a = 0 ∧ d.rdb (0x2168 + a) 1 2 = true ∧ e.Frame d [.tdc] [(0x2160 + a, 1), (0x2168 + a, 1)])
  let used (c : Chip) (a src : Nat) : Prop := c.awake .sense = true ∧ c.mclk = true ∧ c.armed a ≠ 0 ∧ c.tdc.aux.length = 2 ∧
    (src < 16 → c.refMode src ≠ 0)
  (∀ (s : State) (q : Envelope) (a : Fin 2) (n : Option Nat) (r : Row) (e : Chip), s.chip.WriteTaken q (0x2160 + a.val) 1 1 n r e →
    arms (.tiaArmSingle q a) s q a.val 1 n e) ∧
  (∀ (s : State) (q : Envelope) (a : Fin 2) (n : Option Nat) (r : Row) (e : Chip), s.chip.WriteTaken q (0x2160 + a.val) 1 2 n r e →
    arms (.tiaArmContinuous q a) s q a.val 2 n e) ∧
  (∀ (s : State) (q : Envelope) (a : Fin 2) (n : Option Nat) (r : Row) (e : Chip), s.chip.WriteTaken q (0x2160 + a.val) 1 0 n r e →
    arms (.tiaDisarm q a) s q a.val 0 n e) ∧
  (∀ (s : State) (a : Fin 2) (src cycle : Nat) (m : RingCounts) (f : Bool), used s.chip a.val src →
    src = s.chip.rd (0x2160 + a.val) 2 → f = s.chip.rdb (0x2160 + a.val) 4 1 →
    (src ≠ s.chip.rd (0x2160 + a.val) 3 ∨ f ≠ s.chip.rdb (0x2160 + a.val) 4 0) →
    (s.chip.rdb (0x2160 + a.val) 5 0 = true → (s.chip.aux a.val).stop = none) →
    (s.chip.aux a.val).start = none → (s.chip.aux a.val).held = [] →
    ∃ d ev, Acts (.auxEdge a src f cycle m) s d ∧ (d.aux a.val).start = some ev ∧ s.chip.Frame d [.tdc] [] ∧
      (∀ p, (s.chip.aux a.val).x.calibrating = false → (s.chip.aux a.val).x.pair = some p → ev.coarse = false ∧
        ev.t = (cycle : Rat) * 1024 + 1024 * (((p.r2 : Rat) - ((32 * m.nc - m.nv : Nat) : Rat)) / ((p.r2 : Rat) - p.r1)) -
          Config.laneTrim (24 + a.val) 0) ∧
      ((s.chip.aux a.val).x.pair = none → (s.chip.aux a.val).y.pair = none → ev.coarse = true ∧ ev.t = (cycle : Rat) * 1024 + 512)) ∧
  (∀ (s : State) (a : Fin 2) (src cycle : Nat) (m : RingCounts) (f : Bool) (st : AuxEv), used s.chip a.val src →
    src = s.chip.rd (0x2160 + a.val) 3 → f = s.chip.rdb (0x2160 + a.val) 4 0 →
    (src ≠ s.chip.rd (0x2160 + a.val) 2 ∨ f ≠ s.chip.rdb (0x2160 + a.val) 4 1) → s.chip.rdb (0x2160 + a.val) 5 0 = true →
    (s.chip.aux a.val).start = some st → (s.chip.aux a.val).x.pair = none → (s.chip.aux a.val).y.pair = none →
    let t := (cycle : Rat) * 1024 + 512 - st.t
    ∃ d, Acts (.auxEdge a src f cycle m) s d ∧ (d.aux a.val).start = none ∧ d.rdb (0x2168 + a.val) 1 7 = true ∧
      d.rd (0x2168 + a.val) 2 = (if ratAbs t < 1 then 0 else wrapInt 64 (t + 1 / 2).floor) ∧
      d.rd (0x2168 + a.val) 5 = satAdd 32 (s.chip.rd (0x2168 + a.val) 5) 1 ∧
      d.armed a.val = (if s.chip.armed a.val = 1 then 0 else s.chip.armed a.val)) ∧
  (∀ (s : State) (a : Fin 2) (h : AuxEv) (t : List AuxEv), (s.chip.aux a.val).held = h :: t → s.chip.tdc.aux.length = 2 →
    ∃ d, Acts (.stopHoldExpiry a) s d ∧ (d.aux a.val).held = t ∧
      d.rd (0x2168 + a.val) 6 = satAdd 32 (s.chip.rd (0x2168 + a.val) 6) 1 ∧ s.chip.Frame d [.tdc] [(0x2168 + a.val, 6)]) ∧
  (∀ (s : State) (a : Fin 2), s.chip.armed a.val ≠ 0 → s.chip.rd (0x2160 + a.val) 6 ≠ 0 →
    ∃ d, Acts (.tiaTimeout a) s d ∧ d.rdb (0x2168 + a.val) 1 4 = true ∧
      d.rd (0x2168 + a.val) 8 = satAdd 32 (s.chip.rd (0x2168 + a.val) 8) 1 ∧
      d.armed a.val = (if s.chip.armed a.val = 1 then 0 else s.chip.armed a.val)) ∧
  ∀ (s : State) (a : Fin 2), s.chip.awake .sense = true → s.chip.mclk = true → s.chip.tdc.aux.length = 2 →
    (s.chip.aux a.val).y.calibrating = false →
    ((s.chip.aux a.val).x.calibrating = false → ∃ d, Acts (.auxCalibrationDue a false) s d ∧ (d.aux a.val).x.calibrating = true ∧
      (d.aux a.val).y.calibrating = false ∧ s.chip.Frame d [.tdc] []) ∧
    ((s.chip.aux a.val).x.calibrating = false → (s.chip.aux a.val).x.due = false →
      ∃ d, Acts (.auxCalibrationDue a true) s d ∧ (d.aux a.val).y.calibrating = true ∧ (d.aux a.val).x.calibrating = false ∧
        s.chip.Frame d [.tdc] []) ∧
    ((s.chip.aux a.val).x.calibrating = true → ∃ d, Acts (.auxCalibrationDue a true) s d ∧ (d.aux a.val).y.calibrating = false ∧
      (d.aux a.val).y.due = true ∧ s.chip.Frame d [.tdc] [])

/-- Event capture: an enabled edge takes the next sequence number and joins the FIFO while it holds fewer than 64 entries; a full
FIFO loses it, and the loss is counted; CAPTURE_LOST is cleared by a write of 0 (03 R88, R89). -/
def Obligations.CapturesQueue : Prop :=
  (∀ (s : State) (pin : Fin 4) (f : Bool) (cycle : Nat) (m : RingCounts), s.chip.awake .sense = true → s.chip.mclk = true →
    s.chip.rdb 0x2170 1 pin.val = true → bit f.toNat (s.chip.rdf 0x2170 2 (2 * pin.val + 1) (2 * pin.val)) = true →
    ∃ d, Acts (.trigEdgeCapture pin f cycle m) s d ∧ d.rd 0x2170 6 = (s.chip.rd 0x2170 6 + 1) % 256 ∧
      (s.chip.tdc.fifo.length < 64 → (∃ t, d.tdc.fifo = s.chip.tdc.fifo ++ [t] ∧
        field 15 13 t = pin.val * 2 + f.toNat ∧ field 7 0 t = s.chip.rd 0x2170 6 % 256) ∧ s.chip.Frame d [.tdc] [(0x2170, 6)]) ∧
      (64 ≤ s.chip.tdc.fifo.length → d.tdc.fifo = s.chip.tdc.fifo ∧ d.tdc.lossBefore = true ∧
        d.rd 0x2170 4 = satAdd 32 (s.chip.rd 0x2170 4) 1)) ∧
  ∀ (s : State) (q : Envelope) (n : Option Nat) (r : Row) (e : Chip), s.chip.WriteTaken q 0x2170 4 0 n r e →
    ∃ d : Chip, Acts (.captureLostClear q) s (d.saidOk q n 0x2170 4) ∧ d.rd 0x2170 4 = 0 ∧ e.Frame d [] [(0x2170, 4)]

/-! ### Timing channels, holdover and the bound (04, 05) -/

/-- The transitions of a channel: a loop update of a suspended channel does nothing, and a disabled one keeps its word; FORCE 2 takes
an enabled channel to FREERUN, and FORCE 1, or no selectable entry, from ACQUIRE or LOCKED to HOLDOVER while its model is ready, else
to FREERUN; the one selectable entry is acquired from HOLDOVER and FREERUN; ACQUIRE locks once the lock criteria have held for
LOCK_TIME, and LOCKED unlocks on a mean error above UNLOCK_PHASE; ACQUIRE_TIMEOUT counts once; and holdover ends in FREERUN at its
limits. A forced FREERUN of channel 0 goes on steering the counter at its word (04 R96–R100, R102, R105, R121, 05 R140). -/
def Obligations.ChannelsChangeState : Prop :=
  let runs (c : Chip) (ch : Nat) : Prop := c.tcOn ch = true ∧ c.suspended ch = false ∧ c.chans.length = 8
  let only (c : Chip) (ch k : Nat) : Prop := c.selectable ch 0 k = true ∧ 1 ≤ k ∧ k ≤ 28 ∧
    ∀ j, 1 ≤ j → j ≤ 28 → j ≠ k → c.selectable ch 0 j = false
  let counted (c d : Chip) (ch : Nat) : Prop := d.rd (0x3010 + ch) 0x0E = satAdd 32 (c.rd (0x3010 + ch) 0x0E) 1
  (∀ (s : State) (ch : Fin 8), s.chip.suspended ch.val = true → ∃ d, Acts (.loopUpdate ch) s d ∧ s.chip.Frame d [] []) ∧
  (∀ (s : State) (ch : Fin 8), s.chip.tcOn ch.val = false → s.chip.chans.length = 8 →
    ∃ d, Acts (.loopUpdate ch) s d ∧ s.chip.Frame d [.chans] [] ∧ (d.chan ch.val).w = (s.chip.chan ch.val).w) ∧
  (∀ (s : State) (ch : Fin 8), runs s.chip ch.val → s.chip.rd (0x3000 + ch.val) 0x0D = 2 → s.chip.tcState ch.val ≠ 0 →
    ∃ d, Acts (.loopUpdate ch) s d ∧ d.tcState ch.val = 0 ∧ d.sel ch.val = 0xFF ∧ d.selPhase ch.val = 0xFF ∧
      counted s.chip d ch.val ∧ (d.chan ch.val).w = (s.chip.chan ch.val).w) ∧
  (∀ (s : State) (ch : Fin 8), runs s.chip ch.val → s.chip.hybrid ch.val = false →
    s.chip.tcState ch.val = 1 ∨ s.chip.tcState ch.val = 2 → s.chip.rd (0x3000 + ch.val) 0x0D ≠ 2 →
    s.chip.rd (0x3000 + ch.val) 0x0D = 1 ∨ (∀ k, 1 ≤ k → k ≤ 28 → s.chip.selectable ch.val 0 k = false) →
    ∃ d, Acts (.loopUpdate ch) s d ∧ d.tcState ch.val = (if s.chip.modelReady ch.val then 3 else 0) ∧ d.sel ch.val = 0xFF ∧
      d.selPhase ch.val = 0xFF ∧ counted s.chip d ch.val) ∧
  (∀ (s : State) (ch : Fin 8) (k : Nat), runs s.chip ch.val → s.chip.hybrid ch.val = false →
    s.chip.tcState ch.val = 0 ∨ s.chip.tcState ch.val = 3 → s.chip.rd (0x3000 + ch.val) 0x0D = 0 → only s.chip ch.val k →
    ∃ d, Acts (.loopUpdate ch) s d ∧ d.tcState ch.val = 1 ∧ d.sel ch.val = s.chip.entryCand ch.val k ∧
      d.selPhase ch.val = s.chip.entryCand ch.val k ∧ counted s.chip d ch.val) ∧
  (∀ (s : State) (ch : Fin 8) (k from_ : Nat) (e : Int) (t : List Int), runs s.chip ch.val → s.chip.hybrid ch.val = false →
    s.chip.tcState ch.val = 1 → s.chip.rd (0x3000 + ch.val) 0x0D = 0 → only s.chip ch.val k →
    s.chip.selPhase ch.val = s.chip.entryCand ch.val k → s.chip.sel ch.val = s.chip.entryCand ch.val k →
    (s.chip.chan ch.val).slew = 0 → (s.chip.chan ch.val).preset = none → (s.chip.chan ch.val).perr = e :: t →
    e.natAbs ≤ s.chip.rd (0x3000 + ch.val) 7 →
    (sext 32 (s.chip.rd (0x3010 + ch.val) 5) - sext 32 (s.chip.rd (0x2020 + s.chip.selPhase ch.val) 4)).natAbs ≤
      s.chip.rd (0x3000 + ch.val) 8 →
    (s.chip.chan ch.val).lockSince = some from_ →
    from_ + s.chip.rd (0x3000 + ch.val) 9 * 1000000000 * nsUnit ≤ s.chip.time.mono →
    ∃ d, Acts (.loopUpdate ch) s d ∧ d.tcState ch.val = 2 ∧ counted s.chip d ch.val ∧ (d.chan ch.val).everLocked = true) ∧
  (∀ (s : State) (ch : Fin 8) (k : Nat) (e : Rat), runs s.chip ch.val → s.chip.hybrid ch.val = false →
    s.chip.tcState ch.val = 2 → s.chip.rd (0x3000 + ch.val) 0x0D = 0 → only s.chip ch.val k →
    s.chip.selPhase ch.val = s.chip.entryCand ch.val k → s.chip.sel ch.val = s.chip.entryCand ch.val k →
    s.chip.rdb (0x3010 + ch.val) 1 7 = false → (s.chip.chan ch.val).errs = [e] →
    (s.chip.rd (0x3000 + ch.val) 0x0A : Rat) < ratAbs e →
    ∃ d, Acts (.loopUpdate ch) s d ∧ d.tcState ch.val = 1 ∧ counted s.chip d ch.val ∧
      d.rd (0x3010 + ch.val) 0x0D = satAdd 32 (s.chip.rd (0x3010 + ch.val) 0x0D) 1) ∧
  (∀ s : State, runs s.chip 0 → s.chip.rd 0x3000 0x0D = 2 → s.chip.tcState 0 = 0 → s.chip.hybrid 0 = false →
    ∃ d, Acts (.loopUpdate 0) s d ∧ d.tcState 0 = 0 ∧ (d.chan 0).w = (s.chip.chan 0).w ∧
      ((s.chip.chan 0).slew = 0 → (s.chip.chan 0).carry = 0 → d.time.written =
        some (((1000000000 * nsUnit : Nat) : Rat) / s.chip.nominal * (1 + ((s.chip.chan 0).w : Rat) / 281474976710656) +
          1 / 2).floor.toNat)) ∧
  (∀ (s : State) (ch : Fin 8), s.chip.tcOn ch.val = true → s.chip.tcState ch.val = 1 → s.chip.rd (0x3000 + ch.val) 0x0B ≠ 0 →
    (s.chip.chan ch.val).acqTimedOut = false → s.chip.chans.length = 8 →
    ∃ d, Acts (.acquireTimeout ch) s d ∧ (d.chan ch.val).acqTimedOut = true ∧
      d.rd (0x3010 + ch.val) 0x0F = satAdd 32 (s.chip.rd (0x3010 + ch.val) 0x0F) 1 ∧ d.tcState ch.val = 1) ∧
  ∀ (s : State) (ch : Fin 8) (byLimit : Bool), runs s.chip ch.val → s.chip.tcState ch.val = 3 →
    (byLimit = false → s.chip.rd (0x3020 + ch.val) 0x2C ≠ 0) →
    (byLimit = true → s.chip.rd (0x3020 + ch.val) 0x2D ≠ 0 ∧ (s.chip.rd (0x3030 + ch.val) 3 = 5 ∨ s.chip.rd (0x3030 + ch.val) 3 = 0 ∧
      s.chip.rd (0x3020 + ch.val) 0x2D * 1000 < s.chip.rd (0x3030 + ch.val) 2)) →
    ∃ d, Acts (.holdoverExpiry ch byLimit) s d ∧ d.tcState ch.val = 0 ∧ counted s.chip d ch.val

/-- TRUMP, LOCKOUT, a selection entry and REALIGN, once taken: the value written is read back; a write of 0xFF ends the trump; an
entry's change of candidate empties its shadow and ends a trump of the old candidate, and LOCKOUT set on the entry of the trump ends
it; REALIGN moves the build-out into the slew and sets SWITCHING (04 R104, R106–R108, R111, R112). -/
def Obligations.SelectionWritesAct : Prop :=
  let entry (e d : Chip) (ch k v : Nat) : Prop := d.rd (0x3100 + ch) k = v ∧
    e.Frame d [.chans, .nv] [(0x3100 + ch, k), (0x3000 + ch, 0x0C), (0x3010 + ch, 1), (0x3110 + ch, k), (0x3118 + ch, k), (0x8010, 3)] ∧
    (field 15 8 v ≠ e.entryCand ch k → d.rd (0x3110 + ch) k = 0x80000000 ∧ (e.chans.length = 8 → k ≤ 28 → (d.shadow ch k).diffs = [])) ∧
    (e.rd (0x3000 + ch) 0x0C ≠ 0xFF → e.entryCand ch k = e.rd (0x3000 + ch) 0x0C →
      (field 15 8 v ≠ e.entryCand ch k ∨ bit 7 v = true ∧ e.entryLocked ch k = false) → d.rd (0x3000 + ch) 0x0C = 0xFF) ∧
    (e.entryCand ch k ≠ e.rd (0x3000 + ch) 0x0C → d.rd (0x3000 + ch) 0x0C = e.rd (0x3000 + ch) 0x0C)
  (∀ (s : State) (q : Envelope) (ch : Fin 8) (v : Nat) (n : Option Nat) (r : Row) (e : Chip),
    s.chip.WriteTaken q (0x3000 + ch.val) 0x0C v n r e →
    ∃ d : Chip, Acts (.trump q ch v) s (d.saidOk q n (0x3000 + ch.val) 0x0C) ∧ d.rd (0x3000 + ch.val) 0x0C = v ∧
      e.Frame d [.chans, .nv] [(0x3000 + ch.val, 0x0C), (0x3010 + ch.val, 1)] ∧
      (v = 0xFF → e.rd (0x3000 + ch.val) 0x0C ≠ 0xFF → d.rdb (0x3010 + ch.val) 1 4 = false)) ∧
  (∀ (s : State) (q : Envelope) (ch : Fin 8) (k : Fin 28) (b : Bool) (n : Option Nat) (r : Row) (e : Chip),
    let v := setBit 7 (s.chip.rd (0x3100 + ch.val) (k.val + 1)) b
    s.chip.WriteTaken q (0x3100 + ch.val) (k.val + 1) v n r e →
    ∃ d : Chip, Acts (.lockout q ch k b) s (d.saidOk q n (0x3100 + ch.val) (k.val + 1)) ∧ entry e d ch.val (k.val + 1) v) ∧
  (∀ (s : State) (q : Envelope) (ch : Fin 8) (k : Fin 28) (v : Nat) (n : Option Nat) (r : Row) (e : Chip),
    s.chip.WriteTaken q (0x3100 + ch.val) (k.val + 1) v n r e →
    ∃ d : Chip, Acts (.selectionEntryWrite q ch k v) s (d.saidOk q n (0x3100 + ch.val) (k.val + 1)) ∧
      entry e d ch.val (k.val + 1) v) ∧
  ∀ (s : State) (q : Envelope) (ch : Fin 8) (n : Option Nat) (r : Row) (e : Chip),
    s.chip.WriteTaken q (0x3000 + ch.val) 0x11 1 n r e → e.chans.length = 8 →
    ∃ d : Chip, Acts (.realign q ch) s (d.saidOk q n (0x3000 + ch.val) 0x11) ∧ (d.chan ch.val).buildOut = 0 ∧
      (d.chan ch.val).slew = (e.chan ch.val).slew + (e.chan ch.val).buildOut ∧ d.rdb (0x3010 + ch.val) 1 7 = true

/-- At a whole second the temperatures are taken; a disabled channel publishes an unknown bound with reason 1, and so does one that was
never LOCKED and has no step to forget; of every other channel, a bound that is published is the sum of its six terms, each shown,
and its TEB18 is the encoding of that sum. A learning epoch with a failing condition is discarded and shown, and a good one is
admitted; host temperature ends; MODEL_RESET leaves no epoch and unknown uncertainty (05 R124, R125, R131–R136, R141). -/
def Obligations.BoundAndModel : Prop :=
  let unknown (d : Chip) (ch why : Nat) : Prop := d.rd (0x3030 + ch) 1 = 0x3FFFF ∧ d.rd (0x3030 + ch) 2 = 2 ^ 64 - 1 ∧
    d.rd (0x3030 + ch) 3 = why
  (∀ (s : State) (die mast : Int), ∃ d, Acts (.tebEvaluation die mast) s d ∧ d.time.dieTemp = die ∧ d.time.mastTemp = mast ∧
    ∀ ch, ch < s.chip.grade.chans →
      (s.chip.tcOn ch = false → unknown d ch 1) ∧
      (s.chip.tcOn ch = true → (s.chip.chan ch).everLocked = false → (s.chip.chan ch).stepLeft = none → unknown d ch 1) ∧
      (s.chip.tcOn ch = true → d.rd (0x3030 + ch) 3 = 0 →
        d.rd (0x3030 + ch) 2 = d.rd (0x3030 + ch) 4 + d.rd (0x3030 + ch) 5 + d.rd (0x3030 + ch) 6 + d.rd (0x3030 + ch) 7 +
          d.rd (0x3030 + ch) 8 + d.rd (0x3030 + ch) 9 ∧
        d.rd (0x3030 + ch) 1 = encodeTeb (some (d.rd (0x3030 + ch) 2)) ∧ d.rd (0x3030 + ch) 2 ≤ 8191 * 2 ^ 30)) ∧
  (∀ (s : State) (ch : Fin 8), s.chip.tcOn ch.val = true → s.chip.learnFails ch.val ≠ 0 → s.chip.chans.length = 8 →
    ∃ d, Acts (.learningEpochEnd ch) s d ∧ d.rdf (0x3020 + ch.val) 1 3 0 =
        Nat.lor (s.chip.chan ch.val).epochBad (s.chip.learnFails ch.val) % 16 ∧
      (d.chan ch.val).epochs = (s.chip.chan ch.val).epochs ∧ (d.chan ch.val).epochN = 0 ∧ (d.chan ch.val).epochBad = 0 ∧
      s.chip.Frame d [.chans] [(0x3020 + ch.val, 1)]) ∧
  (∀ (s : State) (ch : Fin 8), s.chip.tcOn ch.val = true → s.chip.learnFails ch.val = 0 → (s.chip.chan ch.val).epochBad = 0 →
    (s.chip.chan ch.val).epochN ≠ 0 → s.chip.chans.length = 8 →
    ∃ d e, Acts (.learningEpochEnd ch) s d ∧ (d.chan ch.val).epochs = e :: (s.chip.chan ch.val).epochs ∧
      e.at_ = s.chip.monoSec ∧
      e.y = (1 / (1 + ((s.chip.chan ch.val).epochW : Rat) / (s.chip.chan ch.val).epochN / 281474976710656) - 1) * 1000000000000 ∧
      d.rd (0x3020 + ch.val) 0x0C = satAdd 32 (s.chip.rd (0x3020 + ch.val) 0x0C) 1 ∧ d.rd (0x3020 + ch.val) 7 = s.chip.now) ∧
  (∀ (s : State) (ch : Fin 8), s.chip.chans.length = 8 → ∃ d, Acts (.hostTempTimeout ch) s d ∧
    (d.chan ch.val).hostTempValid = false ∧ s.chip.Frame d [.chans] []) ∧
  ∀ (s : State) (q : Envelope) (ch : Fin 8) (n : Option Nat) (r : Row) (e : Chip),
    s.chip.WriteTaken q (0x3020 + ch.val) 0x13 1 n r e → e.chans.length = 8 →
    ∃ d : Chip, Acts (.modelReset q ch) s (d.saidOk q n (0x3020 + ch.val) 0x13) ∧ (d.chan ch.val).epochs = [] ∧
      d.rd (0x3020 + ch.val) 8 = 0xFFFFFFFF ∧ d.rd (0x3020 + ch.val) 9 = 0xFFFFFFFF ∧ d.rd (0x3020 + ch.val) 0x0C = 0 ∧
      d.rd (0x3020 + ch.val) 2 = 0 ∧ (∀ k, k ≠ ch.val → d.chan k = e.chan k) ∧
      ∀ idx sub, sub < 256 → idx ≠ 0x3020 + ch.val → d.rd idx sub = e.rd idx sub

/-! ### Synthesis and outputs (06) -/

/-- The core APLL (06 R148–R150): the fourth good lock window in a row declares lock; a window off by more than 8 ends it, and every
group that is not OFF becomes UNLOCKED with reason 2; the retry interval's end repeats the search, from the band last locked on; a search that found a band waits
for lock on it, and one that failed is repeated at once, up to the third. -/
def Obligations.CoreApllSearchesAndLocks : Prop :=
  (∀ (s : State) (n : Nat), s.chip.awake .synth = true ∨ s.chip.waking .synth = true → s.chip.loPresent = true →
    s.chip.start.untrusted.contains .apll = false → s.chip.apllLocked = false → s.chip.synth.apll.searching = false →
    ((n : Int) - s.chip.apllExpect).natAbs ≤ 2 → 3 ≤ s.chip.synth.apll.good →
    ∃ d, Acts (.apllLockWindowEnd n) s d ∧ d.apllLocked = true ∧ d.synth.apll.fails = 0 ∧
      d.synth.apll.last = some (s.chip.rdf 0x4001 2 7 0)) ∧
  (∀ (s : State) (n : Nat), s.chip.awake .synth = true ∨ s.chip.waking .synth = true → s.chip.loPresent = true →
    s.chip.start.untrusted.contains .apll = false → s.chip.apllLocked = true → 8 < ((n : Int) - s.chip.apllExpect).natAbs →
    ∃ d, Acts (.apllLockWindowEnd n) s d ∧ d.apllLocked = false ∧ d.rd 0x4001 3 = satAdd 32 (s.chip.rd 0x4001 3) 1 ∧
      ∀ g, g < 8 → s.chip.gState g ≠ 0 → d.gState g = 4 ∧ d.gReason g = 2) ∧
  (∀ s : State, s.chip.apllLocked = false → s.chip.synth.apll.searching = false → s.chip.synth.apll.retrying = true →
    s.chip.synth.apll.awaits = false →
    ∃ d, Acts .apllRetryTimer s d ∧ d.synth.apll.searching = true ∧ d.synth.apll.retrying = false ∧
      d.rd 0x4001 4 = satAdd 32 (s.chip.rd 0x4001 4) 1 ∧ (∀ b, s.chip.synth.apll.last = some b → d.rdf 0x4001 2 7 0 = b % 256) ∧
      s.chip.Frame d [.synth] [(0x4001, 2), (0x4001, 4)]) ∧
  (∀ (s : State) (band : Nat), s.chip.synth.apll.searching = true →
    ∃ d, Acts (.apllBandSearchEnd true band) s d ∧ d.rdf 0x4001 2 7 0 = band % 256 ∧ d.synth.apll.awaits = true ∧
      d.synth.apll.searching = false ∧ s.chip.Frame d [.synth] [(0x4001, 2)]) ∧
  ∀ (s : State) (band : Nat), s.chip.synth.apll.searching = true → s.chip.synth.apll.fails < 2 →
    ∃ d, Acts (.apllBandSearchEnd false band) s d ∧ d.synth.apll.searching = true ∧
      d.synth.apll.fails = s.chip.synth.apll.fails + 1 ∧ d.rd 0x4001 4 = satAdd 32 (s.chip.rd 0x4001 4) 1

/-- Groups (06 R147, R153–R157): a settled cached band is locked on; a step of a full search is judged and the next is tried, and after
the last the best band is locked on if it is within 3 %, else the search waits for its retry; enough good windows lock the group, and
a bad one unlocks it; LOCKING_LIMIT and the retry of a failed search begin a full search. -/
def Obligations.GroupsHopAndLock : Prop :=
  let on (c : Chip) (g : Fin 8) : Prop := c.awake .synth = true ∧ c.loPresent = true ∧
    c.start.untrusted.contains (.group g) = false ∧ c.synth.groups.length = 8
  (∀ (s : State) (g : Fin 8), s.chip.gState g.val = 1 → (s.chip.grp g.val).hop = .settle → s.chip.synth.groups.length = 8 →
    ∃ d, Acts (.hopSettleEnd g) s d ∧ d.gState g.val = 2 ∧ (d.grp g.val).hop = .none ∧ (d.grp g.val).via = (s.chip.grp g.val).via) ∧
  (∀ (s : State) (g : Fin 8) (n : Nat), s.chip.gState g.val = 1 → (s.chip.grp g.val).hop = .full → s.chip.loPresent = true →
    s.chip.synth.groups.length = 8 →
    let x := s.chip.grp g.val
    let e : Rat := (s.chip.rd (0x4010 + g.val) 2 : Rat) * 32 / 1000000000
    let best : Nat × Rat := match x.best with
      | some b => if ratAbs ((n : Rat) - e) < b.2 then (x.code, ratAbs ((n : Rat) - e)) else b
      | none => (x.code, ratAbs ((n : Rat) - e))
    (x.step < 7 → ∃ d, Acts (.searchStepEnd g n) s d ∧ (d.grp g.val).step = x.step + 1 ∧ (d.grp g.val).best = some best ∧
      (d.grp g.val).code = (if e < (n : Rat) then x.code - 2 ^ (7 - x.step) else x.code) + 2 ^ (7 - x.step) / 2 ∧
      s.chip.Frame d [.synth] []) ∧
    (7 ≤ x.step → best.2 * 100 ≤ e * 3 → ∃ d, Acts (.searchStepEnd g n) s d ∧
      d.rd (0x4018 + g.val) 0x0B = satAdd 32 (s.chip.rd (0x4018 + g.val) 0x0B) 1 ∧ d.gState g.val = 2 ∧
      (d.grp g.val).via = none ∧ d.rd (0x4018 + g.val) 5 = best.1) ∧
    (7 ≤ x.step → e * 3 < best.2 * 100 → ∃ d, Acts (.searchStepEnd g n) s d ∧
      d.rd (0x4018 + g.val) 0x0B = satAdd 32 (s.chip.rd (0x4018 + g.val) 0x0B) 1 ∧ d.gState g.val = 1 ∧
      (d.grp g.val).hop = .retry)) ∧
  (∀ (s : State) (g : Fin 8) (x : Int), on s.chip g → s.chip.gState g.val = 2 → x.natAbs ≤ s.chip.rd (0x4010 + g.val) 6 →
    s.chip.rd (0x4010 + g.val) 5 ≤ (s.chip.grp g.val).good + 1 →
    ∃ d, Acts (.mdllLockWindowEnd g x) s d ∧ d.gState g.val = 3 ∧ d.gReason g.val = 0) ∧
  (∀ (s : State) (g : Fin 8) (x : Int), on s.chip g → s.chip.gState g.val = 3 → s.chip.rd (0x4010 + g.val) 7 < x.natAbs →
    ∃ d, Acts (.mdllLockWindowEnd g x) s d ∧ d.gState g.val = 4 ∧ d.gReason g.val = 1 ∧
      d.rd (0x4018 + g.val) 9 = satAdd 32 (s.chip.rd (0x4018 + g.val) 9) 1) ∧
  (∀ (s : State) (g : Fin 8), s.chip.gState g.val = 2 ∨ (s.chip.gState g.val = 4 ∧ s.chip.gReason g.val = 1) →
    s.chip.synth.groups.length = 8 →
    ∃ d, Acts (.lockingLimitExpiry g) s d ∧ d.gState g.val = 1 ∧ (d.grp g.val).hop = .full) ∧
  ∀ (s : State) (g : Fin 8), s.chip.gState g.val = 1 → (s.chip.grp g.val).hop = .retry → s.chip.synth.groups.length = 8 →
    ∃ d, Acts (.bandSearchRetry g) s d ∧ d.gState g.val = 1 ∧ (d.grp g.val).hop = .full ∧ (d.grp g.val).code = 128

/-- Writes to a group, once taken: APPLY makes the staged plan the active one, and a group that is not OFF searches anew where f_G or M
changes, its ramp at 0; ENABLE is stored, and a group that is wanted then hops from OFF while one that is not goes to OFF; CLEAR
empties the band cache; SYNC of a LOCKED group moves its running outputs by a slip or a restart, and of another is held (06 R147,
R153, R157, R165, R172). -/
def Obligations.GroupWritesAct : Prop :=
  (∀ (s : State) (q : Envelope) (g : Fin 8) (n : Option Nat) (r : Row) (e : Chip), s.chip.WriteTaken q (0x4010 + g.val) 0x10 1 n r e →
    e.synth.groups.length = 8 →
    ∃ d : Chip, Acts (.apply q g) s (d.saidOk q n (0x4010 + g.val) 0x10) ∧ d.activePlan g.val = e.stagedPlan g.val ∧
      d.stagedPlan g.val = d.activePlan g.val ∧ (d.grp g.val).bad = false ∧
      ((e.stagedPlan g.val).freq = (e.activePlan g.val).freq → (e.stagedPlan g.val).m = (e.activePlan g.val).m →
        d.gState g.val = e.gState g.val) ∧
      (e.gState g.val ≠ 0 → (e.stagedPlan g.val).freq ≠ (e.activePlan g.val).freq ∨
        (e.stagedPlan g.val).m ≠ (e.activePlan g.val).m → d.gState g.val = 1 ∧ (d.grp g.val).ramp.kind = .held ∧
          (d.grp g.val).ramp.start = 0)) ∧
  (∀ (s : State) (q : Envelope) (g : Fin 8) (on : Bool) (n : Option Nat) (r : Row) (e : Chip),
    s.chip.WriteTaken q (0x4010 + g.val) 1 on.toNat n r e →
    ∃ d : Chip, Acts (.groupEnableWrite q g on) s (d.saidOk q n (0x4010 + g.val) 1) ∧ d.rd (0x4010 + g.val) 1 = on.toNat ∧
      e.Frame d [.nv] [(0x4010 + g.val, 1), (0x8010, 3)]) ∧
  (∀ (c : Chip) (g : Nat), g < 8 → c.groupWanted g = true → c.gState g = 0 → c.apllLocked = true → (c.groupWatch g).gState g = 1) ∧
  (∀ (c : Chip) (g : Nat), g < 8 → c.groupWanted g = false → (c.groupWatch g).gState g = 0) ∧
  (∀ (s : State) (q : Envelope) (n : Option Nat) (r : Row) (e : Chip), s.chip.WriteTaken q 0x4300 2 1 n r e →
    e.synth.cache.length = 64 →
    ∃ d : Chip, Acts (.bandCacheClear q) s (d.saidOk q n 0x4300 2) ∧ d.rd 0x4300 1 = 0 ∧ ∀ b ∈ d.synth.cache, b.valid = false) ∧
  ∀ (s : State) (q : Envelope) (g : Fin 8) (n : Option Nat) (r : Row) (e : Chip), s.chip.WriteTaken q (0x4010 + g.val) 9 1 n r e →
    e.synth.groups.length = 8 → e.synth.outs.length = 16 →
    ∃ d : Chip, Acts (.sync q g) s (d.saidOk q n (0x4010 + g.val) 9) ∧
      (e.gState g.val ≠ 3 → (d.grp g.val).syncHeld = true ∧ e.Frame d [.synth] []) ∧
      (e.gState g.val = 3 → (d.grp g.val).synced = true ∧ (d.grp g.val).syncHeld = false ∧
        ∀ k, k / 2 = g.val → e.ttuOf k = none → d.rdb (0x4100 + k) 9 4 = false ∧
          ((e.outp k).drive = .run → e.rd (0x4100 + k) 8 = 0 → d.rdb (0x4100 + k) 9 3 = true ∧ (d.outp k).drive = .run) ∧
          ((e.outp k).drive = .run → e.rd (0x4100 + k) 8 ≠ 0 → (d.outp k).drive = .falling))

/-- Outputs (06 R158–R168, R173): a squelching pin that reaches its low level restarts, waits for high impedance, or holds its
squelch level; the pulse guard lengthens a phase shorter than 0.45/F and counts it, and a period shorter than 1/F of a watched output
closes its gate and is counted; the gate opens, and a restart runs at its target, once the pin has been low for 0.45/F; a slip ends;
a bank whose voltage does not fit is shown and its drivers go to high impedance. -/
def Obligations.OutputsFollowTheirGroups : Prop :=
  let fence (c : Chip) (k : Nat) : Rat := c.fenceHz (k / 2) (c.activePlan (k / 2))
  let short (c : Chip) (k ps : Nat) : Bool := decide ((ps : Rat) < 450000000000 / fence c k)
  (∀ (s : State) (k : Fin 16) (high : Nat), (s.chip.outp k.val).drive = .falling → s.chip.synth.outs.length = 16 →
    ∃ d, Acts (.squelchLowReached k high) s d ∧ d.rdb (0x4100 + k.val) 9 0 = false ∧
      (d.outp k.val).drive = (if s.chip.outWanted k.val true then .restart
        else if s.chip.rd (0x4100 + k.val) 6 = 2 then .low else .level) ∧
      d.rd (0x4100 + k.val) 0x0C = (if !s.chip.rdb (0x4100 + k.val) 9 2 && short s.chip k.val high
        then satAdd 32 (s.chip.rd (0x4100 + k.val) 0x0C) 1 else s.chip.rd (0x4100 + k.val) 0x0C) ∧
      s.chip.Frame d [.synth] [(0x4100 + k.val, 9), (0x4100 + k.val, 0x0C)]) ∧
  (∀ (s : State) (k : Fin 16), (s.chip.outp k.val).drive = .low → s.chip.synth.outs.length = 16 →
    ∃ d, Acts (.squelchHizTimer k) s d ∧ (d.outp k.val).drive = .level ∧ (d.outp k.val).hiz = true ∧
      s.chip.Frame d [.synth] [(0x4100 + k.val, 9)]) ∧
  (∀ (s : State) (k : Fin 16) (high low : Nat), (s.chip.outp k.val).drive = .run → s.chip.rdb (0x4100 + k.val) 9 2 = false →
    ∃ d, Acts (.fenceViolation k high low) s d ∧
      d.rd (0x4100 + k.val) 0x0C = satAdd 32 (s.chip.rd (0x4100 + k.val) 0x0C)
        ((short s.chip k.val high).toNat + (short s.chip k.val low).toNat) ∧
      (s.chip.ttuOf k.val = none → s.chip.rdb (0x4018 + k.val / 2) 1 6 = true → ((high + low : Nat) : Rat) * fence s.chip k.val <
        1000000000000 → d.rdb (0x4100 + k.val) 9 2 = true ∧
          d.rd (0x4018 + k.val / 2) 0x0C = satAdd 32 (s.chip.rd (0x4018 + k.val / 2) 0x0C) 1) ∧
      (s.chip.ttuOf k.val ≠ none ∨ s.chip.rdb (0x4018 + k.val / 2) 1 6 = false ∨ 1000000000000 ≤ ((high + low : Nat) : Rat) *
        fence s.chip k.val → d.rdb (0x4100 + k.val) 9 2 = false) ∧
      s.chip.Frame d [.synth] [(0x4100 + k.val, 9), (0x4100 + k.val, 0x0C), (0x4018 + k.val / 2, 0x0C)]) ∧
  (∀ (s : State) (k : Fin 16) (low : Nat), short s.chip k.val low = false →
    ∃ d, Acts (.fenceGateOpen k low) s d ∧ d.rdb (0x4100 + k.val) 9 2 = false ∧ s.chip.Frame d [] [(0x4100 + k.val, 9)]) ∧
  (∀ (s : State) (k : Fin 16) (low : Nat), (s.chip.outp k.val).drive = .restart → s.chip.outWanted k.val true = true →
    short s.chip k.val low = false → s.chip.synth.outs.length = 16 →
    ∃ d, Acts (.outputRestart k low) s d ∧ (d.outp k.val).drive = .run ∧ d.rdb (0x4100 + k.val) 9 0 = true ∧
      d.rdb (0x4100 + k.val) 9 4 = ((s.chip.ttuOf k.val).isNone && s.chip.gState (k.val / 2) == 3) ∧
      (d.outp k.val).edge = (d.outp k.val).epoch + (sext 64 (s.chip.rd (0x4100 + k.val) 5) : Rat) ∧
      s.chip.Frame d [.synth, .free] [(0x4100 + k.val, 9)]) ∧
  (∀ (s : State) (k : Fin 16), s.chip.rdb (0x4100 + k.val) 9 3 = true → s.chip.synth.outs.length = 16 →
    ∃ d, Acts (.slipComplete k) s d ∧ d.rdb (0x4100 + k.val) 9 3 = false ∧
      d.rdb (0x4100 + k.val) 9 4 = (s.chip.gState (k.val / 2) == 3 && (s.chip.outp k.val).drive == .run) ∧
      (d.outp k.val).edge = (s.chip.outp k.val).edge + (s.chip.outp k.val).left ∧ (d.outp k.val).left = 0 ∧
      s.chip.Frame d [.synth] [(0x4100 + k.val, 9)]) ∧
  ∀ (s : State) (m : Nat), s.chip.awake .synth = true → s.chip.grade ≠ .e → s.chip.synth.outs.length = 16 →
    ∃ d, Acts (.bankVoltageCheck m) s d ∧ d.rdf 0x4020 5 3 0 = m % 16 ∧
      ∀ k, k < 16 → bit (k / 4) (m % 16) = true → s.chip.rdb 0x4020 5 (k / 4) = false →
        (d.outp k).drive = .level ∧ (d.outp k).hiz = true

/-- PHASE_ADJ, FORMAT and OUT_SOURCE, once taken: the value is stored; a running output that follows its divider is ADJUSTING toward its
new target and no longer ALIGNED, and one whose format or source changes leaves through the squelch sequence, which is counted (06
R165, R168, R174, 07 R197). -/
def Obligations.OutputWritesAct : Prop :=
  (∀ (s : State) (q : Envelope) (k : Fin 16) (ps : Int) (n : Option Nat) (r : Row) (e : Chip),
    s.chip.WriteTaken q (0x4100 + k.val) 5 (wrapInt 64 ps) n r e →
    ∃ d : Chip, Acts (.phaseAdjWrite q k ps) s (d.saidOk q n (0x4100 + k.val) 5) ∧ d.rd (0x4100 + k.val) 5 = wrapInt 64 ps ∧
      (e.ttuOf k.val = none → d.rdb (0x4100 + k.val) 9 4 = false ∧
        ((e.outp k.val).drive = .run → d.rdb (0x4100 + k.val) 9 3 = true ∧ (d.outp k.val).drive = .run)) ∧
      e.Frame d [.synth, .nv] [(0x4100 + k.val, 5), (0x4100 + k.val, 9), (0x8010, 3)]) ∧
  (∀ (s : State) (q : Envelope) (k : Fin 16) (f : Nat) (n : Option Nat) (r : Row) (e : Chip),
    s.chip.WriteTaken q (0x4100 + k.val) 1 f n r e → e.synth.outs.length = 16 →
    ∃ d : Chip, Acts (.formatWrite q k f) s (d.saidOk q n (0x4100 + k.val) 1) ∧ d.rd (0x4100 + k.val) 1 = f ∧
      (e.rd (0x4100 + k.val) 1 ≠ f → (e.outp k.val).drive = .run → (d.outp k.val).drive = .falling ∧
        d.rd (0x4100 + k.val) 0x0D = satAdd 32 (e.rd (0x4100 + k.val) 0x0D) 1) ∧
      e.Frame d [.synth, .nv] [(0x4100 + k.val, 1), (0x4100 + k.val, 9), (0x4100 + k.val, 0x0D), (0x8010, 3)]) ∧
  ∀ (s : State) (q : Envelope) (k : Fin 16) (v : Nat) (n : Option Nat) (r : Row) (e : Chip),
    s.chip.WriteTaken q 0x7011 (k.val + 1) v n r e → e.synth.outs.length = 16 →
    ∃ d : Chip, Acts (.outSourceWrite q k v) s (d.saidOk q n 0x7011 (k.val + 1)) ∧ d.rd 0x7011 (k.val + 1) = v ∧
      (e.rd 0x7011 (k.val + 1) ≠ v → (e.outp k.val).drive = .run → (d.outp k.val).drive = .falling ∧
        d.rd (0x4100 + k.val) 0x0D = satAdd 32 (e.rd (0x4100 + k.val) 0x0D) 1) ∧
      e.Frame d [.synth, .nv] [(0x7011, k.val + 1), (0x4100 + k.val, 9), (0x4100 + k.val, 0x0D), (0x8010, 3)]

/-- Ramps and spreads, once taken: START runs the named profile from the present r, STOP holds r and ZERO takes it to 0, while no spread
runs; a segment's end begins the next, or the first of a loop, or holds r, or takes it into f_G and returns to 0; SSC_MODE starts a
spread or asks for its end, which comes at r = 0 (06 R170, R171). -/
def Obligations.RampsAndSpreads : Prop :=
  (∀ (s : State) (q : Envelope) (g : Fin 8) (n : Option Nat) (r : Row) (e : Chip), e.synth.groups.length = 8 →
    (s.chip.WriteTaken q (0x4010 + g.val) 0x0C 1 n r e →
      ∃ d : Chip, Acts (.rampStart q g) s (d.saidOk q n (0x4010 + g.val) 0x0C) ∧ e.Frame d [.synth] [] ∧
        (d.grp g.val).ramp.kind = .profile ∧ (d.grp g.val).ramp.seg = 1 ∧ (d.grp g.val).ramp.start = e.rampNow g.val ∧
        (d.grp g.val).ramp.prof = e.rd (0x4010 + g.val) 0x0B ∧ (d.grp g.val).ramp.since = e.time.mono) ∧
    (s.chip.WriteTaken q (0x4010 + g.val) 0x0C 2 n r e →
      ∃ d : Chip, Acts (.rampStop q g) s (d.saidOk q n (0x4010 + g.val) 0x0C) ∧ e.Frame d [.synth] [] ∧
        ((e.grp g.val).ramp.kind ≠ .spread → (d.grp g.val).ramp.kind = .held ∧ (d.grp g.val).ramp.start = e.rampNow g.val) ∧
        ((e.grp g.val).ramp.kind = .spread → d.synth = e.synth)) ∧
    (s.chip.WriteTaken q (0x4010 + g.val) 0x0C 3 n r e →
      ∃ d : Chip, Acts (.rampZero q g) s (d.saidOk q n (0x4010 + g.val) 0x0C) ∧ e.Frame d [.synth] [] ∧
        ((e.grp g.val).ramp.kind ≠ .spread → (d.grp g.val).ramp.kind = .zero ∧ (d.grp g.val).ramp.start = e.rampNow g.val) ∧
        ((e.grp g.val).ramp.kind = .spread → d.synth = e.synth)) ∧
    ∀ m, s.chip.WriteTaken q (0x4010 + g.val) 0x0D m n r e →
      ∃ d : Chip, Acts (.sscModeWrite q g m) s (d.saidOk q n (0x4010 + g.val) 0x0D) ∧ d.rd (0x4010 + g.val) 0x0D = m ∧
        e.Frame d [.synth, .nv] [(0x4010 + g.val, 0x0D), (0x8010, 3)] ∧
        (m ≠ 0 → (d.grp g.val).ramp.kind = .spread ∧ (d.grp g.val).ramp.mode = m ∧ (d.grp g.val).ramp.ending = false) ∧
        (m = 0 → (e.grp g.val).ramp.kind = .spread → (d.grp g.val).ramp.kind = .spread ∧ (d.grp g.val).ramp.ending = true)) ∧
  (∀ (s : State) (g : Fin 8), (s.chip.grp g.val).ramp.kind = .profile → (s.chip.grp g.val).ramp.frozen = none →
    s.chip.synth.groups.length = 8 →
    let x := (s.chip.grp g.val).ramp
    ∃ d, Acts (.rampSegmentEnd g) s d ∧
      (x.seg < s.chip.rd (0x4200 + x.prof) 1 → (d.grp g.val).ramp.seg = x.seg + 1 ∧ (d.grp g.val).ramp.kind = .profile ∧
        (d.grp g.val).ramp.start = s.chip.segDelta x.prof x.seg) ∧
      (s.chip.rd (0x4200 + x.prof) 1 ≤ x.seg → s.chip.rd (0x4200 + x.prof) 2 = 1 → (d.grp g.val).ramp.seg = 1 ∧
        (d.grp g.val).ramp.kind = .profile ∧ (d.grp g.val).ramp.start = s.chip.segDelta x.prof x.seg) ∧
      (s.chip.rd (0x4200 + x.prof) 1 ≤ x.seg → s.chip.rd (0x4200 + x.prof) 2 = 0 → (d.grp g.val).ramp.kind = .held ∧
        (d.grp g.val).ramp.start = s.chip.segDelta x.prof x.seg) ∧
      (s.chip.rd (0x4200 + x.prof) 1 ≤ x.seg → s.chip.rd (0x4200 + x.prof) 2 = 2 → (d.grp g.val).ramp.kind = .held ∧
        (d.grp g.val).ramp.start = 0 ∧ d.rd (0x4010 + g.val) 2 = ((s.chip.rd (0x4010 + g.val) 2 : Rat) *
          (1 + (s.chip.segDelta x.prof x.seg : Rat) / 1000000000) + 1 / 2).floor.toNat)) ∧
  ∀ (s : State) (g : Fin 8), (s.chip.grp g.val).ramp.kind = .spread → (s.chip.grp g.val).ramp.ending = true →
    (s.chip.grp g.val).ramp.frozen = none → s.chip.synth.groups.length = 8 →
    ∃ d, Acts (.sscEnd g) s d ∧ (d.grp g.val).ramp.kind = .held ∧ (d.grp g.val).ramp.start = 0 ∧ s.chip.Frame d [.synth] []

/-! ### The time counter, TTUs and the launch-time unit (07) -/

/-- A pending step is taken, once, when no deal's processing is waited for: the counter's reading becomes the loaded value, or moves
by Δ, STEP_PENDING clears, the step is counted and a load makes the time valid. A taken TIME_SET or TIME_STEP asks for a step and
TIME_SLEW adds to the slew; each makes TC0's bound unknown, with reason 3 where TC0 runs. A leap changes the UTC offset by one and
clears its flags; and the RC period is the mean of up to 16 measurements (07 R178–R183, R187, 05 R141). -/
def Obligations.CounterStepsAndLeaps : Prop :=
  let asked (e d : Chip) : Prop := d.rdb 0x1201 1 2 = true ∧ d.rd 0x3030 1 = 0x3FFFF ∧ d.rd 0x3030 2 = 2 ^ 64 - 1 ∧
    (e.tcOn 0 = true → d.rd 0x3030 3 = 3) ∧
    e.Frame d [.time, .hand, .chans, .nv] [(0x1201, 1), (0x3030, 1), (0x3030, 2), (0x3030, 3)]
  (∀ (s : State) (r : StepReq), s.chip.time.pendingStep = some r →
    (s.chip.awake .enga = true ∨ s.chip.awake .engb = true ∨ s.chip.awake .port = true → s.chip.hand.stepOpen = true) →
    ∃ d, Acts .stepExecute s d ∧ d.time.pendingStep = none ∧ d.rdb 0x1201 1 2 = false ∧
      d.rd 0x1201 4 = satAdd 32 (s.chip.rd 0x1201 4) 1 ∧ (r.load.isSome = true → d.rdb 0x1201 1 0 = true) ∧
      (d.time.total : Int) = ((match r.load with
        | some (sec, ns, f) => (((sec * 1000000000 + ns) * nsUnit + f : Nat) : Int)
        | none => (s.chip.tick.time.total : Int)) + r.delta * nsUnit) % (2 ^ 48 * 1000000000 * nsUnit)) ∧
  (∀ (s : State) (q : Envelope) (v : Nat) (n : Option Nat) (r : Row) (e : Chip), s.chip.WriteTaken q 0x1202 1 v n r e →
    ∃ d : Chip, Acts (.timeSet q v) s (d.saidOk q n 0x1202 1) ∧ asked e d ∧
      d.time.pendingStep = some ⟨0, some (field 127 80 v, field 79 50 v, field 49 34 v * 65536), 3, 0, false⟩) ∧
  (∀ (s : State) (q : Envelope) (x : Int) (n : Option Nat) (r : Row) (e : Chip), s.chip.WriteTaken q 0x1202 2 (wrapInt 64 x) n r e →
    ∃ d : Chip, Acts (.timeStep q x) s (d.saidOk q n 0x1202 2) ∧ asked e d ∧
      d.time.pendingStep = some ⟨sext 64 (wrapInt 64 x), none, 2, 0, false⟩) ∧
  (∀ (s : State) (q : Envelope) (x : Int) (n : Option Nat) (r : Row) (e : Chip), s.chip.WriteTaken q 0x1202 3 (wrapInt 64 x) n r e →
    e.chans.length = 8 →
    ∃ d : Chip, Acts (.timeSlew q x) s (d.saidOk q n 0x1202 3) ∧ (d.chan 0).slew = (e.chan 0).slew + (sext 64 (wrapInt 64 x) : Int) ∧
      d.rd 0x3030 1 = 0x3FFFF ∧ d.rd 0x3030 2 = 2 ^ 64 - 1 ∧ d.rd 0x3030 3 = 3 ∧ d.time = e.time) ∧
  (∀ s : State, s.chip.rd 0x1210 4 ≠ 0 → ∃ d, Acts .leapApply s d ∧ d.rd 0x1210 4 = 0 ∧
    d.rd 0x1210 1 = wrapInt 16 (s.chip.utcOffset + if s.chip.rdb 0x1210 2 2 then 1 else -1) ∧ d.rdb 0x1210 2 1 = false ∧
    d.rdb 0x1210 2 2 = false ∧ d.rd 0x1210 5 = satAdd 32 (s.chip.rd 0x1210 5) 1) ∧
  ∀ (s : State) (ps : Nat), s.chip.loPresent = true → ∃ d, Acts (.rcPeriodMeasure ps) s d ∧
    d.time.rcHistory = (ps :: s.chip.time.rcHistory).take 16 ∧
    d.rd 0x1201 0x0A = d.time.rcHistory.foldl (· + ·) 0 / d.time.rcHistory.length % 2 ^ 32 ∧
    s.chip.Frame d [.time] [(0x1201, 0x0A)]

/-- A time-trigger unit: a taken write of MODE arms or disarms it, a pulse in progress going on; periodic, it takes the first grid
instant at least 2 µs ahead; one-shot, its START, or it is missed, counted and disarmed. A leading edge that the synthesis part can
make is counted and makes the unit active; one that finds the core APLL unlocked is missed, which a one-shot does not survive; and
the trailing edge ends the pulse, and after the last one the arming (07 R195, R196). -/
def Obligations.TriggersArmAndFire : Prop :=
  let wrote (e d : Chip) (u v : Nat) : Prop := d.rd (0x7000 + u) 1 = v ∧ d.ttuActive u = e.ttuActive u ∧
    e.Frame d [.ttus, .nv] [(0x7000 + u, 1), (0x7008 + u, 1), (0x7008 + u, 4), (0x8010, 3)]
  (∀ (s : State) (q : Envelope) (u : Fin 8) (n : Option Nat) (r : Row) (e : Chip), e.ttus.length = 8 →
    (s.chip.WriteTaken q (0x7000 + u.val) 1 1 n r e →
      ∃ d : Chip, Acts (.ttuArmOneShot q u) s (d.saidOk q n (0x7000 + u.val) 1) ∧ wrote e d u.val 1 ∧
        (e.readPs + 2000000 ≤ e.ttuAt u.val → d.ttuArmed u.val = true ∧ (d.ttu u.val).next = e.ttuAt u.val ∧
          (d.ttu u.val).fired = 0) ∧
        ((e.ttuAt u.val : Rat) < e.readPs + 2000000 → d.ttuArmed u.val = false ∧ d.rdb (0x7008 + u.val) 1 2 = true ∧
          d.rd (0x7008 + u.val) 4 = satAdd 32 (e.rd (0x7008 + u.val) 4) 1)) ∧
    (s.chip.WriteTaken q (0x7000 + u.val) 1 2 n r e → 0 < e.ttuPeriod u.val →
      ∃ (d : Chip) (j : Nat), Acts (.ttuArmPeriodic q u) s (d.saidOk q n (0x7000 + u.val) 1) ∧ wrote e d u.val 2 ∧
        d.ttuArmed u.val = true ∧ (d.ttu u.val).fired = 0 ∧ (d.ttu u.val).next = e.ttuAt u.val + j * e.ttuPeriod u.val ∧
        e.readPs + 2000000 ≤ (d.ttu u.val).next ∧
        (j = 0 ∨ ((d.ttu u.val).next : Rat) < e.readPs + 2000000 + e.ttuPeriod u.val)) ∧
    (s.chip.WriteTaken q (0x7000 + u.val) 1 0 n r e →
      ∃ d : Chip, Acts (.ttuDisarm q u) s (d.saidOk q n (0x7000 + u.val) 1) ∧ wrote e d u.val 0 ∧ d.ttuArmed u.val = false)) ∧
  (∀ (s : State) (u : Fin 8), s.chip.ttuArmed u.val = true → (s.chip.ttu u.val).final = false → s.chip.awake .synth = true →
    s.chip.apllLocked = true → s.chip.ttus.length = 8 →
    ∃ d, Acts (.ttuLeadingEdge u) s d ∧ d.ttuActive u.val = true ∧ (d.ttu u.val).fired = (s.chip.ttu u.val).fired + 1 ∧
      (d.ttu u.val).last = some (s.chip.ttu u.val).next ∧
      (d.ttu u.val).next = (s.chip.ttu u.val).next + s.chip.ttuPeriod u.val ∧
      d.rd (0x7008 + u.val) 3 = satAdd 32 (s.chip.rd (0x7008 + u.val) 3) 1 ∧
      s.chip.Frame d [.ttus] [(0x7008 + u.val, 1), (0x7008 + u.val, 3)]) ∧
  (∀ (s : State) (u : Fin 8), s.chip.ttuArmed u.val = true → (s.chip.ttu u.val).final = false → s.chip.awake .synth = true →
    s.chip.apllLocked = false → s.chip.ttus.length = 8 →
    ∃ d, Acts (.ttuLeadingEdge u) s d ∧ d.rd (0x7008 + u.val) 4 = satAdd 32 (s.chip.rd (0x7008 + u.val) 4) 1 ∧
      d.ttuActive u.val = s.chip.ttuActive u.val ∧ (d.ttu u.val).fired = (s.chip.ttu u.val).fired ∧
      (s.chip.rd (0x7000 + u.val) 1 = 1 → d.ttuArmed u.val = false ∧ d.rdb (0x7008 + u.val) 1 2 = true) ∧
      (s.chip.rd (0x7000 + u.val) 1 ≠ 1 → d.ttuArmed u.val = true ∧
        (d.ttu u.val).next = (s.chip.ttu u.val).next + s.chip.ttuPeriod u.val)) ∧
  ∀ (s : State) (u : Fin 8), s.chip.ttuActive u.val = true →
    ∃ d, Acts (.ttuTrailingEdge u) s d ∧ d.ttuActive u.val = false ∧
      d.ttuArmed u.val = (s.chip.ttuArmed u.val && !(s.chip.ttu u.val).final) ∧ s.chip.Frame d [] [(0x7008 + u.val, 1)]

/-- Timestamp queues and the launch-time unit: a taken read of TS_QUEUE_HEAD answers with the oldest host stamp and removes it, or with
zeros; LOST is cleared and HOST_RESERVE set by taken writes; the LTU starts its first frame, its stamp telling how far its timestamp
point was from the launch time, and counts one within 2 ns; and a late one is discarded where LATE_ACTION is 0 (07 R191, R192, R199,
R200). -/
def Obligations.StampsAndLaunches : Prop :=
  (∀ (s : State) (q : Envelope) (p : Fin 8) (n : Option Nat) (e : Chip), s.chip.ReadTaken q (0x5208 + p.val) 1 n e →
    (∀ x t, (e.port p.val).tsHost = x :: t → e.ports.length = 8 →
      ∃ d : Chip, Acts (.tsQueueHeadRead q p) s (d.saidRead q n (e.readHead (0x5208 + p.val) 1) (toBytes 16 x)) ∧
        (d.port p.val).tsHost = t ∧ d.rd (0x5200 + p.val) 3 = t.length ∧
        e.Frame d [.ports] [(0x5200 + p.val, 2), (0x5200 + p.val, 3)]) ∧
    ((e.port p.val).tsHost = [] → ∃ d : Chip, Acts (.tsQueueHeadRead q p) s
      (d.saidRead q n (e.readHead (0x5208 + p.val) 1) (List.replicate 16 0)) ∧ e.Frame d [] [])) ∧
  (∀ (s : State) (q : Envelope) (p : Fin 8) (n : Option Nat) (r : Row) (e : Chip), s.chip.WriteTaken q (0x5200 + p.val) 4 0 n r e →
    ∃ d : Chip, Acts (.tsQueueLostClear q p) s (d.saidOk q n (0x5200 + p.val) 4) ∧ d.rd (0x5200 + p.val) 4 = 0 ∧
      e.Frame d [] [(0x5200 + p.val, 4)]) ∧
  (∀ (s : State) (q : Envelope) (p : Fin 8) (v : Nat) (n : Option Nat) (r : Row) (e : Chip),
    s.chip.WriteTaken q (0x5200 + p.val) 1 v n r e →
    ∃ d : Chip, Acts (.hostReserveWrite q p v) s (d.saidOk q n (0x5200 + p.val) 1) ∧ d.rd (0x5200 + p.val) 1 = v ∧
      (e.port p.val).tsHost = [] ∧ (e.port p.val).tsEngine = [] ∧ e.Frame d [.nv] [(0x5200 + p.val, 1), (0x8010, 3)]) ∧
  (∀ (s : State) (p : Fin 8) (err : Int) (x : TxDesc) (t : List TxDesc), (s.chip.port p.val).ltu = x :: t →
    s.chip.held p.val 0 x.prio = false → err ≤ (s.chip.rd (0x5220 + p.val) 2 : Int) * 1000 → x.trick = none → x.tsRequest = false →
    x.tebTx = 0 →
    ∃ d, Acts (.ltuLaunch p err) s d ∧ (d.port p.val).ltu = t ∧ d.rd (0x5220 + p.val) 3 = t.length ∧
      d.rd (0x5220 + p.val) 4 = (if err.natAbs ≤ 2000 then satAdd 32 (s.chip.rd (0x5220 + p.val) 4) 1
        else s.chip.rd (0x5220 + p.val) 4) ∧
      (d.port p.val).wireStamp =
        s.chip.stampAt ((tsUnits x.time : Rat) * 1000 / 65536 + err) (s.chip.portUnc p.val) x.tsId ∧
      (d.port p.val).wire = completeFrame x (d.port p.val).wireStamp (s.chip.rd (0x5000 + p.val) 0x0A == 1)) ∧
  ∀ (s : State) (p : Fin 8) (x : TxDesc) (t : List TxDesc), (s.chip.port p.val).ltu = x :: t → s.chip.rd (0x5220 + p.val) 1 = 0 →
    ∃ d, Acts (.ltuLate p) s d ∧ (d.port p.val).ltu = t ∧ (d.port p.val).wire = (s.chip.port p.val).wire ∧
      d.rd (0x5220 + p.val) 5 = satAdd 32 (s.chip.rd (0x5220 + p.val) 5) 1

/-! ### Ports, links and frames (08) -/

/-- Links: the PCS's lock begins the qualification, LINK_UP follows it, and a lost condition ends it, is counted and flushes every
queued frame; a write of RATE or the line mode of an enabled port restarts its link, and a frame in receipt then counts as a code
error; ENABLE is stored, and a disabled port loses its link; low-power idle is entered and left in both directions (08 R204, R229,
R230). -/
def Obligations.LinksRiseAndFall : Prop :=
  let on (c : Chip) (p : Fin 8) : Prop := c.portOn p.val = true ∧ c.portAlive = true ∧ c.ports.length = 8
  let receiving (c : Chip) (p : Nat) (rx : Bool) : Chip := c.modPort p (fun x => { x with receiving := rx })
  (∀ (s : State) (p : Fin 8) (x y z g : Bool), on s.chip p →
    ∃ d, Acts (.pcsLockAcquired p x y z g) s d ∧ d.rdb (0x5010 + p.val) 1 1 = true ∧
      (s.chip.rateOf p.val ≠ 1 → (d.port p.val).good = true) ∧ s.chip.Frame d [.ports] [(0x5010 + p.val, 1)]) ∧
  (∀ (s : State) (p : Fin 8), on s.chip p → (s.chip.port p.val).good = true → s.chip.up p.val = false →
    ∃ d, Acts (.linkUp p) s d ∧ d.up p.val = true ∧ s.chip.Frame d [.faults] [(0x5010 + p.val, 1)]) ∧
  (∀ (s : State) (p : Fin 8) (rx pcs : Bool), on s.chip p → s.chip.up p.val = true →
    ∃ d, Acts (.linkDown p rx pcs) s d ∧ d.up p.val = false ∧ (d.port p.val).tx = List.replicate 3 [] ∧ (d.port p.val).ltu = [] ∧
      d.rd (0x5020 + p.val) 0x1F = satAdd 32 (s.chip.rd (0x5020 + p.val) 0x1F) 1 ∧
      d.rd (0x5020 + p.val) 8 = satAdd 32 (s.chip.rd (0x5020 + p.val) 8) rx.toNat) ∧
  (∀ (s : State) (q : Envelope) (p : Fin 8) (sub v : Nat) (rx : Bool) (n : Option Nat) (r : Row) (e : Chip), sub = 2 ∨ sub = 3 →
    (receiving s.chip p.val rx).WriteTaken q (0x5000 + p.val) sub v n r e → e.ports.length = 8 →
    ∃ d : Chip, Acts (.portLinkRestartWrite q p sub v rx) s (d.saidOk q n (0x5000 + p.val) sub) ∧ d.rd (0x5000 + p.val) sub = v ∧
      (e.portOn p.val = true → d.up p.val = false ∧ d.rdb (0x5010 + p.val) 1 1 = false ∧ (d.port p.val).good = false) ∧
      (e.portOn p.val = true → e.up p.val = true → (d.port p.val).tx = List.replicate 3 [] ∧
        d.rd (0x5020 + p.val) 0x1F = satAdd 32 (e.rd (0x5020 + p.val) 0x1F) 1 ∧
        d.rd (0x5020 + p.val) 8 = satAdd 32 (e.rd (0x5020 + p.val) 8) (e.port p.val).receiving.toNat) ∧
      (e.portOn p.val = false → d.ports = e.ports ∧ ∀ sub, sub < 256 → d.rd (0x5020 + p.val) sub = e.rd (0x5020 + p.val) sub)) ∧
  (∀ (s : State) (q : Envelope) (p : Fin 8) (b rx : Bool) (n : Option Nat) (r : Row) (e : Chip),
    (receiving s.chip p.val rx).WriteTaken q (0x5000 + p.val) 1 b.toNat n r e →
    ∃ d : Chip, Acts (.portEnableWrite q p b rx) s (d.saidOk q n (0x5000 + p.val) 1) ∧ d.rd (0x5000 + p.val) 1 = b.toNat ∧
      e.Frame d [.nv] [(0x5000 + p.val, 1), (0x8010, 3)]) ∧
  (∀ (c : Chip) (p : Nat), p < 8 → c.portOn p = false → (c.portWatch p).up p = false) ∧
  (∀ (s : State) (p : Fin 8), s.chip.rdb (0x5000 + p.val) 0x0D 0 = true → s.chip.up p.val = true →
    s.chip.rdb (0x5010 + p.val) 1 7 = false → (s.chip.port p.val).tx.flatten = [] → (s.chip.port p.val).control = [] →
    (s.chip.port p.val).ltu = [] → (s.chip.port p.val).late = [] → s.chip.nextStart p.val = none →
    ∃ d, Acts (.txLpiEntry p) s d ∧ d.rdb (0x5010 + p.val) 1 7 = true ∧
      d.rd (0x5020 + p.val) 0x1D = satAdd 32 (s.chip.rd (0x5020 + p.val) 0x1D) 1 ∧
      s.chip.Frame d [] [(0x5010 + p.val, 1), (0x5020 + p.val, 0x1D)]) ∧
  (∀ (s : State) (p : Fin 8), s.chip.rdb (0x5010 + p.val) 1 7 = true → s.chip.ports.length = 8 →
    ∃ d, Acts (.txLpiExit p) s d ∧ d.rdb (0x5010 + p.val) 1 7 = false ∧
      (d.port p.val).wakeEnd = s.chip.time.mono + s.chip.rd (0x5000 + p.val) 0x0F * nsUnit ∧
      s.chip.Frame d [.ports] [(0x5010 + p.val, 1)]) ∧
  (∀ (s : State) (p : Fin 8), s.chip.up p.val = true → s.chip.rdb (0x5010 + p.val) 1 6 = false →
    ∃ d, Acts (.rxLpiEntry p) s d ∧ d.rdb (0x5010 + p.val) 1 6 = true ∧
      d.rd (0x5020 + p.val) 0x16 = satAdd 32 (s.chip.rd (0x5020 + p.val) 0x16) 1 ∧
      s.chip.Frame d [] [(0x5010 + p.val, 1), (0x5020 + p.val, 0x16)]) ∧
  ∀ (s : State) (p : Fin 8), ∃ d, Acts (.rxLpiExit p) s d ∧ d.rdb (0x5010 + p.val) 1 6 = false ∧
    s.chip.Frame d [.power] [(0x5010 + p.val, 1)]

/-- Reception: on a port that carries frames, a frame ended by a code error or lost to a wake is counted and enters no ring, and so is
one to another address. One that passes its checks joins the ring of its class, without its check unless the HOST ring keeps it,
while a slot is free and the credit covers its cells; without a slot, a cell or enough of them it is counted. A taken read of
HOST_FRAME_RX answers with the oldest frame and releases it, or with an empty descriptor (08 R206, R208–R210, R213–R215, R230). -/
def Obligations.FramesAreReceived : Prop :=
  let on (c : Chip) (p : Fin 8) : Prop := c.portOn p.val = true ∧ c.carries p.val = true
  (∀ (s : State) (p : Fin 8) (b : List Nat) (ps x y : Nat), on s.chip p →
    (∃ d, Acts (.frameReceive p b ps true false x y) s d ∧ d.rd (0x5020 + p.val) 8 = satAdd 32 (s.chip.rd (0x5020 + p.val) 8) 1 ∧
      d.rd (0x5020 + p.val) 0x21 = satAdd 32 (s.chip.rd (0x5020 + p.val) 0x21) y ∧
      s.chip.Frame d [] [(0x5020 + p.val, 8), (0x5020 + p.val, 0x20), (0x5020 + p.val, 0x21)]) ∧
    (∀ ce, ∃ d, Acts (.frameReceive p b ps ce true x y) s d ∧
      d.rd (0x5020 + p.val) 0x15 = satAdd 32 (s.chip.rd (0x5020 + p.val) 0x15) 1 ∧
      s.chip.Frame d [] [(0x5020 + p.val, 0x15), (0x5020 + p.val, 0x20), (0x5020 + p.val, 0x21)]) ∧
    (fcsGood b = true → 64 ≤ b.length → b.length ≤ s.chip.rd (0x5000 + p.val) 5 →
      dstKept (frameInfo b).dst (s.chip.rd (0x5000 + p.val) 4) (s.chip.rdb (0x5000 + p.val) 0x0B 0) = false →
      ∃ d, Acts (.frameReceive p b ps false false x y) s d ∧
        d.rd (0x5020 + p.val) 0x0B = satAdd 32 (s.chip.rd (0x5020 + p.val) 0x0B) 1 ∧
        d.rd (0x5020 + p.val) 3 = satAdd 32 (s.chip.rd (0x5020 + p.val) 3) 1 ∧ d.ports = s.chip.ports) ∧
    (∀ k, fcsGood b = true → 64 ≤ b.length → b.length ≤ s.chip.rd (0x5000 + p.val) 5 →
      dstKept (frameInfo b).dst (s.chip.rd (0x5000 + p.val) 4) (s.chip.rdb (0x5000 + p.val) 0x0B 0) = true →
      classOf b (s.chip.rd 0x1100 3) = .ring k → k < 5 → s.chip.shedding = false → s.chip.rdb (0x5000 + p.val) 9 0 = false →
      s.chip.rdb (0x5000 + p.val) 9 1 = false → s.chip.ports.length = 8 → (s.chip.port p.val).rx.length = 5 →
      let body := if k = 4 ∧ s.chip.rdb (0x5000 + p.val) 9 3 = true then b else b.take (b.length - 4)
      let room : Bool := decide ((s.chip.rxRing p.val k).length < s.chip.rxSlots p.val k)
      ∃ d, Acts (.frameReceive p b ps false false x y) s d ∧
        (room = true → cellsOf body.length ≤ s.chip.credit p.val k → ∃ z, d.rxRing p.val k = s.chip.rxRing p.val k ++ [z] ∧
          z.bytes = body ∧ z.stamp = s.chip.rxStamp p.val ps false ∧ z.reserved + z.shared = cellsOf body.length) ∧
        (room = false → d.ports = s.chip.ports ∧ d.rd (0x5020 + p.val) 0x0C = satAdd 32 (s.chip.rd (0x5020 + p.val) 0x0C) 1) ∧
        (room = true → s.chip.credit p.val k = 0 → d.ports = s.chip.ports ∧
          d.rd (0x5020 + p.val) 0x0D = satAdd 32 (s.chip.rd (0x5020 + p.val) 0x0D) 1) ∧
        (room = true → 0 < s.chip.credit p.val k → s.chip.credit p.val k < cellsOf body.length → d.ports = s.chip.ports ∧
          d.rd (0x5020 + p.val) 0x0E = satAdd 32 (s.chip.rd (0x5020 + p.val) 0x0E) 1))) ∧
  ∀ (s : State) (q : Envelope) (p : Fin 8) (n : Option Nat) (e : Chip), s.chip.ReadTaken q (0x5130 + p.val) 1 n e →
    (∀ x t, e.rxRing p.val 4 = x :: t → e.ports.length = 8 → (e.port p.val).rx.length = 5 →
      ∃ d : Chip, Acts (.hostFrameRx q p) s (d.saidRead q n (e.readHead (0x5130 + p.val) 1) (rxDescBytes x ++ x.bytes)) ∧
        d.rxRing p.val 4 = t ∧ ∀ k, k ≠ 4 → d.rxRing p.val k = e.rxRing p.val k) ∧
    (e.rxRing p.val 4 = [] → ∃ d : Chip, Acts (.hostFrameRx q p) s
      (d.saidRead q n (e.readHead (0x5130 + p.val) 1) (List.replicate 32 0)) ∧ e.Frame d [] [])

/-- Transmission and flow control: a taken write of HOST_FRAME_TX whose descriptor is right queues its frame while a slot and its cells
are free; the MAC returns a bad descriptor with its status, and completes, stamps and sends a host frame that nothing holds and that is off
the wire before the next trick, its stamp joining the host queue if it was asked for and one is free, else counted as lost; the
pause timers' ends release; a ring still low repeats its PAUSE, and a generated frame is sent when it delays no trick and no
launch (07 R191, R192, 08 R216–R218, R222–R228). -/
def Obligations.FramesAreSent : Prop :=
  let sending (c : Chip) (p : Nat) : Prop := c.up p = true ∧ c.awake .port = true ∧ c.timingOnly = false ∧
    c.rdb (0x5010 + p) 1 7 = false ∧ (c.port p).wakeEnd ≤ c.time.mono ∧ (c.port p).ltu = [] ∧ (c.port p).open_ = none
  (∀ (s : State) (q : Envelope) (p : Fin 8) (b : List Nat) (n : Option Nat) (r : Row) (e : Chip) (y : TxDesc),
    s.chip.BytesTaken q (0x5138 + p.val) 1 b n r e → txDescOf b 2 = some y → e.ports.length = 8 → (e.port p.val).tx.length = 3 →
    (e.txRing p.val 2).length < e.txSlots p.val 2 → e.txHeld p.val 2 + cellsOf y.bytes.length ≤ e.txReserve p.val 2 →
    ∃ (d : Chip) (cells : List Nat), Acts (.hostFrameTx q p b) s (d.saidOk q n (0x5138 + p.val) 1) ∧
      d.txRing p.val 2 = e.txRing p.val 2 ++ [{ y with cells := cells }] ∧ e.Frame d [.ports, .free] []) ∧
  (∀ (s : State) (p : Fin 8) (ps : Nat) (x : TxDesc) (t : List TxDesc), s.chip.txRing p.val 2 = x :: t → x.launch = false →
    x.ring = 2 → x.trick = none → x.tebTx = 0 → s.chip.ports.length = 8 → (s.chip.port p.val).tx.length = 3 →
    (x.bad (s.chip.rd (0x5000 + p.val) 5) = true → s.chip.up p.val = true → s.chip.awake .port = true → ∀ cut,
      ∃ d, Acts (.frameTransmit p 2 ps cut) s d ∧ d.txRing p.val 2 = t ∧
        d.rd (0x5020 + p.val) 0x1A = satAdd 32 (s.chip.rd (0x5020 + p.val) 0x1A) 1 ∧ d.rd (0x5120 + p.val) 7 = 3 ∧
        d.rd (0x5120 + p.val) 8 = x.tsId ∧ (d.port p.val).wire = (s.chip.port p.val).wire) ∧
    (x.bad (s.chip.rd (0x5000 + p.val) 5) = false → sending s.chip p.val → (s.chip.port p.val).control = [] →
      s.chip.rdb (0x5010 + p.val) 1 2 = false → s.chip.rdb (0x5010 + p.val) 2 x.prio = false →
      (∀ n, s.chip.nextStart p.val = some n →
        s.chip.totalRat + s.chip.wireNs p.val (if x.fcsAppend then max 64 (x.bytes.length + 4) else x.bytes.length) ≤ (n : Rat)) →
      ∃ d, Acts (.frameTransmit p 2 ps none) s d ∧ d.txRing p.val 2 = t ∧
        (d.port p.val).wireStamp = s.chip.txStamp p.val ps x.tsId ∧
        (d.port p.val).wire = completeFrame x (d.port p.val).wireStamp (s.chip.rd (0x5000 + p.val) 0x0A == 1) ∧
        d.rd (0x5020 + p.val) 4 = satAdd 32 (s.chip.rd (0x5020 + p.val) 4) 1 ∧ d.rd (0x5120 + p.val) 7 = 0 ∧
        d.rd (0x5120 + p.val) 8 = x.tsId ∧
        (x.tsRequest = false → (d.port p.val).tsHost = (s.chip.port p.val).tsHost) ∧
        (x.tsRequest = true → (s.chip.port p.val).tsHost.length < s.chip.rd (0x5200 + p.val) 1 →
          (d.port p.val).tsHost = (s.chip.port p.val).tsHost ++ [s.chip.txStamp p.val ps x.tsId]) ∧
        (x.tsRequest = true → s.chip.rd (0x5200 + p.val) 1 ≤ (s.chip.port p.val).tsHost.length →
          (d.port p.val).tsHost = (s.chip.port p.val).tsHost ∧
          d.rd (0x5200 + p.val) 4 = satAdd 32 (s.chip.rd (0x5200 + p.val) 4) 1))) ∧
  (∀ (s : State) (p : Fin 8), (s.chip.port p.val).pauseEnd.isSome = true →
    ∃ d, Acts (.pauseTimerExpiry p) s d ∧ d.rdb (0x5010 + p.val) 1 2 = false ∧ (d.port p.val).pauseEnd = none ∧
      s.chip.Frame d [.ports] [(0x5010 + p.val, 1)]) ∧
  (∀ (s : State) (p k : Fin 8), (nth (s.chip.port p.val).pfcEnd k.val none).isSome = true →
    ∃ d, Acts (.pfcTimerExpiry p k) s d ∧ d.rdb (0x5010 + p.val) 2 k.val = false ∧ nth (d.port p.val).pfcEnd k.val none = none ∧
      s.chip.Frame d [.ports] [(0x5010 + p.val, 2)]) ∧
  (∀ (s : State) (p : Fin 8) (k : Nat), s.chip.up p.val = true → s.chip.rd (0x5000 + p.val) 7 = 1 → k < 5 →
    s.chip.xoffBit p.val k = true → bit 7 (s.chip.rxCfg p.val k) = true → s.chip.ports.length = 8 →
    ∃ d, Acts (.pauseRefresh p) s d ∧ (none, s.chip.rd (0x5000 + p.val) 0x13) ∈ (d.port p.val).control ∧
      s.chip.Frame d [.ports] []) ∧
  ∀ (s : State) (p : Fin 8) (f : Option Nat × Nat) (t : List (Option Nat × Nat)), (s.chip.port p.val).control = f :: t →
    sending s.chip p.val → s.chip.ports.length = 8 →
    (∀ n, s.chip.nextStart p.val = some n → s.chip.totalRat + s.chip.wireNs p.val 64 ≤ (n : Rat)) →
    ∃ d, Acts (.flowControlFrameSend p) s d ∧ (d.port p.val).control = t ∧
      (d.port p.val).wire.drop 12 = [0x88, 0x08] ++ (match f.1 with
        | none => [0, 1] ++ toBytes 2 f.2
        | some k => [1, 1] ++ toBytes 2 (2 ^ k) ++ (List.range 8).flatMap (fun i => toBytes 2 (if i = k then f.2 else 0))) ++
          ((d.port p.val).wire.drop 12).drop (match f.1 with | none => 6 | some _ => 22) ∧
      (d.port p.val).wire.take 12 = toBytes 6 0x0180C2000001 ++ toBytes 6 (s.chip.rd (0x5000 + p.val) 4) ∧
      (d.port p.val).wire.length = 64 ∧
      d.rd (0x5020 + p.val) (if f.1.isNone then 0x17 else 0x18) =
        satAdd 32 (s.chip.rd (0x5020 + p.val) (if f.1.isNone then 0x17 else 0x18)) 1

/-! ### Hands, tricks and doze (09) -/

/-- The deal (09 R234, R245–R249): the guard start closes the rings and discards engine stamps, and while an earlier deal is still
processed it is counted as delayed; the drain limit notes itself and the commits made before it, empties the SCHED rings and processes;
the deal instant begins the next hand at the boundary, ends a deal whose processing is over with its length as LAST_PROC_NS, and counts
an overrun when it is not; a deal that had nothing to close is the Steward's; and processing that ends after the instant ends its deal
with its lateness as LAST_LATE_NS, or the deal before the present one. -/
def Obligations.DealsGoThroughTheirSteps : Prop :=
  let kept (c : Chip) : Prop := ∀ x ∈ c.hand.rwd, isRwd x.1 = true
  (∀ s : State, s.chip.hand.stage = 0 → s.chip.dealIdle = false → s.chip.ports.length = 8 →
    ∃ d, Acts .dealClose s d ∧ d.hand.stage = 1 ∧
      ∀ p, p < s.chip.grade.ports → (d.port p).closed = true ∧ (d.port p).tsEngine = [] ∧ (d.port p).open_ = none) ∧
  (∀ s : State, s.chip.hand.stage = 3 → s.chip.hand.backlog = 0 → s.chip.dealIdle = false →
    ∃ d, Acts .dealClose s d ∧ d.hand.stage = 3 ∧ d.hand.backlog = 1 ∧
      d.rd 0x6001 7 = satAdd 32 (s.chip.rd 0x6001 7) 1) ∧
  (∀ s : State, s.chip.hand.stage = 1 → s.chip.ports.length = 8 →
    ∃ d, Acts .dealDiscard s d ∧ d.hand.stage = 2 ∧ (∀ p, p < s.chip.grade.ports → d.txRing p 0 = []) ∧
      d.hand.drained.map Drained.limit = s.chip.hand.drained.map Drained.limit ++
        [max s.chip.hand.late (s.chip.hand.ends - s.chip.rd 0x6000 2 + s.chip.rd 0x6000 3)]) ∧
  (∀ (s : State) (x : Drained) (t : List Drained), s.chip.hand.stage = 2 → s.chip.hand.drained = x :: t → kept s.chip →
    x.limit + s.chip.hand.proc ≤ s.chip.hand.ends → 0 < s.chip.rd 0x6000 1 →
    ∃ d, Acts .dealInstant s d ∧ d.hand.stage = 0 ∧ d.hand.deal = s.chip.hand.ends ∧
      d.hand.ends = s.chip.hand.ends + s.chip.rd 0x6000 1 ∧ d.rd 0x6001 1 = s.chip.hand.ends / s.chip.rd 0x6000 1 ∧
      d.rd 0x6001 3 = min (s.chip.hand.ends - x.limit) (2 ^ 32 - 1) ∧ d.hand.drained = t ∧ d.hand.stepOpen = true) ∧
  (∀ (s : State) (x : Drained) (t : List Drained), s.chip.hand.stage = 2 → s.chip.hand.drained = x :: t →
    s.chip.hand.ends < x.limit + s.chip.hand.proc → 0 < s.chip.rd 0x6000 1 →
    ∃ d, Acts .dealInstant s d ∧ d.hand.stage = 3 ∧ d.hand.deal = s.chip.hand.ends ∧
      d.rd 0x6001 1 = s.chip.hand.ends / s.chip.rd 0x6000 1 ∧ d.rd 0x6001 5 = satAdd 32 (s.chip.rd 0x6001 5) 1) ∧
  (∀ s : State, s.chip.hand.stage = 0 → 0 < s.chip.rd 0x6000 1 →
    ∃ d, Acts .dealInstant s d ∧ d.hand.stage = 0 ∧ d.hand.deal = s.chip.hand.ends ∧
      d.rd 0x6001 1 = s.chip.hand.ends / s.chip.rd 0x6000 1 ∧ d.rd 0x6001 0x0B = 0 ∧ d.hand.stepOpen = true) ∧
  (∀ s : State, s.chip.hand.stage = 3 → s.chip.hand.backlog = 0 → s.chip.hand.behind = 0 → kept s.chip →
    ∃ d, Acts .prefetchEnd s d ∧ d.hand.stage = 0 ∧ d.hand.stepOpen = true ∧
      d.rd 0x6001 6 = min (s.chip.totalNs - s.chip.hand.deal) (2 ^ 32 - 1)) ∧
  ∀ (s : State) (n : Nat), s.chip.hand.stage = 3 → s.chip.hand.behind = n + 1 → kept s.chip →
    ∃ d, Acts .prefetchEnd s d ∧ d.hand.stage = 3 ∧ d.hand.behind = n ∧ d.hand.stepOpen = true ∧
      d.rd 0x6001 6 = min (s.chip.totalNs - (s.chip.hand.deal - (n + 1) * s.chip.rd 0x6000 1)) (2 ^ 32 - 1)

/-- Trick plans and tricks (09 R236–R241): taken writes fill the idle bank from FIRST on, set its count, and make a swap pending or
cancel it; a trick is composed once, starts once, and at its end is counted as served when all its due frames were started. -/
def Obligations.TricksAreWrittenAndServed : Prop :=
  (∀ (s : State) (q : Envelope) (p : Fin 8) (b : List Nat) (n : Option Nat) (r : Row) (e : Chip),
    s.chip.BytesTaken q (0x6010 + p.val) 2 b n r e → e.ports.length = 8 → (e.port p.val).banks.length = 2 →
    ∃ d : Chip, Acts (.trickWrite q p b) s (d.saidOk q n (0x6010 + p.val) 2) ∧
      (∀ i, i < b.length / 16 →
        let v := Nat.land (beN b (16 * i) 16) 0xFFFFFFFFFFFFFFFF00FFC00000000000
        mget (e.rd (0x6010 + p.val) 1 + i) (d.bank p.val (1 - e.rd (0x6008 + p.val) 1)) = if v = 0 then none else some v) ∧
      (∀ j, j < e.rd (0x6010 + p.val) 1 ∨ e.rd (0x6010 + p.val) 1 + b.length / 16 ≤ j →
        mget j (d.bank p.val (1 - e.rd (0x6008 + p.val) 1)) = mget j (e.bank p.val (1 - e.rd (0x6008 + p.val) 1))) ∧
      (e.rd (0x6008 + p.val) 1 < 2 → d.bank p.val (e.rd (0x6008 + p.val) 1) = e.bank p.val (e.rd (0x6008 + p.val) 1)) ∧
      e.Frame d [.ports] []) ∧
  (∀ (s : State) (q : Envelope) (p : Fin 8) (v : Nat) (n : Option Nat) (r : Row) (e : Chip),
    s.chip.WriteTaken q (0x6008 + p.val) 3 v n r e →
    ∃ d : Chip, Acts (.idleCountWrite q p v) s (d.saidOk q n (0x6008 + p.val) 3) ∧ d.rd (0x6008 + p.val) 3 = v ∧
      e.Frame d [] [(0x6008 + p.val, 3)]) ∧
  (∀ (s : State) (q : Envelope) (p : Fin 8) (v : Nat) (n : Option Nat) (r : Row) (e : Chip),
    s.chip.WriteTaken q (0x6008 + p.val) 4 v n r e → e.ports.length = 8 →
    (v = 0 → ∃ d : Chip, Acts (.swapAtWrite q p v) s (d.saidOk q n (0x6008 + p.val) 4) ∧ d.rd (0x6008 + p.val) 4 = 0 ∧
      d.rd (0x6008 + p.val) 5 = 0 ∧ (d.port p.val).swapReady = false ∧
      e.Frame d [.ports] [(0x6008 + p.val, 4), (0x6008 + p.val, 5)]) ∧
    (e.planFault (e.idleList p.val) (e.rdStaged 0x6000 2) = none → e.rd 0x6001 1 + 2 ≤ v →
      ∃ d : Chip, Acts (.swapAtWrite q p v) s (d.saidOk q n (0x6008 + p.val) 4) ∧ d.rd (0x6008 + p.val) 4 = v ∧
        d.rd (0x6008 + p.val) 5 = 1 ∧ d.rd (0x6008 + p.val) 6 = 0xFFFF ∧ d.rd (0x6008 + p.val) 7 = 0 ∧
        e.Frame d [.ports] [(0x6008 + p.val, 4), (0x6008 + p.val, 5), (0x6008 + p.val, 6), (0x6008 + p.val, 7)])) ∧
  (∀ (s : State) (p : Fin 8) (late miss : Bool), (s.chip.port p.val).composed < s.chip.activeCount p.val →
    (s.chip.port p.val).closed = false → s.chip.portOn p.val = true → s.chip.ports.length = 8 →
    ∃ d, Acts (.trickCompose p late miss) s d ∧ (d.port p.val).composed = (s.chip.port p.val).composed + 1 ∧
      d.rd 0x6101 4 = satAdd 32 (s.chip.rd 0x6101 4) miss.toNat ∧
      (late = true → (d.port p.val).due = (s.chip.port p.val).due ++ [⟨(s.chip.port p.val).composed,
        s.chip.dueCount p.val (s.chip.trickAt p.val (s.chip.port p.val).composed), 0, 0, false⟩])) ∧
  (∀ (s : State) (p : Fin 8) (ps : Nat), (s.chip.port p.val).begun < s.chip.activeCount p.val → s.chip.portOn p.val = true →
    s.chip.hand.stage = 0 ∨ s.chip.hand.stage = 3 → s.chip.ports.length = 8 →
    ∃ d, Acts (.trickStart p ps) s d ∧ (d.port p.val).begun = (s.chip.port p.val).begun + 1 ∧
      ((d.port p.val).open_.map (fun (t : Trick) => t.idx)) = some (s.chip.port p.val).begun) ∧
  ∀ (s : State) (p : Fin 8) (t : Trick), (s.chip.port p.val).open_ = some t → t.due ≠ 0 → t.due ≤ t.started →
    s.chip.ports.length = 8 →
    ∃ d, Acts (.trickEnd p) s d ∧ (d.port p.val).open_ = none ∧
      d.rd (0x6020 + p.val) 1 = satAdd 32 (s.chip.rd (0x6020 + p.val) 1) 1 ∧
      d.rd (0x6020 + p.val) 2 = s.chip.rd (0x6020 + p.val) 2 ∧ d.rd (0x6020 + p.val) 3 = s.chip.rd (0x6020 + p.val) 3

/-- A domain without work and with its next need far enough dozes as deep as allowed; at that need less the wake time its wake is
asked for (09 R251). -/
def Obligations.DomainsDoze : Prop :=
  (∀ (s : State) (x : Dom), x = .enga ∨ x = .engb ∨ x = .fabric ∨ x = .port → s.chip.powerState = 0 →
    s.chip.power.moving = none → s.chip.awake x = true → s.chip.pendingWork x = false → s.chip.dozeKind x ≠ 0 →
    s.chip.power.doms.length = 9 →
    ∃ d, Acts (.dozeEntry x) s d ∧ d.dom x = (if s.chip.dozeKind x = 2 then .retained else .gated) ∧ d.dozing x = true ∧
      (∀ y, y ≠ x → d.dom y = s.chip.dom y) ∧ s.chip.Frame d [.power, .faults] []) ∧
  ∀ (s : State) (x : Dom), s.chip.dozing x = true → s.chip.grade.hasDom x = true → x ≠ .mast →
    (s.chip.nextNeed x).isSome = true →
    ∃ d, Acts (.dozeWakeRequest x) s d ∧ (∃ w ∈ d.power.wakes, w.dom = x) ∧ s.chip.Frame d [.power] []

/-! ### Sessions and the precision time service (10) -/

/-- Sessions (10 R257–R260, R264, R266, R270–R272, R275): HOST fills the window and COMMIT queues it; a SA ENTRY write waits for its
records; a Delay_Req of a session's peer becomes its pending request; a multicast one is answered as best-effort work, if there is
room; a request for a grant is granted and counted; a cancel ends the grants it names; and the end of the latest grant makes the
session EXPIRED, and releases it where the device created it. -/
def Obligations.SessionsAreServed : Prop :=
  (∀ (s : State) (q : Envelope) (b : List Nat) (n : Option Nat) (r : Row) (e : Chip), r.var = false →
    s.chip.BytesTaken q 0x6100 2 b n r e →
    ∃ d : Chip, Acts (.sessionHostWrite q b) s (d.saidOk q n 0x6100 2) ∧
      d.sess = { e.sess with window := setField 246 243 (beN b 0 32) 0 } ∧ e.Frame d [.sess] []) ∧
  (∀ (s : State) (q : Envelope) (n : Option Nat) (r : Row) (e : Chip), s.chip.WriteTaken q 0x6100 4 1 n r e →
    e.commitErr (e.rd 0x6100 1) e.sess.window = none →
    ∃ d : Chip, Acts (.sessionCommit q) s (d.saidOk q n 0x6100 4) ∧
      d.sess = { e.sess with commits := e.sess.commits ++ [⟨e.rd 0x6100 1, e.sess.window, false, 0⟩] } ∧ e.Frame d [.sess] []) ∧
  (∀ (s : State) (q : Envelope) (b : List Nat) (n : Option Nat) (r : Row) (e : Chip), r.var = false →
    s.chip.BytesTaken q 0x6280 2 b n r e →
    ∃ d, Acts (.saEntryWrite q b) s d ∧ d.sess = e.sess ∧ d.tpp = e.tpp ∧ ∃ j, d.sec.jobs = e.sec.jobs ++ [j] ∧
      j.ask = some (q, .write 0x6280 2 r.ty.code b) ∧ j.why = .sa (e.rd 0x6280 1) (toBytes 40 (beN b 0 40)) ∧ e.Frame d [.sec] []) ∧
  (∀ (s : State) (p : Fin 8) (f : RxDesc) (x : Session), s.chip.rxRing p.val 0 = [f] → f.want = some [useSession] →
    s.chip.sessionOf p.val (senderOf f.bytes) = some x → s.chip.sessionRuns x = true → msgType (ptpOf f.bytes) = tyDelayReq →
    s.chip.p2p (sInst x.host) = false →
    ∃ d, Acts (.ptpDelayReqReceive p) s d ∧ d.rxRing p.val 0 = [] ∧ dPending (d.session x.index).dev = true ∧
      dReqSeq (d.session x.index).dev = msgSeq (ptpOf f.bytes) % 65536 ∧
      field 95 64 (d.session x.index).dev = tsSec f.stamp % 2 ^ 32 ∧ (d.session x.index).host = x.host ∧
      d.rd (0x6230 + p.val) 8 = satAdd 32 (s.chip.rd (0x6230 + p.val) 8) (dPending x.dev).toNat) ∧
  (∀ (s : State) (p : Fin 8) (f : RxDesc) (x : Session), s.chip.shedding = false → s.chip.rxRing p.val 0 = [f] →
    f.want = some [useSession] → msgType (ptpOf f.bytes) = tyDelayReq → s.chip.reqSession p.val f = none →
    s.chip.groupSession p.val (targetOf f.bytes) = some x → dState x.dev = 2 → (sAuth x.host && s.chip.saErased (sSa x.host)) = false →
    s.chip.sessionRuns x = true → f.hand < s.chip.handNo → s.chip.ports.length = 8 → (s.chip.port p.val).tx.length = 3 →
    let m := ptpOf f.bytes
    let t : Int := tsUnits f.stamp
    let y := s.chip.ptpFrame p.val (sInst x.host) (sParty x.host) (s.chip.ptpFinish (sInst x.host)
      (if sAuth x.host then some (sSa x.host) else none) (tsTeb f.stamp) [] (s.chip.ptpHead p.val (sInst x.host) tyDelayResp (msgSeq m)
        0 (msgCorr m - t % 65536) (sLogDelay x.host) (timeBytes t ++ toBytes 10 (msgSource m)))) plainSend
    ((s.chip.txRing p.val 1).length < s.chip.txSlots p.val 1 →
      s.chip.txHeld p.val 1 + cellsOf y.bytes.length ≤ s.chip.txReserve p.val 1 →
      ∃ (d : Chip) (cells : List Nat), Acts (.multicastDelayResp p) s d ∧ d.rxRing p.val 0 = [] ∧
        d.txRing p.val 1 = s.chip.txRing p.val 1 ++ [{ y with cells := cells }]) ∧
    (s.chip.txSlots p.val 1 ≤ (s.chip.txRing p.val 1).length →
      ∃ d, Acts (.multicastDelayResp p) s d ∧ d.rxRing p.val 0 = [] ∧ d.txRing p.val 1 = s.chip.txRing p.val 1)) ∧
  (∀ (s : State) (p : Fin 8) (f : RxDesc) (x : Session) (g : GrantAsk) (b : Nat), s.chip.engineRuns = true → s.chip.shedding = false →
    s.chip.rxRing p.val 1 = [f] → f.want = some [useSession] → signalWith 4 f = true → grantAsks (ptpOf f.bytes) = [g] →
    s.chip.sessionOf p.val (senderOf f.bytes) = some x → sMode x.host ≠ 1 → dState x.dev ≠ 4 →
    s.chip.periodOk (sInst x.host) g.ty g.log = true → min g.secs (s.chip.rd (0x6210 + sInst x.host) 7) ≠ 0 → grantBit g.ty = some b →
    ∃ d, Acts (.requestUnicastTransmission p) s d ∧ d.rxRing p.val 1 = [] ∧
      d.rd (0x6108 + p.val) 4 = satAdd 32 (s.chip.rd (0x6108 + p.val) 4) 1 ∧
      d.rd (0x6108 + p.val) 5 = satAdd 32 (s.chip.rd (0x6108 + p.val) 5) 1 ∧ dGrantedBit (d.session x.index).dev b = true) ∧
  (∀ (s : State) (p : Fin 8) (f : RxDesc) (x : Session), s.chip.engineRuns = true → s.chip.shedding = false →
    s.chip.rxRing p.val 1 = [f] → f.want = some [useSession] → signalWith 6 f = true →
    s.chip.sessionOf p.val (senderOf f.bytes) = some x →
    ∃ d, Acts (.cancelUnicastTransmission p) s d ∧ d.rxRing p.val 1 = [] ∧
      d.rd (0x6108 + p.val) 9 = satAdd 32 (s.chip.rd (0x6108 + p.val) 9) 1 ∧
      ∀ t ∈ tlvs (ptpOf f.bytes), t.1 = 6 → ∀ b, grantBit (byteAt t.2.2 0 / 16) = some b →
        dGrantedBit (d.session x.index).dev b = false) ∧
  ∀ (s : State) (idx : Nat), sMode (s.chip.session idx).host = 2 ∨ sMode (s.chip.session idx).host = 3 →
    dGranted (s.chip.session idx).dev ≠ 0 →
    ∃ d, Acts (.grantExpiry idx) s d ∧ dState (d.session idx).dev = 3 ∧ dGranted (d.session idx).dev = 0 ∧
      d.rd (0x6108 + sPort (s.chip.session idx).host) 8 =
        satAdd 32 (s.chip.rd (0x6108 + sPort (s.chip.session idx).host) 8) 1 ∧
      d.sess.commits = s.chip.sess.commits ++ (if sMode (s.chip.session idx).host = 3 then
        [⟨idx, setField 255 254 (s.chip.session idx).host 0, true, 0⟩] else [])

/-- The servos (10 R277, R278): an Announce heard makes its sender a known master; Sync, Follow_Up and Delay_Resp of the selected
master are paired, and the last completes an exchange, whose path delay is half the sum of both ways; a Delay_Req is sent; grants are
asked for in one Signaling message to the master of the table, and noted; and a selected master that is not heard is given up. -/
def Obligations.ServosExchangeMessages : Prop :=
  let kept (c : Chip) : Prop := c.sess.servos.length = 4
  let room (c : Chip) (p : Nat) (y : TxDesc) : Prop := (c.txRing p 1).length < c.txSlots p 1 ∧
    c.txHeld p 1 + cellsOf y.bytes.length ≤ c.txReserve p 1 ∧ p < c.ports.length ∧ (c.port p).tx.length = 3
  (∀ (s : State) (k : Fin 4) (p : Nat) (f : RxDesc), kept s.chip →
    (s.chip.servoFind k.val 1 tyAnnounce (fun _ => true)).1 = some (p, f) →
    let m := ptpOf f.bytes
    be16 m 61 < 255 → msgSource m / 65536 ≠ s.chip.rd 0x6200 1 → s.chip.time.mono < s.chip.announceUntil k.val m →
    ∃ d, Acts (.ptpAnnounceReceive k) s d ∧ ∃ x ∈ (d.servo k.val).masters, x.portId = msgSource m ∧ x.port = p ∧
      x.class_ = byteAt m 48 ∧ x.steps = be16 m 61 ∧ x.until_ = s.chip.announceUntil k.val m) ∧
  (∀ (s : State) (k : Fin 4) (p : Nat) (f : RxDesc), kept s.chip → s.chip.cands.length = 28 →
    (s.chip.servoFind k.val 0 tySync (fun _ => true)).1 = some (p, f) → s.chip.fromMaster k.val p f = true →
    let m := ptpOf f.bytes
    ∃ d, Acts (.ptpSyncReceive k) s d ∧ (d.servo k.val).sync = some ⟨msgSeq m, (if msgTwoStep m then none else some (msgTime m 34)),
        (tsUnits f.stamp : Int) - msgCorr m, tsUnits f.stamp, false⟩ ∧ (d.cand (24 + k.val)).declared = s.chip.tebOf m) ∧
  (∀ (s : State) (k : Fin 4) (p : Nat) (f : RxDesc) (x : SyncRec), kept s.chip →
    (s.chip.servoFind k.val 1 tyFollowUp (fun _ => true)).1 = some (p, f) → s.chip.fromMaster k.val p f = true →
    (s.chip.servo k.val).sync = some x → x.seq = msgSeq (ptpOf f.bytes) → x.t1 = none →
    ∃ d, Acts (.ptpFollowUpReceive k) s d ∧ (d.servo k.val).sync =
      some { x with t1 := some (msgTime (ptpOf f.bytes) 34 + msgCorr (ptpOf f.bytes)) }) ∧
  (∀ (s : State) (k : Fin 4) (p : Nat) (f : RxDesc) (x : DelayRec) (t1 t3 : Int), kept s.chip →
    (s.chip.servoFind k.val 1 tyDelayResp (fun _ => true)).1 = some (p, f) → s.chip.fromMaster k.val p f = true →
    beN (ptpOf f.bytes) 44 10 = s.chip.portIdent p → (s.chip.servo k.val).delay = some x → x.seq = msgSeq (ptpOf f.bytes) →
    x.pair.t1 = some t1 → x.t3 = some t3 →
    let d21 : Rat := x.pair.t2 - t1
    let d43 : Rat := (msgTime (ptpOf f.bytes) 34 - msgCorr (ptpOf f.bytes) : Int) - t3
    ∃ d, Acts (.ptpDelayRespReceive k) s d ∧ (d.servo k.val).delay = none ∧
      d.rd (0x6228 + k.val) 8 = satAdd 32 (s.chip.rd (0x6228 + k.val) 8) 1 ∧
      d.rd (0x6228 + k.val) 5 = satInt 64 ((d21 + d43) / 2 * 1000 / 65536 + 1 / 2).floor ∧
      d.rd (0x6228 + k.val) 6 =
        satInt 64 ((d21 - d43) / 2 * 1000 / 65536 - s.chip.rdi (0x6220 + k.val) 7 32 + 1 / 2).floor ∧
      ((s.chip.servo k.val).sampled ≠ some s.chip.handNo →
        (d.servo k.val).out.map Estimate.onLo = some (x.onLo || x.pair.onLo))) ∧
  (∀ (s : State) (k : Fin 4) (x : Master) (z : SyncRec) (y : TxDesc), kept s.chip → s.chip.servoWorks k.val = true →
    s.chip.shedding = false → s.chip.delayDue k.val = true → s.chip.master k.val = some x → s.chip.servoTrick k.val x.port = false →
    (s.chip.servo k.val).sync = some z →
    let seq := ((s.chip.servo k.val).seq + 1) % 65536
    s.chip.servoFrame k.val x tyDelayReq seq (List.replicate 10 0) [] ⟨0, 0, true, seq, 1, none, false⟩ = some y →
    room s.chip x.port y →
    ∃ (d : Chip) (cells : List Nat), Acts (.servoDelayReq k) s d ∧ (d.servo k.val).seq = seq ∧
      (d.servo k.val).delay = some ⟨seq, none, z, none, false⟩ ∧
      d.txRing x.port 1 = s.chip.txRing x.port 1 ++ [{ y with cells := cells }]) ∧
  (∀ (s : State) (k : Fin 4) (id : Nat), kept s.chip → (s.chip.servo k.val).selected = some id →
    ∃ d, Acts (.announceReceiptTimeout k) s d ∧ (d.servo k.val).selected = none ∧ (∀ x ∈ (d.servo k.val).masters, x.portId ≠ id) ∧
      d.rd (0x6228 + k.val) 9 = satAdd 32 (s.chip.rd (0x6228 + k.val) 9) 1) ∧
  (∀ (s : State) (k : Fin 4) (p : Nat) (a : Party) (y : TxDesc), kept s.chip → s.chip.servoWorks k.val = true →
    s.chip.shedding = false → s.chip.servoOn k.val = true → s.chip.profileOf (s.chip.servoInst k.val) = 4 →
    s.chip.masterEntry k.val 0 = some (p, a) → (∀ i, 1 ≤ i → i < 4 → s.chip.masterEntry k.val i = none) →
    s.chip.servoListens k.val p = true →
    let seq := ((s.chip.servo k.val).seq + 1) % 65536
    let ask (ty sub : Nat) : List Nat :=
      [0, 4, 0, 6, ty * 16, s.chip.rd (0x6220 + k.val) sub] ++ toBytes 4 (s.chip.rd (0x6220 + k.val) 6)
    s.chip.servoFrame k.val ⟨0, p, 0, 0, 0, 0, 0, a.transport, a.mac, a.addr, a.vlan, 0⟩ tySignaling seq (toBytes 10 (2 ^ 80 - 1))
      (ask tyAnnounce 4 ++ ask tySync 4 ++ ask tyDelayResp 5) plainSend = some y →
    room s.chip p y →
    ∃ (d : Chip) (cells : List Nat), Acts (.servoGrantRenewal k) s d ∧ (d.servo k.val).seq = seq ∧
      d.txRing p 1 = s.chip.txRing p 1 ++ [{ y with cells := cells }]) ∧
  ∀ (s : State) (k : Fin 4) (p ty n : Nat) (f : RxDesc), kept s.chip → s.chip.shedding = false → s.chip.servoOn k.val = true →
    (s.chip.servoFind k.val 1 tySignaling (signalWith 5)).1 = some (p, f) →
    ((tlvs (ptpOf f.bytes)).filter (fun t => t.1 == 5 && t.2.1 == 8)).map (fun t => (byteAt t.2.2 0 / 16, beN t.2.2 2 4)) = [(ty, n)] →
    ∃ d, Acts (.servoGrantResponse k) s d ∧ (n ≠ 0 → (ty, n) ∈ (d.servo k.val).granted) ∧
      (n = 0 → d.rd (0x6228 + k.val) 0x0A = satAdd 32 (s.chip.rd (0x6228 + k.val) 0x0A) 1 ∧
        ∀ g ∈ (d.servo k.val).granted, g.1 ≠ ty)

/-- Peer delay, the transparent clock and ESMC (10 R278–R281): a one-step Pdelay_Resp completes its measurement; a one-step event
message goes out of the other TC port for its residence to be added, a two-step one is remembered and its follow-up carries that residence
and the peer delay, and held corrections older than a hand are dropped; a usable ESMC PDU sets its port's quality level, 5 s without one
sets QL-FAILED, and information and event PDUs are sent and counted. That a follow-up waits for the residence is the model's reading
(log 77). -/
def Obligations.NeighboursAreServed : Prop :=
  let tc (c : Chip) (p o : Fin 8) (i : Nat) (f : RxDesc) : Prop := c.shedding = false ∧ f.want = some [useForward] ∧
    c.instFor p.val (ptpOf f.bytes) = some i ∧ c.tcOnPort i p.val = true ∧ c.forwardRuns i = true ∧ c.tcOthers i p.val = [o.val] ∧
    c.up o.val = true ∧ (c.port o.val).tx.length = 3 ∧ c.ports.length = 8
  (∀ (s : State) (p : Fin 8) (x : Pdelay) (f : RxDesc) (t1 : Int), s.chip.engineRuns = true → (s.chip.port p.val).pdelay = some x →
    x.resp = none → x.t1 = some t1 → s.chip.rxRing p.val 0 = [f] → f.want = some [useSession] → msgSeq (ptpOf f.bytes) = x.seq →
    beN (ptpOf f.bytes) 44 10 = s.chip.portIdent p.val → msgType (ptpOf f.bytes) = tyPdelayResp → s.chip.ports.length = 8 →
    (msgTwoStep (ptpOf f.bytes) = false → ∃ d, Acts (.pdelayRespReceive p) s d ∧ (d.port p.val).pdelay = none ∧
      (d.port p.val).peerDelay = some ((((tsUnits f.stamp : Int) : Rat) - t1 - msgCorr (ptpOf f.bytes)) / 2) ∧
      (d.port p.val).peerLo = x.onLo) ∧
    (msgTwoStep (ptpOf f.bytes) = true → ∃ d, Acts (.pdelayRespReceive p) s d ∧ (d.port p.val).pdelay =
      some { x with resp := some (tsUnits f.stamp, msgTime (ptpOf f.bytes) 34 - msgCorr (ptpOf f.bytes)) })) ∧
  (∀ (s : State) (p o : Fin 8) (i : Nat) (f : RxDesc), tc s.chip p o i f → s.chip.rxRing p.val 0 = [f] →
    isEvent (msgType (ptpOf f.bytes)) = true →
    let peer : Int := if s.chip.p2p i = true ∧ msgType (ptpOf f.bytes) = tySync then
      ((s.chip.port p.val).peerDelay.getD 0).floor else 0
    let b := if peer = 0 then f.bytes else addCorr f.bytes peer
    let y := forwarded b (if msgTwoStep (ptpOf f.bytes) then 0 else 2) f.stamp (msgTwoStep (ptpOf f.bytes))
    (s.chip.txQueue o.val y).isSome = true →
    ∃ (d : Chip) (cells : List Nat), Acts (.tcForward p) s d ∧ d.rxRing p.val 0 = [] ∧
      d.txRing o.val 1 = s.chip.txRing o.val 1 ++ [{ y with cells := cells }] ∧
      d.sess.held = s.chip.sess.held ++ (if msgTwoStep (ptpOf f.bytes) then
        [⟨p.val, msgSource (ptpOf f.bytes), msgSeq (ptpOf f.bytes), [], s.chip.handNo⟩] else [])) ∧
  (∀ (s : State) (p o : Fin 8) (i r : Nat) (f : RxDesc) (h : Held), tc s.chip p o i f → s.chip.rxRing p.val 0 = [] →
    s.chip.rxRing p.val 1 = [f] → msgType (ptpOf f.bytes) = tyFollowUp → s.chip.residenceDue p.val i (ptpOf f.bytes) = false →
    s.chip.sess.held = [h] → h.port = p.val → h.source = msgSource (ptpOf f.bytes) → h.seq = msgSeq (ptpOf f.bytes) →
    h.residence = [(o.val, r)] →
    let y := forwarded (addCorr f.bytes r) 0 0 false
    (s.chip.txQueue o.val y).isSome = true →
    ∃ (d : Chip) (cells : List Nat), Acts (.tcForward p) s d ∧ d.rxRing p.val 1 = [] ∧
      d.txRing o.val 1 = s.chip.txRing o.val 1 ++ [{ y with cells := cells }] ∧ d.sess.held = []) ∧
  (∀ (s : State) (p : Fin 8), ∃ d, Acts (.tcFollowUpTimeout p) s d ∧
    (∀ h, h ∈ d.sess.held ↔ h ∈ s.chip.sess.held ∧ ¬ (h.port = p.val ∧ h.hand < s.chip.handNo)) ∧ s.chip.Frame d [.sess] []) ∧
  (∀ (s : State) (p : Fin 8) (f : RxDesc) (t : List RxDesc), s.chip.lastRuns = true → s.chip.rxRing p.val 2 = f :: t →
    s.chip.ports.length = 8 → s.chip.cands.length = 28 →
    (∀ ssm ext, esmcCodes (esmcPayload f.bytes) (s.chip.rdb 0x6300 2 0) = some (ssm, ext) →
      ∃ d, Acts (.esmcPduReceive p) s d ∧ d.rxRing p.val 2 = t ∧
        d.rd (0x6308 + p.val) 4 = satAdd 32 (s.chip.rd (0x6308 + p.val) 4) 1 ∧ (d.cand (16 + p.val)).ql =
          some (ssmRank (s.chip.rd 0x6300 1 == 2) ssm (ext.getD 0xFF), (ext.getD 0xFF) * 256 + ssm)) ∧
    (esmcCodes (esmcPayload f.bytes) (s.chip.rdb 0x6300 2 0) = none → ∃ d, Acts (.esmcPduReceive p) s d ∧ d.rxRing p.val 2 = t ∧
        d.rd (0x6230 + p.val) 0x0B = satAdd 32 (s.chip.rd (0x6230 + p.val) 0x0B) 1 ∧ d.cands = s.chip.cands)) ∧
  (∀ (s : State) (p : Fin 8), (s.chip.cand (16 + p.val)).ql ≠ some (15, 0xFF00) → s.chip.cands.length = 28 →
    ∃ d, Acts (.esmcQlTimeout p) s d ∧ (d.cand (16 + p.val)).ql = some (15, 0xFF00) ∧
      d.rd (0x6308 + p.val) 5 = satAdd 32 (s.chip.rd (0x6308 + p.val) 5) 1 ∧ s.chip.Frame d [.cands] [(0x6308 + p.val, 5)]) ∧
  ∀ (s : State) (p : Fin 8) (event : Bool), s.chip.lastRuns = true → s.chip.rdb (0x6308 + p.val) 1 0 = true →
    s.chip.up p.val = true → s.chip.ports.length = 8 → (s.chip.port p.val).tx.length = 3 →
    ((s.chip.port p.val).esmcSent.filter (fun t => s.chip.time.mono < t + nsUnit * 1000000000)).length < 10 →
    (event = true → (s.chip.port p.val).esmcChanged = true ∧ s.chip.shedding = false) →
    let y : TxDesc := ⟨s.chip.esmcFrame p.val event, 128, 0, 0, 0, 0, 0, 0, 0, 0, none, 1, 0, []⟩
    (s.chip.txQueue p.val y).isSome = true →
    ∃ (d : Chip) (cells : List Nat), (if event then Acts (.esmcEventPdu p) s d else Acts (.esmcInformationPdu p) s d) ∧
      d.txRing p.val 1 = s.chip.txRing p.val 1 ++ [{ y with cells := cells }] ∧
      d.rd (0x6308 + p.val) 3 = satAdd 32 (s.chip.rd (0x6308 + p.val) 3) 1 ∧
      d.rd (0x6308 + p.val) 2 = (s.chip.qlSent p.val).2 * 256 + (s.chip.qlSent p.val).1 ∧ (d.port p.val).esmcChanged = false

/-! ### NV array, parameter store and Scorecard (11) -/

/-- An NV program that verifies leaves its bytes in the array and every other byte as it was; one that does not is tried again, at
most three times, and is then given up and counted; a weak page is programmed again with its own content, behind what waits if a
program runs, and a sound one is a pass of the self-test (11 R284, R286). -/
def Obligations.NvProgramsEnd : Prop :=
  (∀ (s : State) (p : NvProg), s.chip.nv.prog = some p → ∃ d, Acts (.nvProgramComplete true) s d ∧
    (∀ a, (∀ b ∈ p.bytes, p.page * 256 + b.1 ≠ a) → d.nvByte a = s.chip.nvByte a) ∧
    ((p.bytes.map (·.1)).Nodup → ∀ b ∈ p.bytes, d.nvByte (p.page * 256 + b.1) = b.2 % 256)) ∧
  (∀ (s : State) (p : NvProg), s.chip.nv.prog = some p → p.attempt < 3 → ∃ d, Acts (.nvProgramComplete false) s d ∧
    d.nv.prog = some { p with attempt := p.attempt + 1 } ∧ d.rd 0x8000 3 = satAdd 32 (s.chip.rd 0x8000 3) 1 ∧
    d.nv.cells = s.chip.nv.cells ∧ s.chip.Frame d [.nv] [(0x8000, 3)]) ∧
  (∀ (s : State) (p : NvProg), s.chip.nv.prog = some p → 3 ≤ p.attempt → ∃ d, Acts (.nvProgramComplete false) s d ∧
    d.rd 0x8000 4 = satAdd 32 (s.chip.rd 0x8000 4) 1 ∧
    ∀ a, (∀ b ∈ p.bytes, p.page * 256 + b.1 ≠ a) → d.nvByte a = s.chip.nvByte a) ∧
  (∀ (s : State) (page : Fin 4096), s.chip.nv.prog = none → s.chip.nv.flushing = false → s.chip.nv.sealCards = [] →
    s.chip.nv.cards = [] → s.chip.nv.queue = [] → s.chip.nv.weak = [] →
    ∃ d, Acts (.nvRefreshRead page true) s d ∧
      d.nv.prog = some ⟨page.val, (List.range 256).zip (s.chip.nvBytes (page.val * 256) 256), 1, .refresh⟩ ∧
      d.rd 0x8000 5 = satAdd 32 (s.chip.rd 0x8000 5) 1 ∧ d.nv.cells = s.chip.nv.cells) ∧
  (∀ (s : State) (page : Fin 4096), s.chip.nv.prog.isSome = true → page.val ∉ s.chip.nv.weak →
    ∃ d, Acts (.nvRefreshRead page true) s d ∧ d.nv.weak = s.chip.nv.weak ++ [page.val] ∧ d.nv.prog = s.chip.nv.prog ∧
      d.rd 0x8000 5 = satAdd 32 (s.chip.rd 0x8000 5) 1 ∧ d.nv.cells = s.chip.nv.cells) ∧
  ∀ (s : State) (page : Fin 4096), ∃ d, Acts (.nvRefreshRead page false) s d ∧
    d.rd 0xD001 5 = satAdd 32 (s.chip.rd 0xD001 5) 1 ∧ s.chip.Frame d [] [(0xD001, 5)]

/-- The parameter store's write starts into the slot not in use with the next SEQ when a value waits, and at once by SAVE; queued
cards go into the page of the write pointer; a minute's card follows the cards that wait; a seal is written signed, or unsigned
when no signature comes; ACK_SEQ takes its value; and a read of CARDS answers the bytes of cards (11 R290, R291, R294, R298,
R302–R304, R306). -/
def Obligations.RecordsAndCardsAreWritten : Prop :=
  let next (c : Chip) : Nat × Nat :=
    match (c.twoSlot (storeSlot 0) (storeSlot 1) 0x5053 32768).1 with
    | some (slot, seq, _) => (1 - slot, (seq + 1) % 2 ^ 32)
    | none => (0, 1)
  (∀ s : State, s.chip.rdb 0x8010 3 0 = true → s.chip.nv.storing = none → s.chip.nv.flushing = false →
    s.chip.start.storeOff = false → ∃ d, Acts .storeWriteStart s d ∧ d.nv.storing = some (next s.chip) ∧
      d.nv.lastStoreStart = some s.chip.time.mono ∧ d.nv.prog.isSome = true ∧ d.nv.cells = s.chip.nv.cells) ∧
  (∀ (s : State) (q : Envelope) (n : Option Nat) (r : Row) (e : Chip), s.chip.WriteTaken q 0x8010 4 1 n r e →
    ∃ d : Chip, Acts (.save q) s (d.saidOk q n 0x8010 4) ∧ d.start.storeOff = false ∧ d.nv.cells = e.nv.cells ∧
      (e.nv.flushing = true → d.nv.saveAgain = true ∧ d.nv.storing = e.nv.storing) ∧
      (e.nv.flushing = false → e.nv.storing = none → d.nv.storing = some (next e) ∧ d.nv.storedAfter = false ∧
        d.nv.lastStoreStart = some e.time.mono) ∧
      (e.nv.flushing = false → e.nv.storing.isSome = true → d.nv.storing = e.nv.storing ∧
        d.nv.saveAgain = (e.nv.saveAgain || e.nv.storedAfter))) ∧
  (∀ s : State, s.chip.nv.prog = none → s.chip.nv.flushing = false → s.chip.nv.sealCards = [] → s.chip.nv.sealing = false →
    s.chip.nv.cards ≠ [] → s.chip.nv.scanned = true → s.chip.overwritten = [] → ∃ d b, Acts .cardWrite s d ∧
      d.nv.batch = some b ∧ b.cards = s.chip.nv.cards.take (min (8 - s.chip.nv.slot % 8) (max 1 (64 - s.chip.rd 0x8100 6))) ∧ b.slot = s.chip.nv.slot ∧
      b.seq = s.chip.nv.seq ∧ d.nv.cards = s.chip.nv.cards.drop b.cards.length ∧
      d.nv.seq = (s.chip.nv.seq + b.cards.length) % 2 ^ 32 ∧ d.nv.prog.map (fun p => p.why) = some .cardBody) ∧
  (∀ s : State, s.chip.nv.minute.suppressed = 0 → s.chip.nv.ended = none →
    let body := minuteBody s.chip.nv.minute s.chip.nv.minute.events (if s.chip.selPhase 0 < 28 then s.chip.selPhase 0 else 31)
      ((s.chip.time.seconds + 60 * 2 ^ 48 - 60) / 60)
    ∃ d, Acts .minuteClose s d ∧ d.nv.cards = s.chip.nv.cards ++ [⟨1, body⟩] ∧ d.rd 0x3030 0x0A = field 57 40 body ∧ d.nv.minute.events = 0 ∧
    d.nv.minute.worst = s.chip.bound ∧ s.chip.Frame d [.nv] [(0x3030, 0x0A)]) ∧
  (∀ (s : State) (h : List Nat) (key : Nat), s.chip.nv.sealing = true → s.chip.nv.head = some h → s.chip.sec.identity = some key →
    ∃ d, Acts .sealSignatureComplete s d ∧ d.nv.sealing = false ∧ d.nv.sealCards = sealTriple 0 (s.chip.rd 0xB001 1)
        (toBytes 64 (Config.ecdsaSign key (sealMessage s.chip.nv.seq (ofBytes ((h.drop 1).take 4)) h))) ∧
      s.chip.Frame d [.nv] []) ∧
  (∀ s : State, s.chip.nv.sealing = true → ∃ d, Acts .signTimeout s d ∧ d.nv.sealing = false ∧
    d.nv.sealCards = sealTriple 4 0 (List.replicate 64 0)) ∧
  (∀ (s : State) (q : Envelope) (seq : Nat) (n : Option Nat) (r : Row) (e : Chip), s.chip.WriteTaken q 0x8102 1 seq n r e →
    ∃ d : Chip, Acts (.ackSeqWrite q seq) s (d.saidOk q n 0x8102 1) ∧ d.rd 0x8102 1 = seq ∧
      d.rd 0x8100 4 = (e.nv.ring.filter (fun k => newer k.2.1 seq)).length ∧ d.nv.ring = e.nv.ring ∧ d.nv.cells = e.nv.cells) ∧
  (∀ (s : State) (q : Envelope) (n : Option Nat) (d : Chip), s.chip.ReadTaken q 0x8101 3 n d →
    Acts (.cardRead q) s (d.saidRead q n (d.readHead 0x8101 3)
      (((d.nv.ring.filter (fun k => !newer (d.rd 0x8101 1) k.2.1)).take (d.rd 0x8101 2)).flatMap
        (fun k => d.nvBytes (ringBase + 32 * k.1) 32)))) ∧
  ∀ (s : State) (m : Minute) (cand : Nat), s.chip.nv.ended = some (m, cand) → m.suppressed = 0 → ∃ d, Acts .minuteClose s d ∧
    d.nv.cards = s.chip.nv.cards ++
      [⟨1, minuteBody m s.chip.nv.minute.events cand ((s.chip.time.seconds + 60 * 2 ^ 48 - 60) / 60)⟩] ∧
    d.nv.ended = none ∧ d.nv.minute = { s.chip.nv.minute with events := 0 }

/-! ### Requests over TPP (12) -/

/-- A served request is executed and answered. The device on which a write acts is the one the request found, but for what service
itself changes: the transport, the ports' rings, the request counters and the peers' sequence numbers; for a plain request over
QSPI, its counter alone. A read answers with its value, or with the code of the first check that fails; a write of a plain value stores
it, at once or staged as its access kind says; a MULTI_READ answers its items; a segmented read or write opens, goes on by its segments
and ends with the last; and an ABORT by its requester closes its transfer (12 R311, R312, R314, R315, R317–R319, R322). -/
def Obligations.RequestsAreExecuted : Prop :=
  (∀ (s : State) (q : Envelope) (idx sub : Nat) (data : List Nat) (n : Option Nat) (r : Row) (e : Chip),
    s.chip.BytesTaken q idx sub data n r e →
    (∀ p, p ≠ .tpp → p ≠ .ports → Part.same p s.chip e) ∧ e.grade = s.chip.grade ∧
    (∀ i j, j < 256 → i ≠ 0x1101 → ¬ (0x1110 ≤ i ∧ i < 0x1130) → ¬ (0x5000 ≤ i ∧ i < 0x5200) → e.rd i j = s.chip.rd i j) ∧
    (q.src = .qspi → q.auth = none → n = none ∧ s.chip.Frame e [] [(0x1101, 1)] ∧
      e.rd 0x1101 1 = satAdd 32 (s.chip.rd 0x1101 1) 1)) ∧
  (∀ (s : State) (q : Envelope) (idx sub : Nat) (n : Option Nat) (d : Chip), s.chip.ReadTaken q idx sub n d →
    Acts (.read q idx sub) s ((d.readNow idx sub).2.saidRead q n (d.readHead idx sub) (d.readNow idx sub).1)) ∧
  (∀ (s : State) (q : Envelope) (idx sub code : Nat) (n : Option Nat) (a : Asker) (d : Chip),
    s.chip.Served q (.read idx sub) n a d → d.readRefusal a idx sub true = some code →
    Acts (.read q idx sub) s (d.respondKeep q n 0x8F (toBytes 2 idx ++ [sub, 0] ++ toBytes 4 code ++ toBytes 4 0))) ∧
  (∀ (s : State) (q : Envelope) (idx sub : Nat) (data : List Nat) (n : Option Nat) (r : Row) (d e : Chip), idx ≠ 0x8020 →
    s.chip.BytesTaken q idx sub data n r d → (∀ x, d.putValue x r idx sub data = .done e) →
    Acts (.write q idx sub r.ty.code data) s (e.saidOk q n idx sub)) ∧
  (∀ (s : State) (q : Envelope) (idx sub v : Nat) (n : Option Nat) (r : Row) (e : Chip), s.chip.WriteTaken q idx sub v n r e →
    1 ≤ sub → ¬ (0x6008 ≤ idx ∧ idx < 0x6010) → idx ≠ 0x6100 → idx ≠ 0xB100 → idx ≠ 0x1030 → idx ≠ 0x8020 →
    secDefers idx sub v = false → e.putOwn idx sub v = none →
    (r.acc = .rw ∨ r.acc = .rws → ∃ d : Chip, Acts (.write q idx sub r.ty.code (r.encode v)) s (d.saidOk q n idx sub) ∧
      d.rd idx sub = v ∧ e.Frame d [.nv] [(idx, sub), (0x8010, 3)]) ∧
    (r.acc = .rwd ∨ r.acc = .rwn → v ≠ e.rd idx sub → ∃ d : Chip,
      Acts (.write q idx sub r.ty.code (r.encode v)) s (d.saidOk q n idx sub) ∧ mget (okey idx sub) d.staged = some v ∧
      (∀ k, k ≠ okey idx sub → mget k d.staged = mget k e.staged) ∧ e.Frame d [.staged, .nv] [(0x8010, 3)])) ∧
  (∀ (s : State) (q : Envelope) (idx sub ty code : Nat) (data : List Nat) (n : Option Nat) (a : Asker) (d : Chip), idx ≠ 0x8020 →
    s.chip.Served q (.write idx sub ty data) n a d → d.writeForm a idx sub ty data true = .error code →
    Acts (.write q idx sub ty data) s (d.respondKeep q n 0x8F (toBytes 2 idx ++ [sub, 0] ++ toBytes 4 code ++ toBytes 4 0))) ∧
  (∀ (s : State) (q : Envelope) (l : List (Nat × Nat)) (n : Option Nat) (a : Asker) (d : Chip),
    s.chip.Served q (.multiRead l) n a d →
    8 + (if q.auth.isSome then 24 else 0) + 2 + (d.readItems a l).1.length ≤ 1400 →
    Acts (.multiRead q l) s ((d.readItems a l).2.respondKeep q n 0x83 ([l.length, 0] ++ (d.readItems a l).1))) ∧
  (∀ (s : State) (q : Envelope) (idx sub : Nat) (n : Option Nat) (a : Asker) (d : Chip),
    s.chip.Served q (.segReadInit idx sub) n a d → d.readRefusal a idx sub false = none → d.transfersFull (askedOf q) = false →
    ∃ (x : Chip) (t : Transfer), Acts (.segReadInit q idx sub) s
        (x.respondKeep q n 0x84 (toBytes 2 idx ++ [sub, t.token] ++ toBytes 4 t.data.length)) ∧
      x.tpp.transfers = (d.readNow idx sub).2.tpp.transfers ++ [t] ∧ t.who = askedOf q ∧ t.write = false ∧ t.next = 0 ∧
      t.data = (d.readNow idx sub).1) ∧
  (∀ (s : State) (q : Envelope) (token seg m : Nat) (n : Option Nat) (a : Asker) (d : Chip) (t : Transfer),
    s.chip.Served q (.segReadNext token seg m) n a d → d.transferOf (askedOf q) token false = some t → t.next = seg →
    let a := t.lastFrom + t.lastLen
    let k := min (min m 1024) (t.data.length - a)
    let last := decide (t.data.length ≤ a + k)
    ∃ x : Chip, Acts (.segReadNext q token seg m) s (x.respondKeep q n 0x85
        ([token, last.toNat * 128] ++ toBytes 2 seg ++ toBytes 2 k ++ (t.data.drop a).take k)) ∧
      (last = true → ∀ u ∈ x.tpp.transfers, u.token ≠ token) ∧
      (last = false → { t with next := seg + 1, lastFrom := a, lastLen := k } ∈ x.tpp.transfers)) ∧
  (∀ (s : State) (q : Envelope) (idx sub ty total : Nat) (n : Option Nat) (a : Asker) (d : Chip) (r : Row),
    s.chip.Served q (.segWriteInit idx sub ty total) n a d → d.grade.rule idx sub = some r → r.acc ≠ .const → r.acc ≠ .ro →
    d.writeRole a idx sub 0 r ≤ d.effRole a.role → d.outOfPower idx sub r true = false → total ≤ 1048576 →
    (r.var = true → total ≤ r.len) → (r.var = false → total = r.bytes) → d.transfersFull (askedOf q) = false →
    ∃ (x : Chip) (t : Transfer), Acts (.segWriteInit q idx sub ty total) s (x.respondKeep q n 0x86 (toBytes 2 idx ++ [sub, t.token])) ∧
      x.tpp.transfers = d.tpp.transfers ++ [t] ∧ t.who = askedOf q ∧ t.write = true ∧ t.next = 0 ∧ t.data = [] ∧ t.total = total) ∧
  (∀ (s : State) (q : Envelope) (token seg : Nat) (data : List Nat) (n : Option Nat) (a : Asker) (d : Chip) (t : Transfer),
    s.chip.Served q (.segWriteNext token false seg data) n a d → d.transferOf (askedOf q) token true = some t → t.next = seg →
    data.length ≤ 1024 → t.data.length + data.length ≤ t.total →
    Acts (.segWriteNext q token false seg data) s ((d.transferPut { t with data := t.data ++ data, next := seg + 1 }).respondKeep
      q n 0x87 ([token, 0] ++ toBytes 2 seg))) ∧
  (∀ (s : State) (q : Envelope) (token seg : Nat) (data : List Nat) (n : Option Nat) (a : Asker) (d e : Chip) (t : Transfer),
    s.chip.Served q (.segWriteNext token true seg data) n a d → d.transferOf (askedOf q) token true = some t → t.next = seg →
    data.length ≤ 1024 → t.data.length + data.length = t.total →
    (∀ x, (d.transferClose token).writeAny a x t.idx t.sub t.ty (t.data ++ data) false = .done e) →
    Acts (.segWriteNext q token true seg data) s (e.respondKeep q n 0x87 ([token, 0] ++ toBytes 2 seg))) ∧
  ∀ (s : State) (q : Envelope) (idx sub token info : Nat) (n : Option Nat) (a : Asker) (d : Chip) (t : Transfer),
    s.chip.Served q (.abort idx sub token 0x06050007 info) n a d → t ∈ d.tpp.transfers → t.token = token → t.who = askedOf q →
    Acts (.abort q idx sub token 0x06050007 info) s ((d.transferClose token).respondKeep q n 0x8F
      (toBytes 2 idx ++ [sub, token] ++ toBytes 4 0x06050007 ++ toBytes 4 info)) ∧
    ∀ u ∈ (d.transferClose token).tpp.transfers, u.token ≠ token

/-- A transfer without a request for 2 s closes, its loss counted where a destructive read was not returned whole; a write of 0 to
:00 of a counter object clears its counters; a read of a TIA result answers it and clears VALID and OVERWRITTEN; a read of CAPTURE_HEAD answers and removes the
oldest capture, or answers zeros; and the QSPI
port takes, drops and drives its PDUs and its status byte as its state says (03 R87, R88, 08 R232, 12 R308, R319, R320, R332, R333). -/
def Obligations.TransfersAndQspiPort : Prop :=
  (∀ (s : State) (token : Nat), ∃ d, Acts (.transferTimeout token) s d ∧
    (∀ t, t ∈ d.tpp.transfers ↔ t ∈ s.chip.tpp.transfers ∧ t.token ≠ token) ∧
    d.rd 0x1101 7 = (if s.chip.tpp.transfers.any (fun t => t.token == token && t.loses) then satAdd 32 (s.chip.rd 0x1101 7) 1
      else s.chip.rd 0x1101 7) ∧ s.chip.Frame d [.tpp] [(0x1101, 7)]) ∧
  (∀ (s : State) (q : Envelope) (idx : Nat) (n : Option Nat) (r : Row) (e : Chip), s.chip.WriteTaken q idx 0 0 n r e →
    ∃ d : Chip, Acts (.countersClear q idx) s (d.saidOk q n idx 0) ∧
      (∀ sub, sub < 256 → ¬ (0x6020 ≤ idx ∧ idx < 0x6028 ∧ sub = 0x20) → d.rd idx sub = dfltOf idx sub) ∧
      (∀ i sub, sub < 256 → i ≠ idx → d.rd i sub = e.rd i sub) ∧ ∀ p : Part, p.same e d) ∧
  (∀ (s : State) (q : Envelope) (a : Fin 2) (n : Option Nat) (d : Chip), s.chip.ReadTaken q (0x2168 + a.val) 2 n d →
    ∃ x : Chip, Acts (.tiaResultRead q a) s (x.saidRead q n (d.readHead (0x2168 + a.val) 2) (toBytes 8 (d.rd (0x2168 + a.val) 2))) ∧
      x.rdb (0x2168 + a.val) 1 7 = false ∧ x.rdb (0x2168 + a.val) 1 3 = false ∧ d.Frame x [] [(0x2168 + a.val, 1)]) ∧
  (∀ (s : State) (q : Envelope) (n : Option Nat) (d : Chip), s.chip.ReadTaken q 0x2171 1 n d →
    (d.tdc.fifo = [] → Acts (.captureHeadRead q) s (d.saidRead q n (d.readHead 0x2171 1) (List.replicate 16 0))) ∧
    ∀ (t : Nat) (l : List Nat), d.tdc.fifo = t :: l → ∃ x : Chip, Acts (.captureHeadRead q) s
      (x.saidRead q n (d.readHead 0x2171 1) (toBytes 16 t)) ∧ x.tdc.fifo = l ∧ d.Frame x [.tdc] []) ∧
  (∀ (s : State) (b : List Nat), s.chip.qspiUp = true → s.chip.tpp.ready = true → s.chip.tpp.inbox.length < 4 → b.length ≤ 1400 →
    ∃ d, Acts (.writePdu b.length b false) s d ∧ d.tpp.inbox = s.chip.tpp.inbox ++ [b] ∧ d.tpp.overrun = s.chip.tpp.overrun ∧
      s.chip.Frame d [.tpp] []) ∧
  (∀ (s : State) (b : List Nat), s.chip.qspiUp = true → s.chip.tpp.ready = false ∨ 4 ≤ s.chip.tpp.inbox.length →
    ∃ d, Acts (.writePdu b.length b false) s d ∧ d.tpp.inbox = s.chip.tpp.inbox ∧ d.tpp.overrun = true ∧
      d.rd 0x1101 8 = satAdd 32 (s.chip.rd 0x1101 8) 1 ∧ s.chip.Frame d [.tpp] [(0x1101, 8)]) ∧
  (∀ (s : State) (len : Nat) (b : List Nat) (mid : Bool), s.chip.qspiUp = true → mid = true ∨ len ≠ b.length →
    ∃ d, Acts (.writePdu len b mid) s d ∧ d.tpp.inbox = s.chip.tpp.inbox ∧ d.tpp.framing = true ∧
      d.rd 0x1101 8 = satAdd 32 (s.chip.rd 0x1101 8) 1 ∧ s.chip.Frame d [.tpp] [(0x1101, 8)]) ∧
  (∀ (s : State) (b : List Nat) (t : List (List Nat)), s.chip.qspiUp = true → s.chip.tpp.outbox = b :: t →
    (∃ d, Acts (.readPdu false) s d ∧ d.tpp.hostOut = toBytes 2 b.length ++ b ∧ d.tpp.outbox = b :: t ∧ s.chip.Frame d [.tpp] []) ∧
    (s.chip.tpp.waiting = none → ∃ d, Acts (.readPdu true) s d ∧ d.tpp.hostOut = toBytes 2 b.length ++ b ∧ d.tpp.outbox = t ∧
      s.chip.Frame d [.tpp] [])) ∧
  (∀ s : State, s.chip.qspiUp = true → s.chip.tpp.outbox = [] → ∃ d, Acts (.readPdu true) s d ∧ d.tpp.hostOut = [0, 0] ∧
    s.chip.Frame d [.tpp] []) ∧
  (∀ s : State, s.chip.qspiUp = true → ∃ d v, Acts .readStatus s d ∧ d.tpp.hostOut = [v] ∧ s.chip.Frame d [.tpp] [] ∧
    bit 7 v = !s.chip.tpp.outbox.isEmpty ∧ bit 6 v = decide (4 ≤ s.chip.tpp.inbox.length) ∧ bit 5 v = s.chip.tpp.overrun ∧
    bit 4 v = s.chip.tpp.framing ∧ bit 3 v = s.chip.faultIrq ∧ bit 0 v = s.chip.tpp.ready) ∧
  ∀ (s : State) (m : Nat), s.chip.qspiUp = true → ∃ d, Acts (.clearStatus [m] false) s d ∧
    d.tpp.overrun = (s.chip.tpp.overrun && !bit 5 m) ∧ d.tpp.framing = (s.chip.tpp.framing && !bit 4 m) ∧
    d.tpp.inbox = s.chip.tpp.inbox ∧ d.tpp.outbox = s.chip.tpp.outbox ∧ s.chip.Frame d [.tpp] []

/-! ### Peers, lifecycle, keys, TAMPER (12, 15) -/

/-- A taken write of a peer entry, a key or ROTATE asks for its records, and its effect comes when they have committed: a peer's KEY,
where no TAMPER erasure is due, restarts its sequence numbers, a key shows its fingerprint, a new identity key its number, a lifecycle
change its state, and RETIRED erases every key; a crossed multiple of 65,536 has its floor recorded; and a taken lifecycle request, of a
transition that exists, ends a debug session and asks for the lifecycle record (12 R325, R328, 15 R379, R380, R382–R384). -/
def Obligations.SecurityChangesAreRecorded : Prop :=
  let asked (e d : Chip) (t : Nat) : Prop := d.sec.changing = some t ∧ d.rd 0xB100 1 = 0 ∧
    d.sec.jobs.getLast? = some ⟨.change t, [.lifecycle], none⟩ ∧ d.rd 0xB000 1 = e.rd 0xB000 1 ∧
    (e.rd 0xB100 1 = 0 → d.sec = { e.sec with changing := some t, jobs := e.sec.jobs ++ [⟨.change t, [.lifecycle], none⟩] } ∧
      e.Frame d [.sec] [])
  (∀ (s : State) (q : Envelope) (m : Fin 32) (sub v : Nat) (n : Option Nat) (r : Row) (e : Chip), 1 ≤ sub → sub ≤ 3 →
    s.chip.WriteTaken q (0x1110 + m.val) sub v n r e → ∃ d, Acts (.peerEntryWrite q m sub v) s d ∧ d.tpp = e.tpp ∧
      d.sec.jobs = e.sec.jobs ++ [⟨.peer m.val sub v, [.journal (m.val / 4), .group (m.val / 4)] ++ (if sub = 3 then [.floors] else []),
        some (q, .write (0x1110 + m.val) sub r.ty.code (r.encode v))⟩] ∧ e.Frame d [.sec] []) ∧
  (∀ (s : State) (q : Envelope) (m : Fin 32) (key : List Nat) (n : Option Nat) (r : Row) (e : Chip), r.var = false →
    s.chip.BytesTaken q (0x1110 + m.val) 3 key n r e → ∃ d, Acts (.peerKeyWrite q m key) s d ∧ d.tpp = e.tpp ∧
      d.sec.jobs = e.sec.jobs ++ [⟨.peer m.val 3 (ofBytes key), [.journal (m.val / 4), .group (m.val / 4), .floors],
        some (q, .write (0x1110 + m.val) 3 r.ty.code key)⟩] ∧ e.Frame d [.sec] []) ∧
  (∀ (s : State) (m : Fin 32), s.chip.tpp.peers.length = 32 →
    ((s.chip.peer m.val).txDue = true → ∃ d, Acts (.sequenceFloorRecord m true) s d ∧ (d.peer m.val).txDue = false ∧
      d.sec.jobs = s.chip.sec.jobs ++ [⟨.floors m.val true, [.floors], none⟩] ∧ s.chip.Frame d [.tpp, .sec] []) ∧
    ((s.chip.peer m.val).rxDue = true → ∃ d, Acts (.sequenceFloorRecord m false) s d ∧ (d.peer m.val).rxDue = false ∧
      d.sec.jobs = s.chip.sec.jobs ++ [⟨.floors m.val false, [.floors], none⟩] ∧ s.chip.Frame d [.tpp, .sec] [])) ∧
  (∀ (c : Chip) (m : Fin 32) (v : Nat), c.tpp.peers.length = 32 → c.sec.peerKeys.length = 32 → c.rdb 0xB000 3 2 = false →
    (c.jobDone (.peer m.val 3 v)).peerKey m.val = v ∧ (c.jobDone (.peer m.val 3 v)).peerErased m.val = false ∧
      (c.jobDone (.peer m.val 3 v)).rd (0x1110 + m.val) 4 = 0 ∧ (c.jobDone (.peer m.val 3 v)).rd (0x1110 + m.val) 5 = 0 ∧
      (c.jobDone (.peer m.val 3 v)).peer m.val = default ∧ (c.jobDone (.peer m.val 2 v)).peerId m.val = v) ∧
  (∀ (s : State) (q : Envelope) (n : Option Nat) (r : Row) (e : Chip), s.chip.WriteTaken q 0xB000 2 0x01434F4E n r e →
    ∃ d : Chip, Acts (.lifecycleToOpen q) s (d.saidOk q n 0xB000 2) ∧ e.rd 0xB000 1 = 0 ∧ asked e d 1) ∧
  (∀ (s : State) (q : Envelope) (n : Option Nat) (r : Row) (e : Chip), s.chip.WriteTaken q 0xB000 2 0x02434F4E n r e →
    ∃ d : Chip, Acts (.lifecycleToSealed q) s (d.saidOk q n 0xB000 2) ∧ e.rd 0xB000 1 = 1 ∧ e.sec.fwKey ≠ 0 ∧ asked e d 2) ∧
  (∀ (s : State) (q : Envelope) (n : Option Nat) (r : Row) (e : Chip), s.chip.WriteTaken q 0xB000 2 0x03434F4E n r e →
    ∃ d : Chip, Acts (.lifecycleToRetired q) s (d.saidOk q n 0xB000 2) ∧ e.rd 0xB000 1 < 3 ∧ asked e d 3) ∧
  (∀ (c : Chip) (t : Nat), c.changeOk t = true ↔ (c.lifecycle = 0 ∧ (t = 1 ∨ t = 3)) ∨
    (c.lifecycle = 1 ∧ ((t = 2 ∧ c.sec.fwKey ≠ 0) ∨ t = 3)) ∨ (c.lifecycle = 2 ∧ t = 3)) ∧
  (∀ (c : Chip) (t : Nat), (c.jobDone (.change t)).rd 0xB000 1 = t) ∧
  (∀ c : Chip, (c.jobDone (.change 3)).sec.identity = none ∧ (c.jobDone (.change 3)).sec.fwKey = 0 ∧
    (c.jobDone (.change 3)).sec.debugKey = 0 ∧ ∀ m, m < 32 → (c.jobDone (.change 3)).peerErased m = true ∧
      (c.jobDone (.change 3)).peerKey m = 0) ∧
  (∀ (s : State) (q : Envelope) (n : Option Nat) (r : Row) (e : Chip), s.chip.WriteTaken q 0xB001 3 1 n r e →
    ∃ d, Acts (.rotate q) s d ∧ d.tpp = e.tpp ∧ d.sec.jobs = e.sec.jobs ++ [⟨.newIdentity (e.genAhead + 1)
        (Config.random e.sec.draws % 2 ^ 256) true, [.previous, .identity, .identity],
        some (q, .write 0xB001 3 r.ty.code (r.encode 1))⟩] ∧ e.Frame d [.sec] []) ∧
  (∀ (c : Chip) (g k : Nat), (c.jobDone (.newIdentity g k true)).rd 0xB001 1 = g ∧
    (c.jobDone (.newIdentity g k true)).rd 0xB001 2 = Config.publicKey k ∧
    (c.jobDone (.newIdentity g k true)).rd 0xB001 4 = c.previousAfter ∧
    (c.jobDone (.newIdentity g k true)).sec.identity = some k) ∧
  (∀ (s : State) (q : Envelope) (key : List Nat) (n : Option Nat) (r : Row) (e : Chip), r.var = false →
    s.chip.BytesTaken q 0xB002 1 key n r e → ∃ d, Acts (.fwKeyWrite q key) s d ∧ d.tpp = e.tpp ∧
      d.sec.jobs = e.sec.jobs ++ [⟨.fwKey (ofBytes key), [.fwKey], some (q, .write 0xB002 1 r.ty.code key)⟩] ∧ e.Frame d [.sec] []) ∧
  (∀ (s : State) (q : Envelope) (key : List Nat) (n : Option Nat) (r : Row) (e : Chip), r.var = false →
    s.chip.BytesTaken q 0xB002 3 key n r e → ∃ d, Acts (.debugKeyWrite q key) s d ∧ d.tpp = e.tpp ∧
      d.sec.jobs = e.sec.jobs ++ [⟨.debugKey (ofBytes key), [.debugKey], some (q, .write 0xB002 3 r.ty.code key)⟩] ∧
      e.Frame d [.sec] []) ∧
  ∀ (c : Chip) (k : Nat), (c.jobDone (.fwKey k)).sec.fwKey = k ∧ (c.jobDone (.fwKey k)).rd 0xB002 2 = fingerprint k ∧
    (c.jobDone (.debugKey k)).sec.debugKey = k ∧ (c.jobDone (.debugKey k)).rd 0xB002 4 = fingerprint k

/-- TAMPER, images and the checks of 15: an accepted opening is shown, counted and timed, and with TAMPER_USE erases the keys of
peers, unless the lifecycle record is invalid (that exception is the model's reading: log 80); a closing clears OPENED; an image check shows its result and
version, a patch's and an engine image's each in its place; a patch too short for its trailer is of no format, and one in FACTORY whose form
is right is judged by the vendor's signature, then by its version (15 R386, R387, R390). -/
def Obligations.TamperAndImageChecks : Prop :=
  (∀ s : State, s.chip.rdb 0xB004 3 0 = false → s.chip.rdb 0xA001 2 4 = true → ∃ d, Acts .tamperOpening s d ∧
    d.rdb 0xB004 3 0 = true ∧ d.rd 0xB004 4 = satAdd 32 (s.chip.rd 0xB004 4) 1 ∧ d.rd 0xB004 5 = s.chip.now ∧
    (s.chip.rd 0xB004 1 ≠ 0 → s.chip.rdb 0xB000 3 1 = false →
      d.rdb 0xB000 3 2 = true ∧ ∀ m, m < 32 → d.peerErased m = true ∧ d.peerKey m = 0) ∧
    (s.chip.rd 0xB004 1 = 0 → d.sec.peerKeys = s.chip.sec.peerKeys ∧ d.rdb 0xB000 3 2 = s.chip.rdb 0xB000 3 2)) ∧
  (∀ s : State, s.chip.rdb 0xA001 2 4 = true →
    ∃ d, Acts .tamperClosing s d ∧ d.rdb 0xB004 3 0 = false ∧ s.chip.Frame d [] [(0xB004, 3)]) ∧
  (∀ (s : State) (b : List Nat), ∃ d, Acts (.imageCheckComplete true b) s d ∧
    d.rd 0xB003 3 = (s.chip.imageResult true b).1 ∧ d.rd 0xB003 4 = (s.chip.imageResult true b).2 ∧
    (b.length < 160 → d.rd 0xB003 3 = 2)) ∧
  (∀ (s : State) (b : List Nat), 160 ≤ b.length → s.chip.rd 0xB000 1 = 0 →
    let t := b.drop (b.length - 160)
    let signed := Config.ecdsaVerify Config.vendorKey (b.take (b.length - 160) ++ t.take 16) (beN t 16 64)
    t.take 4 = [0x53, 0x47, 2, 0] → beN t 8 4 = b.length - 160 → (t.drop 12).take 4 = [0, 0, 0, 0] →
    t.drop 144 = List.replicate 16 0 →
    ∃ d, Acts (.imageCheckComplete true b) s d ∧ d.rd 0xB003 4 = beN t 4 4 ∧ d.rd 0xB003 3 =
      (if signed = false then 3 else if beN t 4 4 < s.chip.rd 0xB002 6 then 6 else 1)) ∧
  ∀ (s : State) (b i : List Nat), s.chip.start.loading = true → s.chip.loadImage b = some i →
    ∃ d, Acts (.imageCheckComplete false b) s d ∧ d.rd 0xB003 1 = (s.chip.imageResult false i).1 ∧
      d.rd 0xB003 2 = (s.chip.imageResult false i).2 ∧
      ((s.chip.imageResult false i).1 = 1 → d.start.loading = true ∧ d.start.imageBad = false)

/-- Challenges, debug sessions and the JTAG port (15 R391–R396): a read of CHALLENGE issues fresh bytes, which expire; a request
grants, asks for or ends a session; a response that verifies grants FULL, or opens a re-key grant, and one that does not consumes
the challenge, is counted and locks out; a session's timeout ends it and resets the engines it named; a debug access, through its
instruction and while a session is held, reads and writes as master 0x1B may, and reads 0 of the security region; and an instruction
not offered is BYPASS. -/
def Obligations.DebugIsGranted : Prop :=
  (∀ (s : State) (q : Envelope) (n : Option Nat) (d : Chip), s.chip.ReadTaken q 0xB100 4 n d →
    let fresh := Config.random d.sec.draws % 2 ^ 256
    ∃ x : Chip, Acts (.challengeRead q) s (x.saidRead q n (d.readHead 0xB100 4) (toBytes 32 fresh)) ∧
      x.sec.challenge = some fresh ∧ x.sec.draws = d.sec.draws + 1 ∧ d.Frame x [.sec] []) ∧
  (∀ s : State, ∃ d, Acts .challengeExpiry s d ∧ d.sec.challenge = none ∧ s.chip.Frame d [.sec] []) ∧
  (∀ s : State, ∃ d, Acts .challengeLockoutEnd s d ∧ d.sec.lockout = false ∧ s.chip.Frame d [.sec] []) ∧
  (∀ (s : State) (q : Envelope) (n : Option Nat) (r : Row) (e : Chip), s.chip.WriteTaken q 0xB100 2 1 n r e →
    ∃ d : Chip, Acts (.debugObserveRequest q) s (d.saidOk q n 0xB100 2) ∧ d.rd 0xB100 1 = 1 ∧
      d.rd 0xB100 7 = satAdd 32 (e.rd 0xB100 7) (if e.rd 0xB100 1 = 1 then 0 else 1) ∧
      (e.rd 0xB100 1 ≠ 1 → d.sec.debugMask = 0)) ∧
  (∀ (s : State) (q : Envelope) (n : Option Nat) (r : Row) (e : Chip), s.chip.WriteTaken q 0xB100 2 2 n r e →
    ∃ d : Chip, Acts (.debugFullRequest q) s (d.saidOk q n 0xB100 2) ∧
      (e.rd 0xB000 1 = 2 → d.sec.fullAsked = true ∧ e.Frame d [.sec] []) ∧
      (e.rd 0xB000 1 ≠ 2 → d.rd 0xB100 1 = 2) ∧
      (e.rd 0xB000 1 ≠ 2 → e.rd 0xB100 1 ≠ 2 → d.sec.debugMask = e.rd 0xB100 3 ∧
        d.rd 0xB100 7 = satAdd 32 (e.rd 0xB100 7) 1)) ∧
  (∀ (s : State) (q : Envelope) (n : Option Nat) (r : Row) (e : Chip), s.chip.WriteTaken q 0xB100 2 0 n r e →
    ∃ d : Chip, Acts (.debugEndRequest q) s (d.saidOk q n 0xB100 2) ∧ d.rd 0xB100 1 = 0 ∧
      (e.rd 0xB100 1 ≠ 0 → d.sec.debugMask = 0 ∧ d.sec.fullAsked = false) ∧ (e.rd 0xB100 1 = 0 → e.Frame d [] [])) ∧
  (∀ (s : State) (q : Envelope) (sig : List Nat) (n : Option Nat) (r : Row) (e : Chip), r.var = false →
    s.chip.BytesTaken q 0xB100 5 sig n r e → e.rd 0xB100 1 ≠ 2 →
    let ok := e.sec.fullAsked && e.lifecycle == 2 && e.answered
      [0x44, 0x42, 0x47, 0x31] ([2] ++ toBytes 2 (e.rd 0xB100 3)) (ofBytes sig)
    ∃ x : Chip, x.sec.challenge = none ∧
      (ok = true → Acts (.response q sig) s (x.saidOk q n 0xB100 5) ∧ x.rd 0xB100 1 = 2 ∧ x.sec.debugMask = e.rd 0xB100 3) ∧
      (ok = false → Acts (.response q sig) s (x.respondKeep q n 0x8F ([0xB1, 0, 5, 0] ++ toBytes 4 stateErr ++ toBytes 4 0)) ∧
        x.sec.lockout = true ∧ x.rd 0xB100 8 = satAdd 32 (e.rd 0xB100 8) 1 ∧ e.Frame x [.sec] [(0xB100, 8)])) ∧
  (∀ s : State, ∃ d, Acts .debugTimeout s d ∧ d.rd 0xB100 1 = 0 ∧ (s.chip.rd 0xB100 1 ≠ 0 → d.sec.debugMask = 0 ∧
    d.sec.jobs = s.chip.sec.jobs ++ [⟨.marker (List.replicate 8 0), [.marker], none⟩]) ∧
    ∀ k, k < s.chip.grade.engines → s.chip.rd 0xB100 1 = 2 → bit k s.chip.sec.debugMask = true →
      s.chip.rd 0xE000 (3 + k) = 4 → d.rd 0xE000 (3 + k) = 5) ∧
  (∀ (s : State) (addr v : Nat), s.chip.sec.jtag = .debugAccess → s.chip.rd 0xB100 1 ≠ 0 → addr < 2 ^ 32 → 4 ∣ addr →
    (0x10000 ≤ addr → addr < 0x20000 → ∃ d, Acts (.debugAccess .read addr v) s d ∧
      d.sec.jtagOut = (mget addr s.chip.start.ram).getD 0 ∧ s.chip.Frame d [.start, .sec] []) ∧
    (0x10001000 ≤ addr → addr < 0x10005000 → ∃ d, Acts (.debugAccess .read addr v) s d ∧ d.sec.jtagOut = 0) ∧
    (s.chip.rd 0xB100 1 = 2 → s.chip.awake .fabric = true → 0x40800000 ≤ addr → addr < 0x40C00000 →
      ∃ d, Acts (.debugAccess .write addr v) s d ∧ (mget addr d.start.ram).getD 0 = v % 2 ^ 32 ∧ s.chip.Frame d [.start] [])) ∧
  (∀ (s : State) (ir : JtagInstr), ∃ d, Acts (.jtagInstruction ir) s d ∧
    d.sec.jtag = (if s.chip.jtagOffered ir then ir else .bypass) ∧ (ir = .idcode → d.sec.jtagOut = 0x165160AB) ∧
    s.chip.Frame d [.sec] []) ∧
  (∀ (s : State) (q : Envelope) (sig : List Nat) (n : Option Nat) (r : Row) (e : Chip), r.var = false →
    s.chip.BytesTaken q 0xB100 9 sig n r e →
    let ok := e.rekeyPossible && e.answered [0x52, 0x4B, 0x59, 0x31] [] (ofBytes sig)
    ∃ x : Chip, x.sec.challenge = none ∧
      (ok = true → Acts (.rekeyResponse q sig) s (x.saidOk q n 0xB100 9) ∧ x.rdb 0xB100 0x0A 0 = true) ∧
      (ok = false → Acts (.rekeyResponse q sig) s
        (x.respondKeep q n 0x8F ([0xB1, 0, 9, 0] ++ toBytes 4 stateErr ++ toBytes 4 0)) ∧ x.sec.lockout = true ∧
        x.rd 0xB100 8 = satAdd 32 (e.rd 0xB100 8) 1 ∧ e.Frame x [.sec] [(0xB100, 8)])) ∧
  ∀ s : State, ∃ d, Acts .rekeyGrantExpiry s d ∧ d.rdb 0xB100 0x0A 0 = false ∧ s.chip.Frame d [.nv] [(0xB100, 0x0A)]

/-! ### The panel (16) -/

/-- Keys of a panel whose supply is good (16 R399–R404): an accepted press is shown and acts at its release, or as a long press while it
is held, not as both. A press does what the key's role says and is shown and counted as done or refused: ACK acknowledges, SELECT sets
the cursor, TAKE without a cursor is refused, LAMP_TEST lights every LED until it ends, USER counts, and a disabled panel refuses; a key
without a role does nothing. The cursor lapses. -/
def Obligations.KeysAct : Prop :=
  let key (c : Chip) (k : Fin 8) (role : Nat) : Prop := c.rdb 0xC002 1 k.val = true ∧ bit k.val c.panel.long = false ∧
    c.rdb 0xA001 2 4 = true ∧ c.rd 0xC001 (k.val + 1) = role
  let up (c d : Chip) (k : Fin 8) : Prop := d.rd 0xC002 1 = setBit k.val (c.rd 0xC002 1) false
  let done (c d : Chip) (k : Fin 8) (long out : Nat) : Prop := c.cursorOn = false →
    d.rd 0xC002 3 = k.val * 2 ^ 21 + long * 2 ^ 20 + out * 2 ^ 17 + 31 * 2 ^ 9 ∧
      d.rd 0xC002 4 = satAdd 32 (c.rd 0xC002 4) (if out = 0 then 1 else 0) ∧
      d.rd 0xC002 5 = satAdd 32 (c.rd 0xC002 5) (if out = 0 then 0 else 1)
  (∀ (s : State) (k : Fin 8), s.chip.rdb 0xC002 1 k.val = false → s.chip.rdb 0xA001 2 4 = true →
    ∃ d, Acts (.keyPressAccepted k) s d ∧ d.rd 0xC002 1 = setBit k.val (s.chip.rd 0xC002 1) true ∧
      bit k.val d.panel.long = false ∧ s.chip.Frame d [.panel] [(0xC002, 1)]) ∧
  (∀ (s : State) (k : Fin 8), s.chip.rdb 0xC002 1 k.val = true → bit k.val s.chip.panel.long = true →
    s.chip.rdb 0xA001 2 4 = true →
    ∃ d, Acts (.keyReleaseAccepted k) s d ∧ up s.chip d k ∧ s.chip.Frame d [.panel] [(0xC002, 1)]) ∧
  (∀ (s : State) (k : Fin 8), key s.chip k 0 →
    ∃ d, Acts (.keyReleaseAccepted k) s d ∧ up s.chip d k ∧ s.chip.Frame d [.panel] [(0xC002, 1)]) ∧
  (∀ (s : State) (k : Fin 8) (role : Nat), key s.chip k role → 1 ≤ role → role ≤ 7 → s.chip.rdb 0xC000 1 0 = false →
    ∃ d, Acts (.keyReleaseAccepted k) s d ∧ up s.chip d k ∧ done s.chip d k 0 3) ∧
  (∀ (s : State) (k : Fin 8) (role : Nat), key s.chip k role → s.chip.rdb 0xC000 1 0 = true →
    (role = 1 → ∃ d, Acts (.keyReleaseAccepted k) s d ∧ up s.chip d k ∧ d.panel.unacked = 0 ∧ done s.chip d k 0 0) ∧
    (role = 2 → s.chip.cursorOn = false → ∃ d, Acts (.keyReleaseAccepted k) s d ∧ up s.chip d k ∧ d.cursorOn = true ∧
      d.cursorChan = s.chip.panel.lastChan % 8 ∧ d.rd 0xC002 4 = satAdd 32 (s.chip.rd 0xC002 4) 1) ∧
    (role = 3 → s.chip.cursorOn = false → ∃ d, Acts (.keyReleaseAccepted k) s d ∧ up s.chip d k ∧ done s.chip d k 0 4 ∧
      d.rd 0x3000 0x0C = s.chip.rd 0x3000 0x0C) ∧
    (role = 5 → s.chip.cursorOn = false → ∃ d, Acts (.keyReleaseAccepted k) s d ∧ up s.chip d k ∧ done s.chip d k 0 4) ∧
    (role = 6 → ∃ d, Acts (.keyReleaseAccepted k) s d ∧ up s.chip d k ∧ d.panel.lamp = true ∧ (∀ i, d.led i = (1, 100)) ∧
      done s.chip d k 0 0) ∧
    (role = 7 → ∃ d, Acts (.keyReleaseAccepted k) s d ∧ up s.chip d k ∧ d.rd 0xC002 6 = satAdd 32 (s.chip.rd 0xC002 6) 1 ∧
      done s.chip d k 0 0)) ∧
  (∀ (s : State) (k : Fin 8) (role : Nat), key s.chip k role →
    (role = 0 ∨ (3 ≤ role ∧ role ≤ 6) → ∃ d, Acts (.longPress k) s d ∧ bit k.val d.panel.long = true ∧ s.chip.Frame d [.panel] []) ∧
    (role = 2 → s.chip.rdb 0xC000 1 0 = true → s.chip.cursorOn = false → ∃ d, Acts (.longPress k) s d ∧
      bit k.val d.panel.long = true ∧ d.cursorOn = true ∧ d.rd 0xC002 4 = satAdd 32 (s.chip.rd 0xC002 4) 1) ∧
    (role = 7 → s.chip.rdb 0xC000 1 0 = true → ∃ d, Acts (.longPress k) s d ∧ bit k.val d.panel.long = true ∧
      d.rd 0xC002 6 = satAdd 32 (s.chip.rd 0xC002 6) 1 ∧ done s.chip d k 1 0)) ∧
  (∀ s : State, ∃ d, Acts .lampTestEnd s d ∧ d.panel = { s.chip.panel with lamp := false } ∧ s.chip.Frame d [.panel] []) ∧
  ∀ s : State, ∃ d, Acts .cursorLapse s d ∧ d.cursorOn = false ∧ s.chip.Frame d [] [(0xC002, 2)]

/-! ### The internal address space (01) -/

/-- An access of a master that is there: by a requester of objects, to no range, of a master without the right, or to a sleeping domain it
does not wake, it is refused, a read returning 0 and a write changing nothing, and the error of the refusal is raised, with the master
and the access in the capture if that is free. One that is allowed waits for a domain that it wakes, or for the program of the page it
reads; else it is made: a word of RAM written is the word read back, and a word of the NV array is read as its bytes stand (01 R37–R40, 11
R283). Factory test reads 0 of a record of keys (the model's choice: log 80). -/
def Obligations.InternalAccessesAreJudged : Prop :=
  let there (c : Chip) (m : Nat) : Prop := ¬ (m < 16 ∧ c.grade.engines ≤ m) ∧ ¬ (0x13 ≤ m ∧ m < 0x1B ∧ c.grade.ports ≤ m - 0x13) ∧
    c.faults.srcs.length = 128
  let plain (m : Nat) : Prop := m ≠ 0x11 ∧ m ≠ 0x12
  let code (k : AccessKind) : Nat := match k with
    | .read => 1
    | .write => 2
    | .execute => 3
  let sleeps (c : Chip) (r : Area) : Bool := r.dom != .mast && !c.awake r.dom
  let wakes (c : Chip) (m : Nat) : Bool := m == 0x10 || (m == 0x1B && c.powerState == 0)
  let refused (c d : Chip) (src m how addr : Nat) (k : AccessKind) : Prop :=
    d.start = (if k = .write then c.start else { c.start with busRead := 0 }) ∧ d.ports = c.ports ∧ d.sess = c.sess ∧
    d.nv.cells = c.nv.cells ∧ d.nv.queue = c.nv.queue ∧ ((c.src src).broken = false → (d.src src).pennant = true ∧
      d.rd (0x9100 + src) 5 = satAdd 32 (c.rd (0x9100 + src) 5) 1 ∧
      ((c.src src).pennant = false → c.rdb 0x9010 1 15 = false → d.rdf 0x9010 1 6 0 = src ∧ d.rd 0x9010 2 = m ∧
        d.rd 0x9010 3 = how ∧ d.rd 0x9010 4 = addr))
  (∀ (s : State) (m : Fin 29) (k : AccessKind) (addr v : Nat), there s.chip m.val → ¬ plain m.val →
    ∃ d, Acts (.internalAccess m k addr v) s d ∧
      refused s.chip d 17 m.val (if k = .write then 5 else 4) (addr % 2 ^ 32 / 256 * 256) k) ∧
  (∀ (s : State) (m : Fin 29) (k : AccessKind) (addr v : Nat), there s.chip m.val → plain m.val →
    areaOf s.chip.grade (addr % 2 ^ 32) = none →
    ∃ d, Acts (.internalAccess m k addr v) s d ∧ refused s.chip d 16 m.val (code k) (addr % 2 ^ 32) k) ∧
  (∀ (s : State) (m : Fin 29) (k : AccessKind) (addr v : Nat) (r : Area), there s.chip m.val → plain m.val →
    areaOf s.chip.grade (addr % 2 ^ 32) = some r → sleeps s.chip r = true → wakes s.chip m.val = false →
    ∃ d, Acts (.internalAccess m k addr v) s d ∧ refused s.chip d 18 m.val (code k) (addr % 2 ^ 32) k) ∧
  (∀ (s : State) (m : Fin 29) (k : AccessKind) (addr v : Nat) (r : Area), there s.chip m.val → plain m.val →
    areaOf s.chip.grade (addr % 2 ^ 32) = some r → (sleeps s.chip r = false ∨ wakes s.chip m.val = true) →
    s.chip.accessMay m.val k r = false →
    ∃ d, Acts (.internalAccess m k addr v) s d ∧ refused s.chip d 17 m.val (code k) (addr % 2 ^ 32) k) ∧
  (∀ (s : State) (m : Fin 29) (k : AccessKind) (addr v : Nat) (r : Area), there s.chip m.val → plain m.val →
    areaOf s.chip.grade (addr % 2 ^ 32) = some r → s.chip.accessMay m.val k r = true → sleeps s.chip r = true →
    wakes s.chip m.val = true → s.chip.powerState = 0 → s.chip.waking r.dom = false → s.chip.grade.hasDom r.dom = true →
    ∃ d, Acts (.internalAccess m k addr v) s d ∧ d.start.busStalls = s.chip.start.busStalls ++ [⟨m.val, k, addr % 2 ^ 32, v⟩] ∧
      (∃ w ∈ d.power.wakes, w.dom = r.dom) ∧ s.chip.Frame d [.start, .power] []) ∧
  (∀ (s : State) (m : Fin 29) (k : AccessKind) (addr v : Nat) (r : Area), there s.chip m.val → plain m.val →
    areaOf s.chip.grade (addr % 2 ^ 32) = some r → s.chip.accessMay m.val k r = true → r = .trim ∨ r = .security ∨ r = .nv →
    k ≠ .write →
    let a := addr % 2 ^ 32 - 0x10000000
    ((∀ p, s.chip.nv.prog = some p → p.page ≠ a / 256) → ¬ (m.val = 0x1C ∧ keyRecord (addr % 2 ^ 32 / 4 * 4) = true) →
      ∃ d, Acts (.internalAccess m k addr v) s d ∧ d.start.busRead = ofBytes (s.chip.nvBytes (a / 4 * 4) 4) ∧
        d.nv = s.chip.nv) ∧
    (m.val = 0x1C → keyRecord (addr % 2 ^ 32 / 4 * 4) = true → s.chip.nv.prog = none →
      ∃ d, Acts (.internalAccess m k addr v) s d ∧ d.start.busRead = 0 ∧ d.nv = s.chip.nv) ∧
    (∀ p, s.chip.nv.prog = some p → p.page = a / 256 → ∃ d, Acts (.internalAccess m k addr v) s d ∧
      d.start.busStalls = s.chip.start.busStalls ++ [⟨m.val, k, addr % 2 ^ 32, v⟩] ∧ s.chip.Frame d [.start] [])) ∧
  ∀ (s : State) (m : Fin 29) (k : AccessKind) (addr v : Nat) (r : Area), there s.chip m.val → plain m.val →
    areaOf s.chip.grade (addr % 2 ^ 32) = some r → s.chip.accessMay m.val k r = true → sleeps s.chip r = false →
    r = .stewardRam ∨ r = .buffer ∨ r = .rings ∨ (∃ n, r = .imem n ∨ r = .dmem n) →
    let a := addr % 2 ^ 32 / 4 * 4
    (k = .write → ∃ d, Acts (.internalAccess m k addr v) s d ∧ (mget a d.start.ram).getD 0 = v % 2 ^ 32 ∧
      (∀ b, b ≠ a → mget b d.start.ram = mget b s.chip.start.ram) ∧ s.chip.Frame d [.start] []) ∧
    (k ≠ .write → ∃ d, Acts (.internalAccess m k addr v) s d ∧ d.start.busRead = (mget a s.chip.start.ram).getD 0 ∧
      d.start.ram = s.chip.start.ram ∧ s.chip.Frame d [.start, .sec] [])
end

