-- ==== Sys2Proof/Laws/State.lean ====
section
/-!
SUPPORT. Sys2Proof/Laws/State.lean: what each update of the device leaves of each of its parts, one lemma per part and update.
-/

namespace Sys2Proof.Machine

@[simp] theorem Chip.modTime_grade (c : Chip) (f : TimeUnit → TimeUnit) : (c.modTime f).grade = c.grade := rfl
@[simp] theorem Chip.modTime_objs (c : Chip) (f : TimeUnit → TimeUnit) : (c.modTime f).objs = c.objs := rfl
@[simp] theorem Chip.modTime_staged (c : Chip) (f : TimeUnit → TimeUnit) : (c.modTime f).staged = c.staged := rfl
@[simp] theorem Chip.modTime_free (c : Chip) (f : TimeUnit → TimeUnit) : (c.modTime f).free = c.free := rfl
@[simp] theorem Chip.modTime_time (c : Chip) (f : TimeUnit → TimeUnit) : (c.modTime f).time = f c.time := rfl
@[simp] theorem Chip.modTime_cands (c : Chip) (f : TimeUnit → TimeUnit) : (c.modTime f).cands = c.cands := rfl
@[simp] theorem Chip.modTime_tod (c : Chip) (f : TimeUnit → TimeUnit) : (c.modTime f).tod = c.tod := rfl
@[simp] theorem Chip.modTime_tdc (c : Chip) (f : TimeUnit → TimeUnit) : (c.modTime f).tdc = c.tdc := rfl
@[simp] theorem Chip.modTime_chans (c : Chip) (f : TimeUnit → TimeUnit) : (c.modTime f).chans = c.chans := rfl
@[simp] theorem Chip.modTime_nv (c : Chip) (f : TimeUnit → TimeUnit) : (c.modTime f).nv = c.nv := rfl
@[simp] theorem Chip.modTime_faults (c : Chip) (f : TimeUnit → TimeUnit) : (c.modTime f).faults = c.faults := rfl
@[simp] theorem Chip.modTime_power (c : Chip) (f : TimeUnit → TimeUnit) : (c.modTime f).power = c.power := rfl
@[simp] theorem Chip.modTime_tpp (c : Chip) (f : TimeUnit → TimeUnit) : (c.modTime f).tpp = c.tpp := rfl
@[simp] theorem Chip.modTime_sec (c : Chip) (f : TimeUnit → TimeUnit) : (c.modTime f).sec = c.sec := rfl
@[simp] theorem Chip.modTime_start (c : Chip) (f : TimeUnit → TimeUnit) : (c.modTime f).start = c.start := rfl
@[simp] theorem Chip.modTime_panel (c : Chip) (f : TimeUnit → TimeUnit) : (c.modTime f).panel = c.panel := rfl
@[simp] theorem Chip.modTime_synth (c : Chip) (f : TimeUnit → TimeUnit) : (c.modTime f).synth = c.synth := rfl
@[simp] theorem Chip.modTime_ttus (c : Chip) (f : TimeUnit → TimeUnit) : (c.modTime f).ttus = c.ttus := rfl
@[simp] theorem Chip.modTime_ports (c : Chip) (f : TimeUnit → TimeUnit) : (c.modTime f).ports = c.ports := rfl
@[simp] theorem Chip.modTime_hand (c : Chip) (f : TimeUnit → TimeUnit) : (c.modTime f).hand = c.hand := rfl
@[simp] theorem Chip.modTime_sess (c : Chip) (f : TimeUnit → TimeUnit) : (c.modTime f).sess = c.sess := rfl
@[simp] theorem Chip.modCand_grade (c : Chip) (n : Nat) (f : Cand → Cand) : (c.modCand n f).grade = c.grade := rfl
@[simp] theorem Chip.modCand_objs (c : Chip) (n : Nat) (f : Cand → Cand) : (c.modCand n f).objs = c.objs := rfl
@[simp] theorem Chip.modCand_staged (c : Chip) (n : Nat) (f : Cand → Cand) : (c.modCand n f).staged = c.staged := rfl
@[simp] theorem Chip.modCand_free (c : Chip) (n : Nat) (f : Cand → Cand) : (c.modCand n f).free = c.free := rfl
@[simp] theorem Chip.modCand_time (c : Chip) (n : Nat) (f : Cand → Cand) : (c.modCand n f).time = c.time := rfl
@[simp] theorem Chip.modCand_cands (c : Chip) (n : Nat) (f : Cand → Cand) : (c.modCand n f).cands = modNth c.cands n f := rfl
@[simp] theorem Chip.modCand_tod (c : Chip) (n : Nat) (f : Cand → Cand) : (c.modCand n f).tod = c.tod := rfl
@[simp] theorem Chip.modCand_tdc (c : Chip) (n : Nat) (f : Cand → Cand) : (c.modCand n f).tdc = c.tdc := rfl
@[simp] theorem Chip.modCand_chans (c : Chip) (n : Nat) (f : Cand → Cand) : (c.modCand n f).chans = c.chans := rfl
@[simp] theorem Chip.modCand_nv (c : Chip) (n : Nat) (f : Cand → Cand) : (c.modCand n f).nv = c.nv := rfl
@[simp] theorem Chip.modCand_faults (c : Chip) (n : Nat) (f : Cand → Cand) : (c.modCand n f).faults = c.faults := rfl
@[simp] theorem Chip.modCand_power (c : Chip) (n : Nat) (f : Cand → Cand) : (c.modCand n f).power = c.power := rfl
@[simp] theorem Chip.modCand_tpp (c : Chip) (n : Nat) (f : Cand → Cand) : (c.modCand n f).tpp = c.tpp := rfl
@[simp] theorem Chip.modCand_sec (c : Chip) (n : Nat) (f : Cand → Cand) : (c.modCand n f).sec = c.sec := rfl
@[simp] theorem Chip.modCand_start (c : Chip) (n : Nat) (f : Cand → Cand) : (c.modCand n f).start = c.start := rfl
@[simp] theorem Chip.modCand_panel (c : Chip) (n : Nat) (f : Cand → Cand) : (c.modCand n f).panel = c.panel := rfl
@[simp] theorem Chip.modCand_synth (c : Chip) (n : Nat) (f : Cand → Cand) : (c.modCand n f).synth = c.synth := rfl
@[simp] theorem Chip.modCand_ttus (c : Chip) (n : Nat) (f : Cand → Cand) : (c.modCand n f).ttus = c.ttus := rfl
@[simp] theorem Chip.modCand_ports (c : Chip) (n : Nat) (f : Cand → Cand) : (c.modCand n f).ports = c.ports := rfl
@[simp] theorem Chip.modCand_hand (c : Chip) (n : Nat) (f : Cand → Cand) : (c.modCand n f).hand = c.hand := rfl
@[simp] theorem Chip.modCand_sess (c : Chip) (n : Nat) (f : Cand → Cand) : (c.modCand n f).sess = c.sess := rfl
@[simp] theorem Chip.modLane_grade (c : Chip) (n : Nat) (f : Lane → Lane) : (c.modLane n f).grade = c.grade := rfl
@[simp] theorem Chip.modLane_objs (c : Chip) (n : Nat) (f : Lane → Lane) : (c.modLane n f).objs = c.objs := rfl
@[simp] theorem Chip.modLane_staged (c : Chip) (n : Nat) (f : Lane → Lane) : (c.modLane n f).staged = c.staged := rfl
@[simp] theorem Chip.modLane_free (c : Chip) (n : Nat) (f : Lane → Lane) : (c.modLane n f).free = c.free := rfl
@[simp] theorem Chip.modLane_time (c : Chip) (n : Nat) (f : Lane → Lane) : (c.modLane n f).time = c.time := rfl
@[simp] theorem Chip.modLane_cands (c : Chip) (n : Nat) (f : Lane → Lane) : (c.modLane n f).cands = c.cands := rfl
@[simp] theorem Chip.modLane_tod (c : Chip) (n : Nat) (f : Lane → Lane) : (c.modLane n f).tod = c.tod := rfl
@[simp] theorem Chip.modLane_chans (c : Chip) (n : Nat) (f : Lane → Lane) : (c.modLane n f).chans = c.chans := rfl
@[simp] theorem Chip.modLane_nv (c : Chip) (n : Nat) (f : Lane → Lane) : (c.modLane n f).nv = c.nv := rfl
@[simp] theorem Chip.modLane_faults (c : Chip) (n : Nat) (f : Lane → Lane) : (c.modLane n f).faults = c.faults := rfl
@[simp] theorem Chip.modLane_power (c : Chip) (n : Nat) (f : Lane → Lane) : (c.modLane n f).power = c.power := rfl
@[simp] theorem Chip.modLane_tpp (c : Chip) (n : Nat) (f : Lane → Lane) : (c.modLane n f).tpp = c.tpp := rfl
@[simp] theorem Chip.modLane_sec (c : Chip) (n : Nat) (f : Lane → Lane) : (c.modLane n f).sec = c.sec := rfl
@[simp] theorem Chip.modLane_start (c : Chip) (n : Nat) (f : Lane → Lane) : (c.modLane n f).start = c.start := rfl
@[simp] theorem Chip.modLane_panel (c : Chip) (n : Nat) (f : Lane → Lane) : (c.modLane n f).panel = c.panel := rfl
@[simp] theorem Chip.modLane_synth (c : Chip) (n : Nat) (f : Lane → Lane) : (c.modLane n f).synth = c.synth := rfl
@[simp] theorem Chip.modLane_ttus (c : Chip) (n : Nat) (f : Lane → Lane) : (c.modLane n f).ttus = c.ttus := rfl
@[simp] theorem Chip.modLane_ports (c : Chip) (n : Nat) (f : Lane → Lane) : (c.modLane n f).ports = c.ports := rfl
@[simp] theorem Chip.modLane_hand (c : Chip) (n : Nat) (f : Lane → Lane) : (c.modLane n f).hand = c.hand := rfl
@[simp] theorem Chip.modLane_sess (c : Chip) (n : Nat) (f : Lane → Lane) : (c.modLane n f).sess = c.sess := rfl
@[simp] theorem Chip.modAux_grade (c : Chip) (n : Nat) (f : Aux → Aux) : (c.modAux n f).grade = c.grade := rfl
@[simp] theorem Chip.modAux_objs (c : Chip) (n : Nat) (f : Aux → Aux) : (c.modAux n f).objs = c.objs := rfl
@[simp] theorem Chip.modAux_staged (c : Chip) (n : Nat) (f : Aux → Aux) : (c.modAux n f).staged = c.staged := rfl
@[simp] theorem Chip.modAux_free (c : Chip) (n : Nat) (f : Aux → Aux) : (c.modAux n f).free = c.free := rfl
@[simp] theorem Chip.modAux_time (c : Chip) (n : Nat) (f : Aux → Aux) : (c.modAux n f).time = c.time := rfl
@[simp] theorem Chip.modAux_cands (c : Chip) (n : Nat) (f : Aux → Aux) : (c.modAux n f).cands = c.cands := rfl
@[simp] theorem Chip.modAux_tod (c : Chip) (n : Nat) (f : Aux → Aux) : (c.modAux n f).tod = c.tod := rfl
@[simp] theorem Chip.modAux_chans (c : Chip) (n : Nat) (f : Aux → Aux) : (c.modAux n f).chans = c.chans := rfl
@[simp] theorem Chip.modAux_nv (c : Chip) (n : Nat) (f : Aux → Aux) : (c.modAux n f).nv = c.nv := rfl
@[simp] theorem Chip.modAux_faults (c : Chip) (n : Nat) (f : Aux → Aux) : (c.modAux n f).faults = c.faults := rfl
@[simp] theorem Chip.modAux_power (c : Chip) (n : Nat) (f : Aux → Aux) : (c.modAux n f).power = c.power := rfl
@[simp] theorem Chip.modAux_tpp (c : Chip) (n : Nat) (f : Aux → Aux) : (c.modAux n f).tpp = c.tpp := rfl
@[simp] theorem Chip.modAux_sec (c : Chip) (n : Nat) (f : Aux → Aux) : (c.modAux n f).sec = c.sec := rfl
@[simp] theorem Chip.modAux_start (c : Chip) (n : Nat) (f : Aux → Aux) : (c.modAux n f).start = c.start := rfl
@[simp] theorem Chip.modAux_panel (c : Chip) (n : Nat) (f : Aux → Aux) : (c.modAux n f).panel = c.panel := rfl
@[simp] theorem Chip.modAux_synth (c : Chip) (n : Nat) (f : Aux → Aux) : (c.modAux n f).synth = c.synth := rfl
@[simp] theorem Chip.modAux_ttus (c : Chip) (n : Nat) (f : Aux → Aux) : (c.modAux n f).ttus = c.ttus := rfl
@[simp] theorem Chip.modAux_ports (c : Chip) (n : Nat) (f : Aux → Aux) : (c.modAux n f).ports = c.ports := rfl
@[simp] theorem Chip.modAux_hand (c : Chip) (n : Nat) (f : Aux → Aux) : (c.modAux n f).hand = c.hand := rfl
@[simp] theorem Chip.modAux_sess (c : Chip) (n : Nat) (f : Aux → Aux) : (c.modAux n f).sess = c.sess := rfl
@[simp] theorem Chip.modChan_grade (c : Chip) (n : Nat) (f : Chan → Chan) : (c.modChan n f).grade = c.grade := rfl
@[simp] theorem Chip.modChan_objs (c : Chip) (n : Nat) (f : Chan → Chan) : (c.modChan n f).objs = c.objs := rfl
@[simp] theorem Chip.modChan_staged (c : Chip) (n : Nat) (f : Chan → Chan) : (c.modChan n f).staged = c.staged := rfl
@[simp] theorem Chip.modChan_free (c : Chip) (n : Nat) (f : Chan → Chan) : (c.modChan n f).free = c.free := rfl
@[simp] theorem Chip.modChan_time (c : Chip) (n : Nat) (f : Chan → Chan) : (c.modChan n f).time = c.time := rfl
@[simp] theorem Chip.modChan_cands (c : Chip) (n : Nat) (f : Chan → Chan) : (c.modChan n f).cands = c.cands := rfl
@[simp] theorem Chip.modChan_tod (c : Chip) (n : Nat) (f : Chan → Chan) : (c.modChan n f).tod = c.tod := rfl
@[simp] theorem Chip.modChan_tdc (c : Chip) (n : Nat) (f : Chan → Chan) : (c.modChan n f).tdc = c.tdc := rfl
@[simp] theorem Chip.modChan_chans (c : Chip) (n : Nat) (f : Chan → Chan) : (c.modChan n f).chans = modNth c.chans n f := rfl
@[simp] theorem Chip.modChan_nv (c : Chip) (n : Nat) (f : Chan → Chan) : (c.modChan n f).nv = c.nv := rfl
@[simp] theorem Chip.modChan_faults (c : Chip) (n : Nat) (f : Chan → Chan) : (c.modChan n f).faults = c.faults := rfl
@[simp] theorem Chip.modChan_power (c : Chip) (n : Nat) (f : Chan → Chan) : (c.modChan n f).power = c.power := rfl
@[simp] theorem Chip.modChan_tpp (c : Chip) (n : Nat) (f : Chan → Chan) : (c.modChan n f).tpp = c.tpp := rfl
@[simp] theorem Chip.modChan_sec (c : Chip) (n : Nat) (f : Chan → Chan) : (c.modChan n f).sec = c.sec := rfl
@[simp] theorem Chip.modChan_start (c : Chip) (n : Nat) (f : Chan → Chan) : (c.modChan n f).start = c.start := rfl
@[simp] theorem Chip.modChan_panel (c : Chip) (n : Nat) (f : Chan → Chan) : (c.modChan n f).panel = c.panel := rfl
@[simp] theorem Chip.modChan_synth (c : Chip) (n : Nat) (f : Chan → Chan) : (c.modChan n f).synth = c.synth := rfl
@[simp] theorem Chip.modChan_ttus (c : Chip) (n : Nat) (f : Chan → Chan) : (c.modChan n f).ttus = c.ttus := rfl
@[simp] theorem Chip.modChan_ports (c : Chip) (n : Nat) (f : Chan → Chan) : (c.modChan n f).ports = c.ports := rfl
@[simp] theorem Chip.modChan_hand (c : Chip) (n : Nat) (f : Chan → Chan) : (c.modChan n f).hand = c.hand := rfl
@[simp] theorem Chip.modChan_sess (c : Chip) (n : Nat) (f : Chan → Chan) : (c.modChan n f).sess = c.sess := rfl
@[simp] theorem Chip.modNv_grade (c : Chip) (f : NvUnit → NvUnit) : (c.modNv f).grade = c.grade := rfl
@[simp] theorem Chip.modNv_objs (c : Chip) (f : NvUnit → NvUnit) : (c.modNv f).objs = c.objs := rfl
@[simp] theorem Chip.modNv_staged (c : Chip) (f : NvUnit → NvUnit) : (c.modNv f).staged = c.staged := rfl
@[simp] theorem Chip.modNv_free (c : Chip) (f : NvUnit → NvUnit) : (c.modNv f).free = c.free := rfl
@[simp] theorem Chip.modNv_time (c : Chip) (f : NvUnit → NvUnit) : (c.modNv f).time = c.time := rfl
@[simp] theorem Chip.modNv_cands (c : Chip) (f : NvUnit → NvUnit) : (c.modNv f).cands = c.cands := rfl
@[simp] theorem Chip.modNv_tod (c : Chip) (f : NvUnit → NvUnit) : (c.modNv f).tod = c.tod := rfl
@[simp] theorem Chip.modNv_tdc (c : Chip) (f : NvUnit → NvUnit) : (c.modNv f).tdc = c.tdc := rfl
@[simp] theorem Chip.modNv_chans (c : Chip) (f : NvUnit → NvUnit) : (c.modNv f).chans = c.chans := rfl
@[simp] theorem Chip.modNv_nv (c : Chip) (f : NvUnit → NvUnit) : (c.modNv f).nv = f c.nv := rfl
@[simp] theorem Chip.modNv_faults (c : Chip) (f : NvUnit → NvUnit) : (c.modNv f).faults = c.faults := rfl
@[simp] theorem Chip.modNv_power (c : Chip) (f : NvUnit → NvUnit) : (c.modNv f).power = c.power := rfl
@[simp] theorem Chip.modNv_tpp (c : Chip) (f : NvUnit → NvUnit) : (c.modNv f).tpp = c.tpp := rfl
@[simp] theorem Chip.modNv_sec (c : Chip) (f : NvUnit → NvUnit) : (c.modNv f).sec = c.sec := rfl
@[simp] theorem Chip.modNv_start (c : Chip) (f : NvUnit → NvUnit) : (c.modNv f).start = c.start := rfl
@[simp] theorem Chip.modNv_panel (c : Chip) (f : NvUnit → NvUnit) : (c.modNv f).panel = c.panel := rfl
@[simp] theorem Chip.modNv_synth (c : Chip) (f : NvUnit → NvUnit) : (c.modNv f).synth = c.synth := rfl
@[simp] theorem Chip.modNv_ttus (c : Chip) (f : NvUnit → NvUnit) : (c.modNv f).ttus = c.ttus := rfl
@[simp] theorem Chip.modNv_ports (c : Chip) (f : NvUnit → NvUnit) : (c.modNv f).ports = c.ports := rfl
@[simp] theorem Chip.modNv_hand (c : Chip) (f : NvUnit → NvUnit) : (c.modNv f).hand = c.hand := rfl
@[simp] theorem Chip.modNv_sess (c : Chip) (f : NvUnit → NvUnit) : (c.modNv f).sess = c.sess := rfl
@[simp] theorem Chip.modMinute_grade (c : Chip) (f : Minute → Minute) : (c.modMinute f).grade = c.grade := rfl
@[simp] theorem Chip.modMinute_objs (c : Chip) (f : Minute → Minute) : (c.modMinute f).objs = c.objs := rfl
@[simp] theorem Chip.modMinute_staged (c : Chip) (f : Minute → Minute) : (c.modMinute f).staged = c.staged := rfl
@[simp] theorem Chip.modMinute_free (c : Chip) (f : Minute → Minute) : (c.modMinute f).free = c.free := rfl
@[simp] theorem Chip.modMinute_time (c : Chip) (f : Minute → Minute) : (c.modMinute f).time = c.time := rfl
@[simp] theorem Chip.modMinute_cands (c : Chip) (f : Minute → Minute) : (c.modMinute f).cands = c.cands := rfl
@[simp] theorem Chip.modMinute_tod (c : Chip) (f : Minute → Minute) : (c.modMinute f).tod = c.tod := rfl
@[simp] theorem Chip.modMinute_tdc (c : Chip) (f : Minute → Minute) : (c.modMinute f).tdc = c.tdc := rfl
@[simp] theorem Chip.modMinute_chans (c : Chip) (f : Minute → Minute) : (c.modMinute f).chans = c.chans := rfl
@[simp] theorem Chip.modMinute_faults (c : Chip) (f : Minute → Minute) : (c.modMinute f).faults = c.faults := rfl
@[simp] theorem Chip.modMinute_power (c : Chip) (f : Minute → Minute) : (c.modMinute f).power = c.power := rfl
@[simp] theorem Chip.modMinute_tpp (c : Chip) (f : Minute → Minute) : (c.modMinute f).tpp = c.tpp := rfl
@[simp] theorem Chip.modMinute_sec (c : Chip) (f : Minute → Minute) : (c.modMinute f).sec = c.sec := rfl
@[simp] theorem Chip.modMinute_start (c : Chip) (f : Minute → Minute) : (c.modMinute f).start = c.start := rfl
@[simp] theorem Chip.modMinute_panel (c : Chip) (f : Minute → Minute) : (c.modMinute f).panel = c.panel := rfl
@[simp] theorem Chip.modMinute_synth (c : Chip) (f : Minute → Minute) : (c.modMinute f).synth = c.synth := rfl
@[simp] theorem Chip.modMinute_ttus (c : Chip) (f : Minute → Minute) : (c.modMinute f).ttus = c.ttus := rfl
@[simp] theorem Chip.modMinute_ports (c : Chip) (f : Minute → Minute) : (c.modMinute f).ports = c.ports := rfl
@[simp] theorem Chip.modMinute_hand (c : Chip) (f : Minute → Minute) : (c.modMinute f).hand = c.hand := rfl
@[simp] theorem Chip.modMinute_sess (c : Chip) (f : Minute → Minute) : (c.modMinute f).sess = c.sess := rfl
@[simp] theorem Chip.modSrc_grade (c : Chip) (n : Nat) (f : Src → Src) : (c.modSrc n f).grade = c.grade := rfl
@[simp] theorem Chip.modSrc_objs (c : Chip) (n : Nat) (f : Src → Src) : (c.modSrc n f).objs = c.objs := rfl
@[simp] theorem Chip.modSrc_staged (c : Chip) (n : Nat) (f : Src → Src) : (c.modSrc n f).staged = c.staged := rfl
@[simp] theorem Chip.modSrc_free (c : Chip) (n : Nat) (f : Src → Src) : (c.modSrc n f).free = c.free := rfl
@[simp] theorem Chip.modSrc_time (c : Chip) (n : Nat) (f : Src → Src) : (c.modSrc n f).time = c.time := rfl
@[simp] theorem Chip.modSrc_cands (c : Chip) (n : Nat) (f : Src → Src) : (c.modSrc n f).cands = c.cands := rfl
@[simp] theorem Chip.modSrc_tod (c : Chip) (n : Nat) (f : Src → Src) : (c.modSrc n f).tod = c.tod := rfl
@[simp] theorem Chip.modSrc_tdc (c : Chip) (n : Nat) (f : Src → Src) : (c.modSrc n f).tdc = c.tdc := rfl
@[simp] theorem Chip.modSrc_chans (c : Chip) (n : Nat) (f : Src → Src) : (c.modSrc n f).chans = c.chans := rfl
@[simp] theorem Chip.modSrc_nv (c : Chip) (n : Nat) (f : Src → Src) : (c.modSrc n f).nv = c.nv := rfl
@[simp] theorem Chip.modSrc_power (c : Chip) (n : Nat) (f : Src → Src) : (c.modSrc n f).power = c.power := rfl
@[simp] theorem Chip.modSrc_tpp (c : Chip) (n : Nat) (f : Src → Src) : (c.modSrc n f).tpp = c.tpp := rfl
@[simp] theorem Chip.modSrc_sec (c : Chip) (n : Nat) (f : Src → Src) : (c.modSrc n f).sec = c.sec := rfl
@[simp] theorem Chip.modSrc_start (c : Chip) (n : Nat) (f : Src → Src) : (c.modSrc n f).start = c.start := rfl
@[simp] theorem Chip.modSrc_panel (c : Chip) (n : Nat) (f : Src → Src) : (c.modSrc n f).panel = c.panel := rfl
@[simp] theorem Chip.modSrc_synth (c : Chip) (n : Nat) (f : Src → Src) : (c.modSrc n f).synth = c.synth := rfl
@[simp] theorem Chip.modSrc_ttus (c : Chip) (n : Nat) (f : Src → Src) : (c.modSrc n f).ttus = c.ttus := rfl
@[simp] theorem Chip.modSrc_ports (c : Chip) (n : Nat) (f : Src → Src) : (c.modSrc n f).ports = c.ports := rfl
@[simp] theorem Chip.modSrc_hand (c : Chip) (n : Nat) (f : Src → Src) : (c.modSrc n f).hand = c.hand := rfl
@[simp] theorem Chip.modSrc_sess (c : Chip) (n : Nat) (f : Src → Src) : (c.modSrc n f).sess = c.sess := rfl
@[simp] theorem Chip.modStart_grade (c : Chip) (f : StartUnit → StartUnit) : (c.modStart f).grade = c.grade := rfl
@[simp] theorem Chip.modStart_objs (c : Chip) (f : StartUnit → StartUnit) : (c.modStart f).objs = c.objs := rfl
@[simp] theorem Chip.modStart_staged (c : Chip) (f : StartUnit → StartUnit) : (c.modStart f).staged = c.staged := rfl
@[simp] theorem Chip.modStart_free (c : Chip) (f : StartUnit → StartUnit) : (c.modStart f).free = c.free := rfl
@[simp] theorem Chip.modStart_time (c : Chip) (f : StartUnit → StartUnit) : (c.modStart f).time = c.time := rfl
@[simp] theorem Chip.modStart_cands (c : Chip) (f : StartUnit → StartUnit) : (c.modStart f).cands = c.cands := rfl
@[simp] theorem Chip.modStart_tod (c : Chip) (f : StartUnit → StartUnit) : (c.modStart f).tod = c.tod := rfl
@[simp] theorem Chip.modStart_tdc (c : Chip) (f : StartUnit → StartUnit) : (c.modStart f).tdc = c.tdc := rfl
@[simp] theorem Chip.modStart_chans (c : Chip) (f : StartUnit → StartUnit) : (c.modStart f).chans = c.chans := rfl
@[simp] theorem Chip.modStart_nv (c : Chip) (f : StartUnit → StartUnit) : (c.modStart f).nv = c.nv := rfl
@[simp] theorem Chip.modStart_faults (c : Chip) (f : StartUnit → StartUnit) : (c.modStart f).faults = c.faults := rfl
@[simp] theorem Chip.modStart_power (c : Chip) (f : StartUnit → StartUnit) : (c.modStart f).power = c.power := rfl
@[simp] theorem Chip.modStart_tpp (c : Chip) (f : StartUnit → StartUnit) : (c.modStart f).tpp = c.tpp := rfl
@[simp] theorem Chip.modStart_sec (c : Chip) (f : StartUnit → StartUnit) : (c.modStart f).sec = c.sec := rfl
@[simp] theorem Chip.modStart_start (c : Chip) (f : StartUnit → StartUnit) : (c.modStart f).start = f c.start := rfl
@[simp] theorem Chip.modStart_panel (c : Chip) (f : StartUnit → StartUnit) : (c.modStart f).panel = c.panel := rfl
@[simp] theorem Chip.modStart_synth (c : Chip) (f : StartUnit → StartUnit) : (c.modStart f).synth = c.synth := rfl
@[simp] theorem Chip.modStart_ttus (c : Chip) (f : StartUnit → StartUnit) : (c.modStart f).ttus = c.ttus := rfl
@[simp] theorem Chip.modStart_ports (c : Chip) (f : StartUnit → StartUnit) : (c.modStart f).ports = c.ports := rfl
@[simp] theorem Chip.modStart_hand (c : Chip) (f : StartUnit → StartUnit) : (c.modStart f).hand = c.hand := rfl
@[simp] theorem Chip.modStart_sess (c : Chip) (f : StartUnit → StartUnit) : (c.modStart f).sess = c.sess := rfl
@[simp] theorem Chip.modPower_grade (c : Chip) (f : PowerUnit → PowerUnit) : (c.modPower f).grade = c.grade := rfl
@[simp] theorem Chip.modPower_objs (c : Chip) (f : PowerUnit → PowerUnit) : (c.modPower f).objs = c.objs := rfl
@[simp] theorem Chip.modPower_staged (c : Chip) (f : PowerUnit → PowerUnit) : (c.modPower f).staged = c.staged := rfl
@[simp] theorem Chip.modPower_free (c : Chip) (f : PowerUnit → PowerUnit) : (c.modPower f).free = c.free := rfl
@[simp] theorem Chip.modPower_time (c : Chip) (f : PowerUnit → PowerUnit) : (c.modPower f).time = c.time := rfl
@[simp] theorem Chip.modPower_cands (c : Chip) (f : PowerUnit → PowerUnit) : (c.modPower f).cands = c.cands := rfl
@[simp] theorem Chip.modPower_tod (c : Chip) (f : PowerUnit → PowerUnit) : (c.modPower f).tod = c.tod := rfl
@[simp] theorem Chip.modPower_tdc (c : Chip) (f : PowerUnit → PowerUnit) : (c.modPower f).tdc = c.tdc := rfl
@[simp] theorem Chip.modPower_chans (c : Chip) (f : PowerUnit → PowerUnit) : (c.modPower f).chans = c.chans := rfl
@[simp] theorem Chip.modPower_nv (c : Chip) (f : PowerUnit → PowerUnit) : (c.modPower f).nv = c.nv := rfl
@[simp] theorem Chip.modPower_faults (c : Chip) (f : PowerUnit → PowerUnit) : (c.modPower f).faults = c.faults := rfl
@[simp] theorem Chip.modPower_power (c : Chip) (f : PowerUnit → PowerUnit) : (c.modPower f).power = f c.power := rfl
@[simp] theorem Chip.modPower_tpp (c : Chip) (f : PowerUnit → PowerUnit) : (c.modPower f).tpp = c.tpp := rfl
@[simp] theorem Chip.modPower_sec (c : Chip) (f : PowerUnit → PowerUnit) : (c.modPower f).sec = c.sec := rfl
@[simp] theorem Chip.modPower_start (c : Chip) (f : PowerUnit → PowerUnit) : (c.modPower f).start = c.start := rfl
@[simp] theorem Chip.modPower_panel (c : Chip) (f : PowerUnit → PowerUnit) : (c.modPower f).panel = c.panel := rfl
@[simp] theorem Chip.modPower_synth (c : Chip) (f : PowerUnit → PowerUnit) : (c.modPower f).synth = c.synth := rfl
@[simp] theorem Chip.modPower_ttus (c : Chip) (f : PowerUnit → PowerUnit) : (c.modPower f).ttus = c.ttus := rfl
@[simp] theorem Chip.modPower_ports (c : Chip) (f : PowerUnit → PowerUnit) : (c.modPower f).ports = c.ports := rfl
@[simp] theorem Chip.modPower_hand (c : Chip) (f : PowerUnit → PowerUnit) : (c.modPower f).hand = c.hand := rfl
@[simp] theorem Chip.modPower_sess (c : Chip) (f : PowerUnit → PowerUnit) : (c.modPower f).sess = c.sess := rfl
@[simp] theorem Chip.modSec_grade (c : Chip) (f : SecUnit → SecUnit) : (c.modSec f).grade = c.grade := rfl
@[simp] theorem Chip.modSec_objs (c : Chip) (f : SecUnit → SecUnit) : (c.modSec f).objs = c.objs := rfl
@[simp] theorem Chip.modSec_staged (c : Chip) (f : SecUnit → SecUnit) : (c.modSec f).staged = c.staged := rfl
@[simp] theorem Chip.modSec_free (c : Chip) (f : SecUnit → SecUnit) : (c.modSec f).free = c.free := rfl
@[simp] theorem Chip.modSec_time (c : Chip) (f : SecUnit → SecUnit) : (c.modSec f).time = c.time := rfl
@[simp] theorem Chip.modSec_cands (c : Chip) (f : SecUnit → SecUnit) : (c.modSec f).cands = c.cands := rfl
@[simp] theorem Chip.modSec_tod (c : Chip) (f : SecUnit → SecUnit) : (c.modSec f).tod = c.tod := rfl
@[simp] theorem Chip.modSec_tdc (c : Chip) (f : SecUnit → SecUnit) : (c.modSec f).tdc = c.tdc := rfl
@[simp] theorem Chip.modSec_chans (c : Chip) (f : SecUnit → SecUnit) : (c.modSec f).chans = c.chans := rfl
@[simp] theorem Chip.modSec_nv (c : Chip) (f : SecUnit → SecUnit) : (c.modSec f).nv = c.nv := rfl
@[simp] theorem Chip.modSec_faults (c : Chip) (f : SecUnit → SecUnit) : (c.modSec f).faults = c.faults := rfl
@[simp] theorem Chip.modSec_power (c : Chip) (f : SecUnit → SecUnit) : (c.modSec f).power = c.power := rfl
@[simp] theorem Chip.modSec_tpp (c : Chip) (f : SecUnit → SecUnit) : (c.modSec f).tpp = c.tpp := rfl
@[simp] theorem Chip.modSec_sec (c : Chip) (f : SecUnit → SecUnit) : (c.modSec f).sec = f c.sec := rfl
@[simp] theorem Chip.modSec_start (c : Chip) (f : SecUnit → SecUnit) : (c.modSec f).start = c.start := rfl
@[simp] theorem Chip.modSec_panel (c : Chip) (f : SecUnit → SecUnit) : (c.modSec f).panel = c.panel := rfl
@[simp] theorem Chip.modSec_synth (c : Chip) (f : SecUnit → SecUnit) : (c.modSec f).synth = c.synth := rfl
@[simp] theorem Chip.modSec_ttus (c : Chip) (f : SecUnit → SecUnit) : (c.modSec f).ttus = c.ttus := rfl
@[simp] theorem Chip.modSec_ports (c : Chip) (f : SecUnit → SecUnit) : (c.modSec f).ports = c.ports := rfl
@[simp] theorem Chip.modSec_hand (c : Chip) (f : SecUnit → SecUnit) : (c.modSec f).hand = c.hand := rfl
@[simp] theorem Chip.modSec_sess (c : Chip) (f : SecUnit → SecUnit) : (c.modSec f).sess = c.sess := rfl
@[simp] theorem Chip.modTpp_grade (c : Chip) (f : TppUnit → TppUnit) : (c.modTpp f).grade = c.grade := rfl
@[simp] theorem Chip.modTpp_objs (c : Chip) (f : TppUnit → TppUnit) : (c.modTpp f).objs = c.objs := rfl
@[simp] theorem Chip.modTpp_staged (c : Chip) (f : TppUnit → TppUnit) : (c.modTpp f).staged = c.staged := rfl
@[simp] theorem Chip.modTpp_free (c : Chip) (f : TppUnit → TppUnit) : (c.modTpp f).free = c.free := rfl
@[simp] theorem Chip.modTpp_time (c : Chip) (f : TppUnit → TppUnit) : (c.modTpp f).time = c.time := rfl
@[simp] theorem Chip.modTpp_cands (c : Chip) (f : TppUnit → TppUnit) : (c.modTpp f).cands = c.cands := rfl
@[simp] theorem Chip.modTpp_tod (c : Chip) (f : TppUnit → TppUnit) : (c.modTpp f).tod = c.tod := rfl
@[simp] theorem Chip.modTpp_tdc (c : Chip) (f : TppUnit → TppUnit) : (c.modTpp f).tdc = c.tdc := rfl
@[simp] theorem Chip.modTpp_chans (c : Chip) (f : TppUnit → TppUnit) : (c.modTpp f).chans = c.chans := rfl
@[simp] theorem Chip.modTpp_nv (c : Chip) (f : TppUnit → TppUnit) : (c.modTpp f).nv = c.nv := rfl
@[simp] theorem Chip.modTpp_faults (c : Chip) (f : TppUnit → TppUnit) : (c.modTpp f).faults = c.faults := rfl
@[simp] theorem Chip.modTpp_power (c : Chip) (f : TppUnit → TppUnit) : (c.modTpp f).power = c.power := rfl
@[simp] theorem Chip.modTpp_tpp (c : Chip) (f : TppUnit → TppUnit) : (c.modTpp f).tpp = f c.tpp := rfl
@[simp] theorem Chip.modTpp_sec (c : Chip) (f : TppUnit → TppUnit) : (c.modTpp f).sec = c.sec := rfl
@[simp] theorem Chip.modTpp_start (c : Chip) (f : TppUnit → TppUnit) : (c.modTpp f).start = c.start := rfl
@[simp] theorem Chip.modTpp_panel (c : Chip) (f : TppUnit → TppUnit) : (c.modTpp f).panel = c.panel := rfl
@[simp] theorem Chip.modTpp_synth (c : Chip) (f : TppUnit → TppUnit) : (c.modTpp f).synth = c.synth := rfl
@[simp] theorem Chip.modTpp_ttus (c : Chip) (f : TppUnit → TppUnit) : (c.modTpp f).ttus = c.ttus := rfl
@[simp] theorem Chip.modTpp_ports (c : Chip) (f : TppUnit → TppUnit) : (c.modTpp f).ports = c.ports := rfl
@[simp] theorem Chip.modTpp_hand (c : Chip) (f : TppUnit → TppUnit) : (c.modTpp f).hand = c.hand := rfl
@[simp] theorem Chip.modTpp_sess (c : Chip) (f : TppUnit → TppUnit) : (c.modTpp f).sess = c.sess := rfl
@[simp] theorem Chip.modPeer_grade (c : Chip) (n : Nat) (f : Peer → Peer) : (c.modPeer n f).grade = c.grade := rfl
@[simp] theorem Chip.modPeer_objs (c : Chip) (n : Nat) (f : Peer → Peer) : (c.modPeer n f).objs = c.objs := rfl
@[simp] theorem Chip.modPeer_staged (c : Chip) (n : Nat) (f : Peer → Peer) : (c.modPeer n f).staged = c.staged := rfl
@[simp] theorem Chip.modPeer_free (c : Chip) (n : Nat) (f : Peer → Peer) : (c.modPeer n f).free = c.free := rfl
@[simp] theorem Chip.modPeer_time (c : Chip) (n : Nat) (f : Peer → Peer) : (c.modPeer n f).time = c.time := rfl
@[simp] theorem Chip.modPeer_cands (c : Chip) (n : Nat) (f : Peer → Peer) : (c.modPeer n f).cands = c.cands := rfl
@[simp] theorem Chip.modPeer_tod (c : Chip) (n : Nat) (f : Peer → Peer) : (c.modPeer n f).tod = c.tod := rfl
@[simp] theorem Chip.modPeer_tdc (c : Chip) (n : Nat) (f : Peer → Peer) : (c.modPeer n f).tdc = c.tdc := rfl
@[simp] theorem Chip.modPeer_chans (c : Chip) (n : Nat) (f : Peer → Peer) : (c.modPeer n f).chans = c.chans := rfl
@[simp] theorem Chip.modPeer_nv (c : Chip) (n : Nat) (f : Peer → Peer) : (c.modPeer n f).nv = c.nv := rfl
@[simp] theorem Chip.modPeer_faults (c : Chip) (n : Nat) (f : Peer → Peer) : (c.modPeer n f).faults = c.faults := rfl
@[simp] theorem Chip.modPeer_power (c : Chip) (n : Nat) (f : Peer → Peer) : (c.modPeer n f).power = c.power := rfl
@[simp] theorem Chip.modPeer_sec (c : Chip) (n : Nat) (f : Peer → Peer) : (c.modPeer n f).sec = c.sec := rfl
@[simp] theorem Chip.modPeer_start (c : Chip) (n : Nat) (f : Peer → Peer) : (c.modPeer n f).start = c.start := rfl
@[simp] theorem Chip.modPeer_panel (c : Chip) (n : Nat) (f : Peer → Peer) : (c.modPeer n f).panel = c.panel := rfl
@[simp] theorem Chip.modPeer_synth (c : Chip) (n : Nat) (f : Peer → Peer) : (c.modPeer n f).synth = c.synth := rfl
@[simp] theorem Chip.modPeer_ttus (c : Chip) (n : Nat) (f : Peer → Peer) : (c.modPeer n f).ttus = c.ttus := rfl
@[simp] theorem Chip.modPeer_ports (c : Chip) (n : Nat) (f : Peer → Peer) : (c.modPeer n f).ports = c.ports := rfl
@[simp] theorem Chip.modPeer_hand (c : Chip) (n : Nat) (f : Peer → Peer) : (c.modPeer n f).hand = c.hand := rfl
@[simp] theorem Chip.modPeer_sess (c : Chip) (n : Nat) (f : Peer → Peer) : (c.modPeer n f).sess = c.sess := rfl
@[simp] theorem Chip.modSess_grade (c : Chip) (f : SessionUnit → SessionUnit) : (c.modSess f).grade = c.grade := rfl
@[simp] theorem Chip.modSess_objs (c : Chip) (f : SessionUnit → SessionUnit) : (c.modSess f).objs = c.objs := rfl
@[simp] theorem Chip.modSess_staged (c : Chip) (f : SessionUnit → SessionUnit) : (c.modSess f).staged = c.staged := rfl
@[simp] theorem Chip.modSess_free (c : Chip) (f : SessionUnit → SessionUnit) : (c.modSess f).free = c.free := rfl
@[simp] theorem Chip.modSess_time (c : Chip) (f : SessionUnit → SessionUnit) : (c.modSess f).time = c.time := rfl
@[simp] theorem Chip.modSess_cands (c : Chip) (f : SessionUnit → SessionUnit) : (c.modSess f).cands = c.cands := rfl
@[simp] theorem Chip.modSess_tod (c : Chip) (f : SessionUnit → SessionUnit) : (c.modSess f).tod = c.tod := rfl
@[simp] theorem Chip.modSess_tdc (c : Chip) (f : SessionUnit → SessionUnit) : (c.modSess f).tdc = c.tdc := rfl
@[simp] theorem Chip.modSess_chans (c : Chip) (f : SessionUnit → SessionUnit) : (c.modSess f).chans = c.chans := rfl
@[simp] theorem Chip.modSess_nv (c : Chip) (f : SessionUnit → SessionUnit) : (c.modSess f).nv = c.nv := rfl
@[simp] theorem Chip.modSess_faults (c : Chip) (f : SessionUnit → SessionUnit) : (c.modSess f).faults = c.faults := rfl
@[simp] theorem Chip.modSess_power (c : Chip) (f : SessionUnit → SessionUnit) : (c.modSess f).power = c.power := rfl
@[simp] theorem Chip.modSess_tpp (c : Chip) (f : SessionUnit → SessionUnit) : (c.modSess f).tpp = c.tpp := rfl
@[simp] theorem Chip.modSess_sec (c : Chip) (f : SessionUnit → SessionUnit) : (c.modSess f).sec = c.sec := rfl
@[simp] theorem Chip.modSess_start (c : Chip) (f : SessionUnit → SessionUnit) : (c.modSess f).start = c.start := rfl
@[simp] theorem Chip.modSess_panel (c : Chip) (f : SessionUnit → SessionUnit) : (c.modSess f).panel = c.panel := rfl
@[simp] theorem Chip.modSess_synth (c : Chip) (f : SessionUnit → SessionUnit) : (c.modSess f).synth = c.synth := rfl
@[simp] theorem Chip.modSess_ttus (c : Chip) (f : SessionUnit → SessionUnit) : (c.modSess f).ttus = c.ttus := rfl
@[simp] theorem Chip.modSess_ports (c : Chip) (f : SessionUnit → SessionUnit) : (c.modSess f).ports = c.ports := rfl
@[simp] theorem Chip.modSess_hand (c : Chip) (f : SessionUnit → SessionUnit) : (c.modSess f).hand = c.hand := rfl
@[simp] theorem Chip.modSess_sess (c : Chip) (f : SessionUnit → SessionUnit) : (c.modSess f).sess = f c.sess := rfl
@[simp] theorem Chip.modServo_grade (c : Chip) (n : Nat) (f : Servo → Servo) : (c.modServo n f).grade = c.grade := rfl
@[simp] theorem Chip.modServo_objs (c : Chip) (n : Nat) (f : Servo → Servo) : (c.modServo n f).objs = c.objs := rfl
@[simp] theorem Chip.modServo_staged (c : Chip) (n : Nat) (f : Servo → Servo) : (c.modServo n f).staged = c.staged := rfl
@[simp] theorem Chip.modServo_free (c : Chip) (n : Nat) (f : Servo → Servo) : (c.modServo n f).free = c.free := rfl
@[simp] theorem Chip.modServo_time (c : Chip) (n : Nat) (f : Servo → Servo) : (c.modServo n f).time = c.time := rfl
@[simp] theorem Chip.modServo_cands (c : Chip) (n : Nat) (f : Servo → Servo) : (c.modServo n f).cands = c.cands := rfl
@[simp] theorem Chip.modServo_tod (c : Chip) (n : Nat) (f : Servo → Servo) : (c.modServo n f).tod = c.tod := rfl
@[simp] theorem Chip.modServo_tdc (c : Chip) (n : Nat) (f : Servo → Servo) : (c.modServo n f).tdc = c.tdc := rfl
@[simp] theorem Chip.modServo_chans (c : Chip) (n : Nat) (f : Servo → Servo) : (c.modServo n f).chans = c.chans := rfl
@[simp] theorem Chip.modServo_nv (c : Chip) (n : Nat) (f : Servo → Servo) : (c.modServo n f).nv = c.nv := rfl
@[simp] theorem Chip.modServo_faults (c : Chip) (n : Nat) (f : Servo → Servo) : (c.modServo n f).faults = c.faults := rfl
@[simp] theorem Chip.modServo_power (c : Chip) (n : Nat) (f : Servo → Servo) : (c.modServo n f).power = c.power := rfl
@[simp] theorem Chip.modServo_tpp (c : Chip) (n : Nat) (f : Servo → Servo) : (c.modServo n f).tpp = c.tpp := rfl
@[simp] theorem Chip.modServo_sec (c : Chip) (n : Nat) (f : Servo → Servo) : (c.modServo n f).sec = c.sec := rfl
@[simp] theorem Chip.modServo_start (c : Chip) (n : Nat) (f : Servo → Servo) : (c.modServo n f).start = c.start := rfl
@[simp] theorem Chip.modServo_panel (c : Chip) (n : Nat) (f : Servo → Servo) : (c.modServo n f).panel = c.panel := rfl
@[simp] theorem Chip.modServo_synth (c : Chip) (n : Nat) (f : Servo → Servo) : (c.modServo n f).synth = c.synth := rfl
@[simp] theorem Chip.modServo_ttus (c : Chip) (n : Nat) (f : Servo → Servo) : (c.modServo n f).ttus = c.ttus := rfl
@[simp] theorem Chip.modServo_ports (c : Chip) (n : Nat) (f : Servo → Servo) : (c.modServo n f).ports = c.ports := rfl
@[simp] theorem Chip.modServo_hand (c : Chip) (n : Nat) (f : Servo → Servo) : (c.modServo n f).hand = c.hand := rfl
@[simp] theorem Chip.modPort_grade (c : Chip) (n : Nat) (f : Port → Port) : (c.modPort n f).grade = c.grade := rfl
@[simp] theorem Chip.modPort_objs (c : Chip) (n : Nat) (f : Port → Port) : (c.modPort n f).objs = c.objs := rfl
@[simp] theorem Chip.modPort_staged (c : Chip) (n : Nat) (f : Port → Port) : (c.modPort n f).staged = c.staged := rfl
@[simp] theorem Chip.modPort_free (c : Chip) (n : Nat) (f : Port → Port) : (c.modPort n f).free = c.free := rfl
@[simp] theorem Chip.modPort_time (c : Chip) (n : Nat) (f : Port → Port) : (c.modPort n f).time = c.time := rfl
@[simp] theorem Chip.modPort_cands (c : Chip) (n : Nat) (f : Port → Port) : (c.modPort n f).cands = c.cands := rfl
@[simp] theorem Chip.modPort_tod (c : Chip) (n : Nat) (f : Port → Port) : (c.modPort n f).tod = c.tod := rfl
@[simp] theorem Chip.modPort_tdc (c : Chip) (n : Nat) (f : Port → Port) : (c.modPort n f).tdc = c.tdc := rfl
@[simp] theorem Chip.modPort_chans (c : Chip) (n : Nat) (f : Port → Port) : (c.modPort n f).chans = c.chans := rfl
@[simp] theorem Chip.modPort_nv (c : Chip) (n : Nat) (f : Port → Port) : (c.modPort n f).nv = c.nv := rfl
@[simp] theorem Chip.modPort_faults (c : Chip) (n : Nat) (f : Port → Port) : (c.modPort n f).faults = c.faults := rfl
@[simp] theorem Chip.modPort_power (c : Chip) (n : Nat) (f : Port → Port) : (c.modPort n f).power = c.power := rfl
@[simp] theorem Chip.modPort_tpp (c : Chip) (n : Nat) (f : Port → Port) : (c.modPort n f).tpp = c.tpp := rfl
@[simp] theorem Chip.modPort_sec (c : Chip) (n : Nat) (f : Port → Port) : (c.modPort n f).sec = c.sec := rfl
@[simp] theorem Chip.modPort_start (c : Chip) (n : Nat) (f : Port → Port) : (c.modPort n f).start = c.start := rfl
@[simp] theorem Chip.modPort_panel (c : Chip) (n : Nat) (f : Port → Port) : (c.modPort n f).panel = c.panel := rfl
@[simp] theorem Chip.modPort_synth (c : Chip) (n : Nat) (f : Port → Port) : (c.modPort n f).synth = c.synth := rfl
@[simp] theorem Chip.modPort_ttus (c : Chip) (n : Nat) (f : Port → Port) : (c.modPort n f).ttus = c.ttus := rfl
@[simp] theorem Chip.modPort_ports (c : Chip) (n : Nat) (f : Port → Port) : (c.modPort n f).ports = modNth c.ports n f := rfl
@[simp] theorem Chip.modPort_hand (c : Chip) (n : Nat) (f : Port → Port) : (c.modPort n f).hand = c.hand := rfl
@[simp] theorem Chip.modPort_sess (c : Chip) (n : Nat) (f : Port → Port) : (c.modPort n f).sess = c.sess := rfl
@[simp] theorem Chip.modHand_grade (c : Chip) (f : HandUnit → HandUnit) : (c.modHand f).grade = c.grade := rfl
@[simp] theorem Chip.modHand_objs (c : Chip) (f : HandUnit → HandUnit) : (c.modHand f).objs = c.objs := rfl
@[simp] theorem Chip.modHand_staged (c : Chip) (f : HandUnit → HandUnit) : (c.modHand f).staged = c.staged := rfl
@[simp] theorem Chip.modHand_free (c : Chip) (f : HandUnit → HandUnit) : (c.modHand f).free = c.free := rfl
@[simp] theorem Chip.modHand_time (c : Chip) (f : HandUnit → HandUnit) : (c.modHand f).time = c.time := rfl
@[simp] theorem Chip.modHand_cands (c : Chip) (f : HandUnit → HandUnit) : (c.modHand f).cands = c.cands := rfl
@[simp] theorem Chip.modHand_tod (c : Chip) (f : HandUnit → HandUnit) : (c.modHand f).tod = c.tod := rfl
@[simp] theorem Chip.modHand_tdc (c : Chip) (f : HandUnit → HandUnit) : (c.modHand f).tdc = c.tdc := rfl
@[simp] theorem Chip.modHand_chans (c : Chip) (f : HandUnit → HandUnit) : (c.modHand f).chans = c.chans := rfl
@[simp] theorem Chip.modHand_nv (c : Chip) (f : HandUnit → HandUnit) : (c.modHand f).nv = c.nv := rfl
@[simp] theorem Chip.modHand_faults (c : Chip) (f : HandUnit → HandUnit) : (c.modHand f).faults = c.faults := rfl
@[simp] theorem Chip.modHand_power (c : Chip) (f : HandUnit → HandUnit) : (c.modHand f).power = c.power := rfl
@[simp] theorem Chip.modHand_tpp (c : Chip) (f : HandUnit → HandUnit) : (c.modHand f).tpp = c.tpp := rfl
@[simp] theorem Chip.modHand_sec (c : Chip) (f : HandUnit → HandUnit) : (c.modHand f).sec = c.sec := rfl
@[simp] theorem Chip.modHand_start (c : Chip) (f : HandUnit → HandUnit) : (c.modHand f).start = c.start := rfl
@[simp] theorem Chip.modHand_panel (c : Chip) (f : HandUnit → HandUnit) : (c.modHand f).panel = c.panel := rfl
@[simp] theorem Chip.modHand_synth (c : Chip) (f : HandUnit → HandUnit) : (c.modHand f).synth = c.synth := rfl
@[simp] theorem Chip.modHand_ttus (c : Chip) (f : HandUnit → HandUnit) : (c.modHand f).ttus = c.ttus := rfl
@[simp] theorem Chip.modHand_ports (c : Chip) (f : HandUnit → HandUnit) : (c.modHand f).ports = c.ports := rfl
@[simp] theorem Chip.modHand_hand (c : Chip) (f : HandUnit → HandUnit) : (c.modHand f).hand = f c.hand := rfl
@[simp] theorem Chip.modHand_sess (c : Chip) (f : HandUnit → HandUnit) : (c.modHand f).sess = c.sess := rfl
@[simp] theorem Chip.modPanel_grade (c : Chip) (f : PanelUnit → PanelUnit) : (c.modPanel f).grade = c.grade := rfl
@[simp] theorem Chip.modPanel_objs (c : Chip) (f : PanelUnit → PanelUnit) : (c.modPanel f).objs = c.objs := rfl
@[simp] theorem Chip.modPanel_staged (c : Chip) (f : PanelUnit → PanelUnit) : (c.modPanel f).staged = c.staged := rfl
@[simp] theorem Chip.modPanel_free (c : Chip) (f : PanelUnit → PanelUnit) : (c.modPanel f).free = c.free := rfl
@[simp] theorem Chip.modPanel_time (c : Chip) (f : PanelUnit → PanelUnit) : (c.modPanel f).time = c.time := rfl
@[simp] theorem Chip.modPanel_cands (c : Chip) (f : PanelUnit → PanelUnit) : (c.modPanel f).cands = c.cands := rfl
@[simp] theorem Chip.modPanel_tod (c : Chip) (f : PanelUnit → PanelUnit) : (c.modPanel f).tod = c.tod := rfl
@[simp] theorem Chip.modPanel_tdc (c : Chip) (f : PanelUnit → PanelUnit) : (c.modPanel f).tdc = c.tdc := rfl
@[simp] theorem Chip.modPanel_chans (c : Chip) (f : PanelUnit → PanelUnit) : (c.modPanel f).chans = c.chans := rfl
@[simp] theorem Chip.modPanel_nv (c : Chip) (f : PanelUnit → PanelUnit) : (c.modPanel f).nv = c.nv := rfl
@[simp] theorem Chip.modPanel_faults (c : Chip) (f : PanelUnit → PanelUnit) : (c.modPanel f).faults = c.faults := rfl
@[simp] theorem Chip.modPanel_power (c : Chip) (f : PanelUnit → PanelUnit) : (c.modPanel f).power = c.power := rfl
@[simp] theorem Chip.modPanel_tpp (c : Chip) (f : PanelUnit → PanelUnit) : (c.modPanel f).tpp = c.tpp := rfl
@[simp] theorem Chip.modPanel_sec (c : Chip) (f : PanelUnit → PanelUnit) : (c.modPanel f).sec = c.sec := rfl
@[simp] theorem Chip.modPanel_start (c : Chip) (f : PanelUnit → PanelUnit) : (c.modPanel f).start = c.start := rfl
@[simp] theorem Chip.modPanel_panel (c : Chip) (f : PanelUnit → PanelUnit) : (c.modPanel f).panel = f c.panel := rfl
@[simp] theorem Chip.modPanel_synth (c : Chip) (f : PanelUnit → PanelUnit) : (c.modPanel f).synth = c.synth := rfl
@[simp] theorem Chip.modPanel_ttus (c : Chip) (f : PanelUnit → PanelUnit) : (c.modPanel f).ttus = c.ttus := rfl
@[simp] theorem Chip.modPanel_ports (c : Chip) (f : PanelUnit → PanelUnit) : (c.modPanel f).ports = c.ports := rfl
@[simp] theorem Chip.modPanel_hand (c : Chip) (f : PanelUnit → PanelUnit) : (c.modPanel f).hand = c.hand := rfl
@[simp] theorem Chip.modPanel_sess (c : Chip) (f : PanelUnit → PanelUnit) : (c.modPanel f).sess = c.sess := rfl
@[simp] theorem Chip.modFaults_grade (c : Chip) (f : FaultUnit → FaultUnit) : (c.modFaults f).grade = c.grade := rfl
@[simp] theorem Chip.modFaults_objs (c : Chip) (f : FaultUnit → FaultUnit) : (c.modFaults f).objs = c.objs := rfl
@[simp] theorem Chip.modFaults_staged (c : Chip) (f : FaultUnit → FaultUnit) : (c.modFaults f).staged = c.staged := rfl
@[simp] theorem Chip.modFaults_free (c : Chip) (f : FaultUnit → FaultUnit) : (c.modFaults f).free = c.free := rfl
@[simp] theorem Chip.modFaults_time (c : Chip) (f : FaultUnit → FaultUnit) : (c.modFaults f).time = c.time := rfl
@[simp] theorem Chip.modFaults_cands (c : Chip) (f : FaultUnit → FaultUnit) : (c.modFaults f).cands = c.cands := rfl
@[simp] theorem Chip.modFaults_tod (c : Chip) (f : FaultUnit → FaultUnit) : (c.modFaults f).tod = c.tod := rfl
@[simp] theorem Chip.modFaults_tdc (c : Chip) (f : FaultUnit → FaultUnit) : (c.modFaults f).tdc = c.tdc := rfl
@[simp] theorem Chip.modFaults_chans (c : Chip) (f : FaultUnit → FaultUnit) : (c.modFaults f).chans = c.chans := rfl
@[simp] theorem Chip.modFaults_nv (c : Chip) (f : FaultUnit → FaultUnit) : (c.modFaults f).nv = c.nv := rfl
@[simp] theorem Chip.modFaults_faults (c : Chip) (f : FaultUnit → FaultUnit) : (c.modFaults f).faults = f c.faults := rfl
@[simp] theorem Chip.modFaults_power (c : Chip) (f : FaultUnit → FaultUnit) : (c.modFaults f).power = c.power := rfl
@[simp] theorem Chip.modFaults_tpp (c : Chip) (f : FaultUnit → FaultUnit) : (c.modFaults f).tpp = c.tpp := rfl
@[simp] theorem Chip.modFaults_sec (c : Chip) (f : FaultUnit → FaultUnit) : (c.modFaults f).sec = c.sec := rfl
@[simp] theorem Chip.modFaults_start (c : Chip) (f : FaultUnit → FaultUnit) : (c.modFaults f).start = c.start := rfl
@[simp] theorem Chip.modFaults_panel (c : Chip) (f : FaultUnit → FaultUnit) : (c.modFaults f).panel = c.panel := rfl
@[simp] theorem Chip.modFaults_synth (c : Chip) (f : FaultUnit → FaultUnit) : (c.modFaults f).synth = c.synth := rfl
@[simp] theorem Chip.modFaults_ttus (c : Chip) (f : FaultUnit → FaultUnit) : (c.modFaults f).ttus = c.ttus := rfl
@[simp] theorem Chip.modFaults_ports (c : Chip) (f : FaultUnit → FaultUnit) : (c.modFaults f).ports = c.ports := rfl
@[simp] theorem Chip.modFaults_hand (c : Chip) (f : FaultUnit → FaultUnit) : (c.modFaults f).hand = c.hand := rfl
@[simp] theorem Chip.modFaults_sess (c : Chip) (f : FaultUnit → FaultUnit) : (c.modFaults f).sess = c.sess := rfl
@[simp] theorem Chip.setDom_grade (c : Chip) (d : Dom) (s : DomState) : (c.setDom d s).grade = c.grade := rfl
@[simp] theorem Chip.setDom_objs (c : Chip) (d : Dom) (s : DomState) : (c.setDom d s).objs = c.objs := rfl
@[simp] theorem Chip.setDom_staged (c : Chip) (d : Dom) (s : DomState) : (c.setDom d s).staged = c.staged := rfl
@[simp] theorem Chip.setDom_free (c : Chip) (d : Dom) (s : DomState) : (c.setDom d s).free = c.free := rfl
@[simp] theorem Chip.setDom_time (c : Chip) (d : Dom) (s : DomState) : (c.setDom d s).time = c.time := rfl
@[simp] theorem Chip.setDom_cands (c : Chip) (d : Dom) (s : DomState) : (c.setDom d s).cands = c.cands := rfl
@[simp] theorem Chip.setDom_tod (c : Chip) (d : Dom) (s : DomState) : (c.setDom d s).tod = c.tod := rfl
@[simp] theorem Chip.setDom_tdc (c : Chip) (d : Dom) (s : DomState) : (c.setDom d s).tdc = c.tdc := rfl
@[simp] theorem Chip.setDom_chans (c : Chip) (d : Dom) (s : DomState) : (c.setDom d s).chans = c.chans := rfl
@[simp] theorem Chip.setDom_nv (c : Chip) (d : Dom) (s : DomState) : (c.setDom d s).nv = c.nv := rfl
@[simp] theorem Chip.setDom_faults (c : Chip) (d : Dom) (s : DomState) : (c.setDom d s).faults = c.faults := rfl
@[simp] theorem Chip.setDom_tpp (c : Chip) (d : Dom) (s : DomState) : (c.setDom d s).tpp = c.tpp := rfl
@[simp] theorem Chip.setDom_sec (c : Chip) (d : Dom) (s : DomState) : (c.setDom d s).sec = c.sec := rfl
@[simp] theorem Chip.setDom_start (c : Chip) (d : Dom) (s : DomState) : (c.setDom d s).start = c.start := rfl
@[simp] theorem Chip.setDom_panel (c : Chip) (d : Dom) (s : DomState) : (c.setDom d s).panel = c.panel := rfl
@[simp] theorem Chip.setDom_synth (c : Chip) (d : Dom) (s : DomState) : (c.setDom d s).synth = c.synth := rfl
@[simp] theorem Chip.setDom_ttus (c : Chip) (d : Dom) (s : DomState) : (c.setDom d s).ttus = c.ttus := rfl
@[simp] theorem Chip.setDom_ports (c : Chip) (d : Dom) (s : DomState) : (c.setDom d s).ports = c.ports := rfl
@[simp] theorem Chip.setDom_hand (c : Chip) (d : Dom) (s : DomState) : (c.setDom d s).hand = c.hand := rfl
@[simp] theorem Chip.setDom_sess (c : Chip) (d : Dom) (s : DomState) : (c.setDom d s).sess = c.sess := rfl
@[simp] theorem Chip.wr_grade (c : Chip) (i s v : Nat) : (c.wr i s v).grade = c.grade := rfl
@[simp] theorem Chip.wr_staged (c : Chip) (i s v : Nat) : (c.wr i s v).staged = c.staged := rfl
@[simp] theorem Chip.wr_free (c : Chip) (i s v : Nat) : (c.wr i s v).free = c.free := rfl
@[simp] theorem Chip.wr_time (c : Chip) (i s v : Nat) : (c.wr i s v).time = c.time := rfl
@[simp] theorem Chip.wr_cands (c : Chip) (i s v : Nat) : (c.wr i s v).cands = c.cands := rfl
@[simp] theorem Chip.wr_tod (c : Chip) (i s v : Nat) : (c.wr i s v).tod = c.tod := rfl
@[simp] theorem Chip.wr_tdc (c : Chip) (i s v : Nat) : (c.wr i s v).tdc = c.tdc := rfl
@[simp] theorem Chip.wr_chans (c : Chip) (i s v : Nat) : (c.wr i s v).chans = c.chans := rfl
@[simp] theorem Chip.wr_nv (c : Chip) (i s v : Nat) : (c.wr i s v).nv = c.nv := rfl
@[simp] theorem Chip.wr_faults (c : Chip) (i s v : Nat) : (c.wr i s v).faults = c.faults := rfl
@[simp] theorem Chip.wr_power (c : Chip) (i s v : Nat) : (c.wr i s v).power = c.power := rfl
@[simp] theorem Chip.wr_tpp (c : Chip) (i s v : Nat) : (c.wr i s v).tpp = c.tpp := rfl
@[simp] theorem Chip.wr_sec (c : Chip) (i s v : Nat) : (c.wr i s v).sec = c.sec := rfl
@[simp] theorem Chip.wr_start (c : Chip) (i s v : Nat) : (c.wr i s v).start = c.start := rfl
@[simp] theorem Chip.wr_panel (c : Chip) (i s v : Nat) : (c.wr i s v).panel = c.panel := rfl
@[simp] theorem Chip.wr_synth (c : Chip) (i s v : Nat) : (c.wr i s v).synth = c.synth := rfl
@[simp] theorem Chip.wr_ttus (c : Chip) (i s v : Nat) : (c.wr i s v).ttus = c.ttus := rfl
@[simp] theorem Chip.wr_ports (c : Chip) (i s v : Nat) : (c.wr i s v).ports = c.ports := rfl
@[simp] theorem Chip.wr_hand (c : Chip) (i s v : Nat) : (c.wr i s v).hand = c.hand := rfl
@[simp] theorem Chip.wr_sess (c : Chip) (i s v : Nat) : (c.wr i s v).sess = c.sess := rfl
@[simp] theorem Chip.wrf_grade (c : Chip) (i s hi lo v : Nat) : (c.wrf i s hi lo v).grade = c.grade := rfl
@[simp] theorem Chip.wrf_staged (c : Chip) (i s hi lo v : Nat) : (c.wrf i s hi lo v).staged = c.staged := rfl
@[simp] theorem Chip.wrf_free (c : Chip) (i s hi lo v : Nat) : (c.wrf i s hi lo v).free = c.free := rfl
@[simp] theorem Chip.wrf_time (c : Chip) (i s hi lo v : Nat) : (c.wrf i s hi lo v).time = c.time := rfl
@[simp] theorem Chip.wrf_cands (c : Chip) (i s hi lo v : Nat) : (c.wrf i s hi lo v).cands = c.cands := rfl
@[simp] theorem Chip.wrf_tod (c : Chip) (i s hi lo v : Nat) : (c.wrf i s hi lo v).tod = c.tod := rfl
@[simp] theorem Chip.wrf_tdc (c : Chip) (i s hi lo v : Nat) : (c.wrf i s hi lo v).tdc = c.tdc := rfl
@[simp] theorem Chip.wrf_chans (c : Chip) (i s hi lo v : Nat) : (c.wrf i s hi lo v).chans = c.chans := rfl
@[simp] theorem Chip.wrf_nv (c : Chip) (i s hi lo v : Nat) : (c.wrf i s hi lo v).nv = c.nv := rfl
@[simp] theorem Chip.wrf_faults (c : Chip) (i s hi lo v : Nat) : (c.wrf i s hi lo v).faults = c.faults := rfl
@[simp] theorem Chip.wrf_power (c : Chip) (i s hi lo v : Nat) : (c.wrf i s hi lo v).power = c.power := rfl
@[simp] theorem Chip.wrf_tpp (c : Chip) (i s hi lo v : Nat) : (c.wrf i s hi lo v).tpp = c.tpp := rfl
@[simp] theorem Chip.wrf_sec (c : Chip) (i s hi lo v : Nat) : (c.wrf i s hi lo v).sec = c.sec := rfl
@[simp] theorem Chip.wrf_start (c : Chip) (i s hi lo v : Nat) : (c.wrf i s hi lo v).start = c.start := rfl
@[simp] theorem Chip.wrf_panel (c : Chip) (i s hi lo v : Nat) : (c.wrf i s hi lo v).panel = c.panel := rfl
@[simp] theorem Chip.wrf_synth (c : Chip) (i s hi lo v : Nat) : (c.wrf i s hi lo v).synth = c.synth := rfl
@[simp] theorem Chip.wrf_ttus (c : Chip) (i s hi lo v : Nat) : (c.wrf i s hi lo v).ttus = c.ttus := rfl
@[simp] theorem Chip.wrf_ports (c : Chip) (i s hi lo v : Nat) : (c.wrf i s hi lo v).ports = c.ports := rfl
@[simp] theorem Chip.wrf_hand (c : Chip) (i s hi lo v : Nat) : (c.wrf i s hi lo v).hand = c.hand := rfl
@[simp] theorem Chip.wrf_sess (c : Chip) (i s hi lo v : Nat) : (c.wrf i s hi lo v).sess = c.sess := rfl
@[simp] theorem Chip.wrb_grade (c : Chip) (i s k : Nat) (b : Bool) : (c.wrb i s k b).grade = c.grade := rfl
@[simp] theorem Chip.wrb_staged (c : Chip) (i s k : Nat) (b : Bool) : (c.wrb i s k b).staged = c.staged := rfl
@[simp] theorem Chip.wrb_free (c : Chip) (i s k : Nat) (b : Bool) : (c.wrb i s k b).free = c.free := rfl
@[simp] theorem Chip.wrb_time (c : Chip) (i s k : Nat) (b : Bool) : (c.wrb i s k b).time = c.time := rfl
@[simp] theorem Chip.wrb_cands (c : Chip) (i s k : Nat) (b : Bool) : (c.wrb i s k b).cands = c.cands := rfl
@[simp] theorem Chip.wrb_tod (c : Chip) (i s k : Nat) (b : Bool) : (c.wrb i s k b).tod = c.tod := rfl
@[simp] theorem Chip.wrb_tdc (c : Chip) (i s k : Nat) (b : Bool) : (c.wrb i s k b).tdc = c.tdc := rfl
@[simp] theorem Chip.wrb_chans (c : Chip) (i s k : Nat) (b : Bool) : (c.wrb i s k b).chans = c.chans := rfl
@[simp] theorem Chip.wrb_nv (c : Chip) (i s k : Nat) (b : Bool) : (c.wrb i s k b).nv = c.nv := rfl
@[simp] theorem Chip.wrb_faults (c : Chip) (i s k : Nat) (b : Bool) : (c.wrb i s k b).faults = c.faults := rfl
@[simp] theorem Chip.wrb_power (c : Chip) (i s k : Nat) (b : Bool) : (c.wrb i s k b).power = c.power := rfl
@[simp] theorem Chip.wrb_tpp (c : Chip) (i s k : Nat) (b : Bool) : (c.wrb i s k b).tpp = c.tpp := rfl
@[simp] theorem Chip.wrb_sec (c : Chip) (i s k : Nat) (b : Bool) : (c.wrb i s k b).sec = c.sec := rfl
@[simp] theorem Chip.wrb_start (c : Chip) (i s k : Nat) (b : Bool) : (c.wrb i s k b).start = c.start := rfl
@[simp] theorem Chip.wrb_panel (c : Chip) (i s k : Nat) (b : Bool) : (c.wrb i s k b).panel = c.panel := rfl
@[simp] theorem Chip.wrb_synth (c : Chip) (i s k : Nat) (b : Bool) : (c.wrb i s k b).synth = c.synth := rfl
@[simp] theorem Chip.wrb_ttus (c : Chip) (i s k : Nat) (b : Bool) : (c.wrb i s k b).ttus = c.ttus := rfl
@[simp] theorem Chip.wrb_ports (c : Chip) (i s k : Nat) (b : Bool) : (c.wrb i s k b).ports = c.ports := rfl
@[simp] theorem Chip.wrb_hand (c : Chip) (i s k : Nat) (b : Bool) : (c.wrb i s k b).hand = c.hand := rfl
@[simp] theorem Chip.wrb_sess (c : Chip) (i s k : Nat) (b : Bool) : (c.wrb i s k b).sess = c.sess := rfl
@[simp] theorem Chip.incBy_grade (c : Chip) (i s n : Nat) : (c.incBy i s n).grade = c.grade := rfl
@[simp] theorem Chip.incBy_staged (c : Chip) (i s n : Nat) : (c.incBy i s n).staged = c.staged := rfl
@[simp] theorem Chip.incBy_free (c : Chip) (i s n : Nat) : (c.incBy i s n).free = c.free := rfl
@[simp] theorem Chip.incBy_time (c : Chip) (i s n : Nat) : (c.incBy i s n).time = c.time := rfl
@[simp] theorem Chip.incBy_cands (c : Chip) (i s n : Nat) : (c.incBy i s n).cands = c.cands := rfl
@[simp] theorem Chip.incBy_tod (c : Chip) (i s n : Nat) : (c.incBy i s n).tod = c.tod := rfl
@[simp] theorem Chip.incBy_tdc (c : Chip) (i s n : Nat) : (c.incBy i s n).tdc = c.tdc := rfl
@[simp] theorem Chip.incBy_chans (c : Chip) (i s n : Nat) : (c.incBy i s n).chans = c.chans := rfl
@[simp] theorem Chip.incBy_nv (c : Chip) (i s n : Nat) : (c.incBy i s n).nv = c.nv := rfl
@[simp] theorem Chip.incBy_faults (c : Chip) (i s n : Nat) : (c.incBy i s n).faults = c.faults := rfl
@[simp] theorem Chip.incBy_power (c : Chip) (i s n : Nat) : (c.incBy i s n).power = c.power := rfl
@[simp] theorem Chip.incBy_tpp (c : Chip) (i s n : Nat) : (c.incBy i s n).tpp = c.tpp := rfl
@[simp] theorem Chip.incBy_sec (c : Chip) (i s n : Nat) : (c.incBy i s n).sec = c.sec := rfl
@[simp] theorem Chip.incBy_start (c : Chip) (i s n : Nat) : (c.incBy i s n).start = c.start := rfl
@[simp] theorem Chip.incBy_panel (c : Chip) (i s n : Nat) : (c.incBy i s n).panel = c.panel := rfl
@[simp] theorem Chip.incBy_synth (c : Chip) (i s n : Nat) : (c.incBy i s n).synth = c.synth := rfl
@[simp] theorem Chip.incBy_ttus (c : Chip) (i s n : Nat) : (c.incBy i s n).ttus = c.ttus := rfl
@[simp] theorem Chip.incBy_ports (c : Chip) (i s n : Nat) : (c.incBy i s n).ports = c.ports := rfl
@[simp] theorem Chip.incBy_hand (c : Chip) (i s n : Nat) : (c.incBy i s n).hand = c.hand := rfl
@[simp] theorem Chip.incBy_sess (c : Chip) (i s n : Nat) : (c.incBy i s n).sess = c.sess := rfl
@[simp] theorem Chip.inc_grade (c : Chip) (i s : Nat) : (c.inc i s).grade = c.grade := rfl
@[simp] theorem Chip.inc_staged (c : Chip) (i s : Nat) : (c.inc i s).staged = c.staged := rfl
@[simp] theorem Chip.inc_free (c : Chip) (i s : Nat) : (c.inc i s).free = c.free := rfl
@[simp] theorem Chip.inc_time (c : Chip) (i s : Nat) : (c.inc i s).time = c.time := rfl
@[simp] theorem Chip.inc_cands (c : Chip) (i s : Nat) : (c.inc i s).cands = c.cands := rfl
@[simp] theorem Chip.inc_tod (c : Chip) (i s : Nat) : (c.inc i s).tod = c.tod := rfl
@[simp] theorem Chip.inc_tdc (c : Chip) (i s : Nat) : (c.inc i s).tdc = c.tdc := rfl
@[simp] theorem Chip.inc_chans (c : Chip) (i s : Nat) : (c.inc i s).chans = c.chans := rfl
@[simp] theorem Chip.inc_nv (c : Chip) (i s : Nat) : (c.inc i s).nv = c.nv := rfl
@[simp] theorem Chip.inc_faults (c : Chip) (i s : Nat) : (c.inc i s).faults = c.faults := rfl
@[simp] theorem Chip.inc_power (c : Chip) (i s : Nat) : (c.inc i s).power = c.power := rfl
@[simp] theorem Chip.inc_tpp (c : Chip) (i s : Nat) : (c.inc i s).tpp = c.tpp := rfl
@[simp] theorem Chip.inc_sec (c : Chip) (i s : Nat) : (c.inc i s).sec = c.sec := rfl
@[simp] theorem Chip.inc_start (c : Chip) (i s : Nat) : (c.inc i s).start = c.start := rfl
@[simp] theorem Chip.inc_panel (c : Chip) (i s : Nat) : (c.inc i s).panel = c.panel := rfl
@[simp] theorem Chip.inc_synth (c : Chip) (i s : Nat) : (c.inc i s).synth = c.synth := rfl
@[simp] theorem Chip.inc_ttus (c : Chip) (i s : Nat) : (c.inc i s).ttus = c.ttus := rfl
@[simp] theorem Chip.inc_ports (c : Chip) (i s : Nat) : (c.inc i s).ports = c.ports := rfl
@[simp] theorem Chip.inc_hand (c : Chip) (i s : Nat) : (c.inc i s).hand = c.hand := rfl
@[simp] theorem Chip.inc_sess (c : Chip) (i s : Nat) : (c.inc i s).sess = c.sess := rfl

end Sys2Proof.Machine
end

