-- ==== Sys2Proof/Laws/Store.lean ====
section
/-!
SUPPORT. Sys2Proof/Laws/Store.lean: the object store: a read after a write of the same subindex gives the value written, and a
write leaves every other subindex alone; the same of fields, flags and counters; lists by position.
-/

namespace Sys2Proof.Machine

theorem mdel_cons (k : Nat) (p : Nat × Nat) (t : List (Nat × Nat)) :
    mdel k (p :: t) = if p.1 = k then mdel k t else p :: mdel k t := by
  unfold mdel
  by_cases h : p.1 = k
  · rw [List.filter_cons_of_neg (by simp [h]), if_pos h]
  · rw [List.filter_cons_of_pos (by simp [h]), if_neg h]

theorem mget_mdel_self (k : Nat) (l : List (Nat × Nat)) : mget k (mdel k l) = none := by
  induction l with
  | nil => rfl
  | cons p t ih => by_cases h : p.1 = k <;> simp [mdel_cons, h, ih, mget]

theorem mget_mdel_ne {k j : Nat} (h : j ≠ k) (l : List (Nat × Nat)) : mget j (mdel k l) = mget j l := by
  induction l with
  | nil => rfl
  | cons p t ih =>
    by_cases hp : p.1 = k
    · have hj : ¬ k = j := fun e => h e.symm
      simp [mdel_cons, hp, mget, ih, hj]
    · simp [mdel_cons, hp, mget, ih]

theorem mget_mins_self (k v : Nat) (l : List (Nat × Nat)) (h : mget k l = none) : mget k (mins k v l) = some v := by
  induction l with
  | nil => simp [mins, mget]
  | cons p t ih =>
    by_cases hp : p.1 = k
    · simp [mget, hp] at h
    · simp only [mget, hp, if_false] at h
      by_cases hk : k < p.1
      · simp [mins, hk, mget]
      · simp [mins, hk, mget, hp, ih h]

theorem mget_mins_ne {k j : Nat} (h : j ≠ k) (v : Nat) (l : List (Nat × Nat)) : mget j (mins k v l) = mget j l := by
  induction l with
  | nil => simp [mins, mget, Ne.symm h]
  | cons p t ih =>
    by_cases hk : k < p.1
    · simp [mins, hk, mget, Ne.symm h]
    · simp only [mins, hk, if_false, mget, ih]

theorem mget_mset_self (k v : Nat) (l : List (Nat × Nat)) : mget k (mset k v l) = some v :=
  mget_mins_self k v _ (mget_mdel_self k l)

theorem mget_mset_ne {k j : Nat} (h : j ≠ k) (v : Nat) (l : List (Nat × Nat)) : mget j (mset k v l) = mget j l := by
  rw [mset, mget_mins_ne h, mget_mdel_ne h]

/-- A read after a write of the same subindex gives the value written. -/
@[simp] theorem Chip.rd_wr_self (c : Chip) (i s v : Nat) : (c.wr i s v).rd i s = v := by
  unfold Chip.wr Chip.rd
  by_cases h : v = dfltOf i s
  · simp [h, mget_mdel_self]
  · simp [h, mget_mset_self]

/-- A write leaves every other subindex alone. -/
theorem Chip.rd_wr_ne (c : Chip) {i s j t : Nat} (v : Nat) (h : okey j t ≠ okey i s) : (c.wr i s v).rd j t = c.rd j t := by
  unfold Chip.wr Chip.rd
  by_cases e : v = dfltOf i s
  · simp [e, mget_mdel_ne h]
  · simp [e, mget_mset_ne h]

/-- A write of one object leaves every other object alone. -/
theorem Chip.rd_wr_obj (c : Chip) {i s j t : Nat} (v : Nat) (hs : s < 256) (ht : t < 256) (h : j ≠ i) :
    (c.wr i s v).rd j t = c.rd j t := c.rd_wr_ne v (by unfold okey; omega)

@[simp] theorem Chip.rd_wrb_self (c : Chip) (i s k : Nat) (b : Bool) :
    (c.wrb i s k b).rd i s = setBit k (c.rd i s) b := c.rd_wr_self i s _

@[simp] theorem Chip.rd_wrf_self (c : Chip) (i s hi lo v : Nat) :
    (c.wrf i s hi lo v).rd i s = setField hi lo (c.rd i s) v := c.rd_wr_self i s _

@[simp] theorem Chip.rd_inc_self (c : Chip) (i s : Nat) : (c.inc i s).rd i s = satAdd 32 (c.rd i s) 1 := c.rd_wr_self i s _

@[simp] theorem Chip.rd_incBy_self (c : Chip) (i s n : Nat) : (c.incBy i s n).rd i s = satAdd 32 (c.rd i s) n :=
  c.rd_wr_self i s _

theorem Chip.rd_wrb_ne (c : Chip) {i s j t : Nat} (k : Nat) (b : Bool) (h : okey j t ≠ okey i s) :
    (c.wrb i s k b).rd j t = c.rd j t := c.rd_wr_ne _ h

theorem Chip.rd_wrf_ne (c : Chip) {i s j t : Nat} (hi lo v : Nat) (h : okey j t ≠ okey i s) :
    (c.wrf i s hi lo v).rd j t = c.rd j t := c.rd_wr_ne _ h

theorem Chip.rd_inc_ne (c : Chip) {i s j t : Nat} (h : okey j t ≠ okey i s) : (c.inc i s).rd j t = c.rd j t := c.rd_wr_ne _ h

theorem Chip.rd_incBy_ne (c : Chip) {i s j t : Nat} (n : Nat) (h : okey j t ≠ okey i s) :
    (c.incBy i s n).rd j t = c.rd j t := c.rd_wr_ne _ h

/-! ### Reads through updates of other parts -/

/-- A read depends on the store alone. -/
theorem Chip.rd_congr {c d : Chip} (h : d.objs = c.objs) (i s : Nat) : d.rd i s = c.rd i s := by
  unfold Chip.rd; rw [h]

@[simp] theorem Chip.rd_modTime (c : Chip) (f : TimeUnit → TimeUnit) (i s : Nat) : (c.modTime f).rd i s = c.rd i s := rfl
@[simp] theorem Chip.rd_modCand (c : Chip) (n : Nat) (f : Cand → Cand) (i s : Nat) : (c.modCand n f).rd i s = c.rd i s := rfl
@[simp] theorem Chip.rd_modLane (c : Chip) (n : Nat) (f : Lane → Lane) (i s : Nat) : (c.modLane n f).rd i s = c.rd i s := rfl
@[simp] theorem Chip.rd_modAux (c : Chip) (n : Nat) (f : Aux → Aux) (i s : Nat) : (c.modAux n f).rd i s = c.rd i s := rfl
@[simp] theorem Chip.rd_modChan (c : Chip) (n : Nat) (f : Chan → Chan) (i s : Nat) : (c.modChan n f).rd i s = c.rd i s := rfl
@[simp] theorem Chip.rd_modNv (c : Chip) (f : NvUnit → NvUnit) (i s : Nat) : (c.modNv f).rd i s = c.rd i s := rfl
@[simp] theorem Chip.rd_modMinute (c : Chip) (f : Minute → Minute) (i s : Nat) : (c.modMinute f).rd i s = c.rd i s := rfl
@[simp] theorem Chip.rd_modSrc (c : Chip) (n : Nat) (f : Src → Src) (i s : Nat) : (c.modSrc n f).rd i s = c.rd i s := rfl
@[simp] theorem Chip.rd_modStart (c : Chip) (f : StartUnit → StartUnit) (i s : Nat) : (c.modStart f).rd i s = c.rd i s := rfl
@[simp] theorem Chip.rd_modPower (c : Chip) (f : PowerUnit → PowerUnit) (i s : Nat) : (c.modPower f).rd i s = c.rd i s := rfl
@[simp] theorem Chip.rd_modSec (c : Chip) (f : SecUnit → SecUnit) (i s : Nat) : (c.modSec f).rd i s = c.rd i s := rfl
@[simp] theorem Chip.rd_modTpp (c : Chip) (f : TppUnit → TppUnit) (i s : Nat) : (c.modTpp f).rd i s = c.rd i s := rfl
@[simp] theorem Chip.rd_modPeer (c : Chip) (n : Nat) (f : Peer → Peer) (i s : Nat) : (c.modPeer n f).rd i s = c.rd i s := rfl
@[simp] theorem Chip.rd_modSess (c : Chip) (f : SessionUnit → SessionUnit) (i s : Nat) : (c.modSess f).rd i s = c.rd i s := rfl
@[simp] theorem Chip.rd_modServo (c : Chip) (n : Nat) (f : Servo → Servo) (i s : Nat) : (c.modServo n f).rd i s = c.rd i s := rfl
@[simp] theorem Chip.rd_modPort (c : Chip) (n : Nat) (f : Port → Port) (i s : Nat) : (c.modPort n f).rd i s = c.rd i s := rfl
@[simp] theorem Chip.rd_modHand (c : Chip) (f : HandUnit → HandUnit) (i s : Nat) : (c.modHand f).rd i s = c.rd i s := rfl
@[simp] theorem Chip.rd_modPanel (c : Chip) (f : PanelUnit → PanelUnit) (i s : Nat) : (c.modPanel f).rd i s = c.rd i s := rfl
@[simp] theorem Chip.rd_modFaults (c : Chip) (f : FaultUnit → FaultUnit) (i s : Nat) : (c.modFaults f).rd i s = c.rd i s := rfl
@[simp] theorem Chip.rd_setDom (c : Chip) (d : Dom) (x : DomState) (i s : Nat) : (c.setDom d x).rd i s = c.rd i s := rfl

/-! ### Lists by position -/

theorem nth_modNth_self {α : Type} (l : List α) (i : Nat) (f : α → α) (d : α) (h : i < l.length) :
    nth (modNth l i f) i d = f (nth l i d) := by
  induction l generalizing i with
  | nil => simp at h
  | cons a t ih =>
    cases i with
    | zero => rfl
    | succ i => exact ih i (by simpa using h)

theorem nth_modNth_ne {α : Type} (l : List α) {i j : Nat} (f : α → α) (d : α) (h : j ≠ i) :
    nth (modNth l i f) j d = nth l j d := by
  induction l generalizing i j with
  | nil => rfl
  | cons a t ih =>
    cases i with
    | zero =>
      cases j with
      | zero => exact absurd rfl h
      | succ j => rfl
    | succ i =>
      cases j with
      | zero => rfl
      | succ j => exact ih (fun e => h (e ▸ rfl))

theorem length_modNth {α : Type} (l : List α) (i : Nat) (f : α → α) : (modNth l i f).length = l.length := by
  induction l generalizing i with
  | nil => rfl
  | cons a t ih => cases i <;> simp [modNth, ih]

end Sys2Proof.Machine
end

