-- ==== Sys2Proof/Laws/Collector.lean ====
section
/-!
SUPPORT. Sys2Proof/Laws/Collector.lean: everything an error, its reactions and an event card can change: the collector, its objects,
the resets they ask for, the panel's acknowledgements and the card queue. Every other part of the device is as it was.
-/

namespace Sys2Proof.Machine

/-- What the fault collector and the event queue may change between two devices. -/
structure Collects (c d : Chip) : Prop where
  grade : d.grade = c.grade
  staged : d.staged = c.staged
  free : d.free = c.free
  time : d.time = c.time
  cands : d.cands = c.cands
  tod : d.tod = c.tod
  tdc : d.tdc = c.tdc
  chans : d.chans = c.chans
  tpp : d.tpp = c.tpp
  sec : d.sec = c.sec
  start : d.start = c.start
  synth : d.synth = c.synth
  ttus : d.ttus = c.ttus
  ports : d.ports = c.ports
  hand : d.hand = c.hand
  sess : d.sess = c.sess
  doms : d.power.doms = c.power.doms
  cells : d.nv.cells = c.nv.cells
  rd : ∀ i s, s < 256 → i < 0x9000 ∨ 0x9180 ≤ i → d.rd i s = c.rd i s

theorem Collects.refl (c : Chip) : Collects c c := by constructor <;> intros <;> rfl

theorem Collects.trans {a b c : Chip} (h : Collects a b) (k : Collects b c) : Collects a c where
  grade := k.grade.trans h.grade
  staged := k.staged.trans h.staged
  free := k.free.trans h.free
  time := k.time.trans h.time
  cands := k.cands.trans h.cands
  tod := k.tod.trans h.tod
  tdc := k.tdc.trans h.tdc
  chans := k.chans.trans h.chans
  tpp := k.tpp.trans h.tpp
  sec := k.sec.trans h.sec
  start := k.start.trans h.start
  synth := k.synth.trans h.synth
  ttus := k.ttus.trans h.ttus
  ports := k.ports.trans h.ports
  hand := k.hand.trans h.hand
  sess := k.sess.trans h.sess
  doms := k.doms.trans h.doms
  cells := k.cells.trans h.cells
  rd i s hs hi := (k.rd i s hs hi).trans (h.rd i s hs hi)

theorem Collects.iff {c : Chip} (b : Bool) {f : Chip → Chip} (h : ∀ x, Collects x (f x)) : Collects c (c.iff b f) := by
  unfold Chip.iff; split
  · exact h c
  · exact .refl c

theorem collects_wr (c : Chip) {i s : Nat} (v : Nat) (hi : 0x9000 ≤ i ∧ i < 0x9180) (hs : s < 256) :
    Collects c (c.wr i s v) where
  grade := rfl
  staged := rfl
  free := rfl
  time := rfl
  cands := rfl
  tod := rfl
  tdc := rfl
  chans := rfl
  tpp := rfl
  sec := rfl
  start := rfl
  synth := rfl
  ttus := rfl
  ports := rfl
  hand := rfl
  sess := rfl
  doms := rfl
  cells := rfl
  rd j t ht hj := c.rd_wr_obj v hs ht (by omega)

theorem collects_modNv (c : Chip) (f : NvUnit → NvUnit) (h : (f c.nv).cells = c.nv.cells) : Collects c (c.modNv f) := by
  constructor <;> intros <;> first | rfl | exact h

theorem collects_modSrc (c : Chip) (n : Nat) (f : Src → Src) : Collects c (c.modSrc n f) := by
  constructor <;> intros <;> rfl

theorem collects_faults (c : Chip) (f : FaultUnit) : Collects c { c with faults := f } := by
  constructor <;> intros <;> rfl

theorem collects_panel (c : Chip) (f : PanelUnit) : Collects c { c with panel := f } := by
  constructor <;> intros <;> rfl

theorem collects_resets (c : Chip) (l : List Dom) : Collects c { c with power := { c.power with resetDoms := l } } := by
  constructor <;> intros <;> rfl

theorem collects_modMinute (c : Chip) (f : Minute → Minute) : Collects c (c.modMinute f) := by
  constructor <;> intros <;> rfl

theorem collects_postAt (c : Chip) (code detail sec ns teb : Nat) : Collects c (c.postAt code detail sec ns teb) := by
  unfold Chip.postAt
  dsimp only
  split
  · split
    · exact collects_modMinute ..
    · exact .trans (collects_modNv c _ (by rfl)) (collects_modMinute ..)
  · split
    · exact collects_modMinute ..
    · exact .trans (collects_modNv c _ (by rfl)) (collects_modMinute ..)

theorem collects_post (c : Chip) (code detail : Nat) : Collects c (c.post code detail) := collects_postAt ..

theorem collects_errLow (c : Chip) : Collects c c.errLow := by
  unfold Chip.errLow
  exact .trans (collects_faults c _) (collects_wr _ _ (by decide) (by decide))

theorem collects_react (c : Chip) (s own esc : Nat) : Collects c (c.react s own esc) := by
  unfold Chip.react
  dsimp only
  refine .trans ?_ (Collects.iff _ (fun x => collects_post x _ _))
  refine .trans ?_ (Collects.iff _ (fun x => collects_faults x _))
  refine .trans ?_ (Collects.iff _ (fun x => collects_resets x _))
  refine .trans ?_ (Collects.iff _ collects_errLow)
  exact collects_modSrc ..

theorem collects_pennantUp (c : Chip) {s : Nat} (hs : s < 128) : Collects c (c.pennantUp s) := by
  unfold Chip.pennantUp
  dsimp only
  refine .trans ?_ (collects_wr _ _ (by omega) (by decide))
  refine .trans ?_ (collects_wr _ _ (by omega) (by decide))
  exact .trans (collects_modSrc ..) (collects_panel ..)

theorem collects_overflow (c : Chip) : Collects c c.overflow := by
  unfold Chip.overflow
  dsimp only
  split
  · exact collects_wr _ _ (by decide) (by decide)
  · refine .trans ?_ (collects_react ..)
    refine .trans ?_ (collects_pennantUp _ (by decide))
    exact collects_wr _ _ (by decide) (by decide)

theorem collects_capture (c : Chip) (s inst detail : Nat) (access : Option Access) (forced : Bool) :
    Collects c (c.capture_ s inst detail access forced) := by
  unfold Chip.capture_
  dsimp only
  refine .trans ?_ (collects_faults ..)
  iterate 6 refine .trans ?_ (collects_wr _ _ (by decide) (by decide))
  exact collects_wr _ _ (by decide) (by decide)

theorem collects_error (c : Chip) {s : Nat} (inst detail : Nat) (access : Option Access) (forced : Bool) (hs : s < 128) :
    Collects c (c.error s inst detail access forced) := by
  have up := collects_pennantUp c hs
  unfold Chip.error
  dsimp only
  split
  · exact ((up.trans (collects_capture ..)).trans (collects_wr _ _ (by decide) (by decide))).trans (collects_react ..)
  · split
    · exact (((up.trans (collects_capture ..)).trans (collects_wr _ _ (by decide) (by decide))).trans
        (collects_react ..)).trans (collects_overflow _)
    · exact (((up.trans (collects_wr _ _ (by decide) (by decide))).trans (collects_wr _ _ (by decide) (by decide))).trans
        (collects_react ..)).trans (collects_overflow _)

theorem collects_assertSrc (c : Chip) {s : Nat} (inst detail : Nat) (access : Option Access) (forced : Bool) (hs : s < 128) :
    Collects c (c.assertSrc s inst detail access forced) := by
  unfold Chip.assertSrc
  split
  · exact .refl c
  · split
    · exact collects_overflow c
    dsimp only
    split
    · exact collects_wr _ _ (by omega) (by decide)
    · exact .trans (collects_wr _ _ (by omega) (by decide)) (collects_error _ _ _ _ _ hs)

theorem collects_raiseWith (c : Chip) {s : Nat} (inst detail : Nat) (access : Option Access) (forced : Bool) (hs : s < 128) :
    Collects c (c.raiseWith s inst detail access forced) := by
  unfold Chip.raiseWith
  split
  · exact .refl c
  · split
    · dsimp only
      split
      · exact collects_modSrc ..
      · exact .trans (collects_modSrc ..) (collects_assertSrc _ _ _ _ _ hs)
    · split
      · exact .refl c
      · exact collects_assertSrc _ _ _ _ _ hs

/-- Raising a source changes the collector's part alone. -/
theorem collects_raise (c : Chip) {s : Nat} (inst detail : Nat) (hs : s < 128) : Collects c (c.raise s inst detail) :=
  collects_raiseWith c inst detail none false hs

theorem collects_drop (c : Chip) (s : Nat) : Collects c (c.drop s) := collects_modSrc c s _

theorem collects_follow (c : Chip) {s : Nat} (inst detail : Nat) (b : Bool) (hs : s < 128) :
    Collects c (c.follow s inst detail b) := by
  unfold Chip.follow; split
  · exact collects_raise c _ _ hs
  · exact collects_drop c s

end Sys2Proof.Machine
end

