-- ==== Sys2Proof/Laws/Memory.lean ====
section
/-!
SUPPORT. Sys2Proof/Laws/Memory.lean: the NV array: a read after a write, the bytes a write leaves alone, and that every operation
on the array keeps its canonical form; lists of a fixed length restored.
-/

namespace Sys2Proof.Machine

/-! ### Reading after writing -/

theorem memRead_memDrop_self (a : Nat) (m : List Host.Cell) : memRead a (memDrop a m) = 0 := by
  induction m with
  | nil => rfl
  | cons p t ih =>
    by_cases h : p.1 = a
    · simpa [memDrop, h] using ih
    · simpa [memDrop, memRead, h] using ih

theorem memRead_memDrop_ne {a x : Nat} (h : x ≠ a) (m : List Host.Cell) : memRead x (memDrop a m) = memRead x m := by
  induction m with
  | nil => rfl
  | cons p t ih =>
    have ih' : memRead x (t.filter (fun q => q.1 != a)) = memRead x t := ih
    by_cases k : p.1 = a
    · have : p.1 ≠ x := fun e => h (by omega)
      simp [memDrop, memRead, k, ih', show a ≠ x from fun e => h e.symm]
    · simp [memDrop, memRead, k, ih']

theorem memRead_memPut_self (a : Nat) (b : Byte) (m : List Host.Cell) (h : ∀ p ∈ m, p.1 ≠ a) :
    memRead a (memPut a b m) = b := by
  induction m with
  | nil => simp [memPut, memRead]
  | cons p t ih =>
    unfold memPut
    split
    · simp [memRead]
    · simp [memRead, h p (by simp), ih (fun q hq => h q (by simp [hq]))]

theorem memRead_memPut_ne {a x : Nat} (h : x ≠ a) (b : Byte) (m : List Host.Cell) : memRead x (memPut a b m) = memRead x m := by
  induction m with
  | nil => simp [memPut, memRead, h.symm]
  | cons p t ih =>
    unfold memPut
    split
    · simp [memRead, h.symm]
    · simp [memRead, ih]

theorem memDrop_notMem (a : Nat) (m : List Host.Cell) : ∀ p ∈ memDrop a m, p.1 ≠ a := by
  intro p hp
  simpa using (List.mem_filter.1 hp).2

/-- A read of the byte just written gives it. -/
@[simp] theorem memRead_memWrite_self (a : Nat) (b : Byte) (m : List Host.Cell) : memRead a (memWrite a b m) = b := by
  unfold memWrite
  split
  · next h => rw [memRead_memDrop_self, h]
  · exact memRead_memPut_self a b _ (memDrop_notMem a m)

/-- A write leaves every other byte alone. -/
theorem memRead_memWrite_ne {a x : Nat} (h : x ≠ a) (b : Byte) (m : List Host.Cell) :
    memRead x (memWrite a b m) = memRead x m := by
  unfold memWrite
  split
  · exact memRead_memDrop_ne h m
  · rw [memRead_memPut_ne h, memRead_memDrop_ne h]

/-! ### The canonical form -/

/-- The canonical form in two parts. -/
theorem wf_iff (m : List Host.Cell) :
    Memory.wf m = true ↔ (∀ p ∈ m, p.2 ≠ 0) ∧ m.Pairwise (fun p q => p.1 < q.1) := by
  induction m with
  | nil => simp [Memory.wf]
  | cons p t ih =>
    cases t with
    | nil => simp [Memory.wf]
    | cons q u =>
      simp only [Memory.wf, Bool.and_eq_true, bne_iff_ne, ne_eq, decide_eq_true_eq, ih, List.pairwise_cons, List.mem_cons]
      constructor
      · rintro ⟨⟨h1, h2⟩, h3, h4, h5⟩
        refine ⟨?_, ?_, h4, h5⟩
        · rintro x (rfl | hx)
          · exact h1
          · exact h3 x hx
        · rintro x (rfl | hx)
          · exact h2
          · exact Nat.lt_trans h2 (h4 x hx)
      · rintro ⟨h1, h2, h3, h4⟩
        exact ⟨⟨h1 p (.inl rfl), h2 q (.inl rfl)⟩, fun x hx => h1 x (.inr hx), h3, h4⟩

theorem memDrop_wf {a : Nat} {m : List Host.Cell} (h : Memory.wf m = true) : Memory.wf (memDrop a m) = true := by
  rw [wf_iff] at *
  exact ⟨fun p hp => h.1 p (List.mem_filter.1 hp).1, h.2.filter _⟩

theorem mem_memPut {a : Nat} {b : Byte} {m : List Host.Cell} {p : Host.Cell} (h : p ∈ memPut a b m) : p = (a, b) ∨ p ∈ m := by
  induction m with
  | nil => simpa [memPut] using h
  | cons q t ih =>
    unfold memPut at h
    split at h
    · simpa using h
    · rcases List.mem_cons.1 h with rfl | h
      · simp
      · rcases ih h with h | h
        · exact .inl h
        · simp [h]

theorem memPut_wf {a : Nat} {b : Byte} {m : List Host.Cell} (hb : b ≠ 0) (h : Memory.wf m = true) (ha : ∀ p ∈ m, p.1 ≠ a) :
    Memory.wf (memPut a b m) = true := by
  rw [wf_iff] at *
  refine ⟨fun p hp => ?_, ?_⟩
  · rcases mem_memPut hp with rfl | hp
    · exact hb
    · exact h.1 p hp
  · obtain ⟨-, h⟩ := h
    induction m with
    | nil => simp [memPut]
    | cons q t ih =>
      rw [List.pairwise_cons] at h
      unfold memPut
      split
      · next hlt =>
        refine List.pairwise_cons.2 ⟨fun x hx => ?_, List.pairwise_cons.2 h⟩
        rcases List.mem_cons.1 hx with rfl | hx
        · exact hlt
        · exact Nat.lt_trans hlt (h.1 x hx)
      · next hge =>
        refine List.pairwise_cons.2 ⟨fun x hx => ?_, ih (fun p hp => ha p (by simp [hp])) h.2⟩
        rcases mem_memPut hx with rfl | hx
        · exact Nat.lt_of_le_of_ne (Nat.le_of_not_lt hge) (ha q (by simp))
        · exact h.1 x hx

/-- A write of a byte keeps the canonical form. -/
theorem memWrite_wf {a : Nat} {b : Byte} {m : List Host.Cell} (h : Memory.wf m = true) : Memory.wf (memWrite a b m) = true := by
  unfold memWrite
  split
  · exact memDrop_wf h
  · next hb => exact memPut_wf hb (memDrop_wf h) (memDrop_notMem a m)

theorem nvPut_wf {c : Chip} (a v : Nat) (h : Memory.wf c.nv.cells = true) : Memory.wf (c.nvPut a v).nv.cells = true :=
  memWrite_wf h

/-- A list of bytes written one by one keeps the canonical form. -/
theorem nvPuts_wf {α : Type} (l : List α) (f g : α → Nat) {c : Chip} (h : Memory.wf c.nv.cells = true) :
    Memory.wf (l.foldl (fun c x => c.nvPut (f x) (g x)) c).nv.cells = true := by
  induction l generalizing c with
  | nil => exact h
  | cons x t ih => exact ih (nvPut_wf _ _ h)

/-- The loaded bytes of a program keep the canonical form. -/
theorem nvLoad_wf {c : Chip} (p : NvProg) (h : Memory.wf c.nv.cells = true) : Memory.wf (c.nvLoad p).nv.cells = true :=
  nvPuts_wf p.bytes _ _ h

theorem nvTorn_wf {c : Chip} (a v : Nat) (h : Memory.wf c.nv.cells = true) : Memory.wf (c.nvTorn a v).nv.cells = true :=
  nvPut_wf _ _ h

/-- A program cut short by a power failure keeps the canonical form. -/
theorem nvFail_wf {c : Chip} (n : Nat) (h : Memory.wf c.nv.cells = true) : Memory.wf (c.nvFail n).nv.cells = true := by
  unfold Chip.nvFail
  split
  · exact h
  · next p _ =>
    dsimp only
    suffices ∀ (l : List (Nat × Nat)) (c : Chip), Memory.wf c.nv.cells = true → ∀ G : Nat → Nat,
        Memory.wf (l.foldl (fun c b => if G b.1 < n then c.nvPut (p.page * 256 + b.1) b.2
          else if G b.1 = n then c.nvTorn (p.page * 256 + b.1) b.2 else c) c).nv.cells = true from
      this p.bytes c h (fun x => ((List.filter (fun g => p.bytes.any fun b => b.1 / 64 == g) (List.range 4)).takeWhile
        (· != x / 64)).length)
    intro l
    induction l with
    | nil => exact fun c h _ => h
    | cons x t ih =>
      intro c h G
      refine ih _ ?_ G
      dsimp only
      split
      · exact nvPut_wf _ _ h
      · split
        · exact nvTorn_wf _ _ h
        · exact h

/-- What `tidy` leaves is at or past its bound. -/
theorem tidy_le (lo : Nat) (m : List Host.Cell) : ∀ p ∈ Memory.tidy lo m, lo ≤ p.1 := by
  induction m generalizing lo with
  | nil => simp [Memory.tidy]
  | cons q t ih =>
    unfold Memory.tidy
    split
    · next h =>
      intro p hp
      rcases List.mem_cons.1 hp with rfl | hp
      · exact h.1
      · exact Nat.le_trans h.1 (Nat.le_of_succ_le (ih _ p hp))
    · exact ih lo

/-- What `tidy` leaves has the canonical form. -/
theorem tidy_wf (lo : Nat) (m : List Host.Cell) : Memory.wf (Memory.tidy lo m) = true := by
  rw [wf_iff]
  induction m generalizing lo with
  | nil => simp [Memory.tidy]
  | cons q t ih =>
    unfold Memory.tidy
    split
    · next h =>
      refine ⟨fun p hp => ?_, List.pairwise_cons.2 ⟨fun x hx => tidy_le _ _ x hx, (ih _).2⟩⟩
      rcases List.mem_cons.1 hp with rfl | hp
      · exact h.2
      · exact (ih _).1 p hp
    · exact ih lo

/-- An array in canonical form is left as it is. -/
theorem tidy_eq {m : List Host.Cell} (h : Memory.wf m = true) : Memory.tidy 0 m = m := by
  suffices ∀ (m : List Host.Cell) (lo : Nat), Memory.wf m = true → (∀ p ∈ m, lo ≤ p.1) → Memory.tidy lo m = m from
    this m 0 h (fun p _ => Nat.zero_le _)
  intro m
  induction m with
  | nil => intros; rfl
  | cons q t ih =>
    intro lo h hlo
    rw [wf_iff] at h
    have hq : lo ≤ q.1 ∧ q.2 ≠ 0 := ⟨hlo q (by simp), h.1 q (by simp)⟩
    unfold Memory.tidy
    rw [if_pos hq, ih (q.1 + 1) ((wf_iff t).2 ⟨fun p hp => h.1 p (by simp [hp]), (List.pairwise_cons.1 h.2).2⟩)
      (fun p hp => (List.pairwise_cons.1 h.2).1 p hp)]

/-- The array after reset. -/
theorem reset_memory_wf : Memory.wf State.reset.chip.nv.cells = true := by decide

/-! ### Lists of a fixed length -/

@[simp] theorem length_sized {α : Type} [Inhabited α] (n : Nat) (l : List α) : (sized n l).length = n := by
  simp only [sized, List.length_append, List.length_take, List.length_replicate]
  omega

/-- A list of the length is left as it is. -/
theorem sized_eq {α : Type} [Inhabited α] {n : Nat} {l : List α} (h : l.length = n) : sized n l = l := by
  subst h
  simp [sized]

/-! ### What every command leaves -/

@[simp] theorem Chip.keep_grade (c d : Chip) : (c.keep d).grade = c.grade := rfl
@[simp] theorem Chip.keep_objs (c d : Chip) : (c.keep d).objs = d.objs := rfl
@[simp] theorem Chip.keep_cells (c d : Chip) : (c.keep d).nv.cells = Memory.tidy 0 d.nv.cells := rfl
theorem Chip.keep_cells_wf (c d : Chip) : Memory.wf (c.keep d).nv.cells = true := tidy_wf 0 _

/-- A port whose lists have their lengths is left as it is. -/
theorem Port.whole_eq {p : Port} (h1 : p.rx.length = 5) (h2 : p.tx.length = 3) (h3 : p.pfcEnd.length = 8)
    (h4 : p.back.length = 2) (h5 : p.banks.length = 2) : p.whole = p := by
  simp [Port.whole, sized_eq h1, sized_eq h2, sized_eq h3, sized_eq h4, sized_eq h5]

/-- The answer of a command. -/
@[simp] theorem State.act_eq (f : Chip → Chip) (s : State) : State.act f s = .next { s with chip := s.chip.after f } := rfl

end Sys2Proof.Machine
end

