-- ==== Sys2Proof/Laws/Tpp.lean ====
section
/-!
SUPPORT. Sys2Proof/Laws/Tpp.lean: what serving a request does, said once: a request that is served is executed and answered, and a
write that is taken has its effect and its positive response.
-/

namespace Sys2Proof.Machine

/-- A request that is served is executed, and answered as it comes out. -/
theorem ask_served {c : Chip} {q : Envelope} {call : Call} {n : Option Nat} {a : Asker} {d : Chip} (h : c.Served q call n a d) :
    c.ask q call = d.runCall n a q call := by
  obtain ⟨b, p, hb, hp, rfl, hk, hm, hw⟩ := h
  have hs : b.serveCall q call = (p.inc 0x1101 (7 - transportBit q.src)).runCall n a q call := by
    unfold Chip.serveCall
    simp only [hp, hk, hm, hw]
    simp
  rw [← hs]
  unfold Chip.arrives at hb
  unfold Chip.ask
  split at hb
  · split at hb
    · rename_i h1 h2
      simp at h2
      obtain ⟨⟨⟨⟨h3, h4⟩, h5⟩, h6⟩, h7⟩ := h2
      obtain rfl : c = b := by simpa using hb
      simp [h1, h3, h4, h5, h6] <;> omega
    · cases hb
  · rename_i h1
    simp only [h1] at hb ⊢
    split at hb
    · cases hb
    · rename_i h2; simp only [h2] at hb ⊢
      split at hb <;> rename_i h3 <;> simp only [h3] <;> obtain rfl := Option.some.inj hb <;> simp
  · rename_i h1
    simp only [h1] at hb ⊢
    split at hb
    · cases hb
    · rename_i h2; simp only [h2] at hb ⊢
      split at hb <;> rename_i h3 <;> simp only [h3] <;> obtain rfl := Option.some.inj hb <;> simp

/-- A write that is taken and has an effect answers with that effect and its response. -/
theorem ask_taken {c : Chip} {q : Envelope} {idx sub : Nat} {data : List Nat} {n : Option Nat} {r : Row} {d e : Chip}
    (h : c.BytesTaken q idx sub data n r d) (hi : idx ≠ 0x8020) (he : ∀ x, d.putValue x r idx sub data = .done e) :
    c.ask q (.write idx sub r.ty.code data) = e.saidOk q n idx sub := by
  obtain ⟨hr, a, b, hserved, rfl, hform, hval, hst⟩ := h
  rw [ask_served hserved]
  simp [Chip.runCall, Chip.execute, Chip.writeAny, hi, Chip.writeObject, hform, hval, he, Wrote.reply, writeSaid, Chip.saidOk]

/-- The same of a write of a number. -/
theorem askWrite_taken {c : Chip} {q : Envelope} {idx sub v : Nat} {n : Option Nat} {r : Row} {d e : Chip}
    (h : c.WriteTaken q idx sub v n r d) (hi : idx ≠ 0x8020) (he : ∀ x, d.putValue x r idx sub (r.encode v) = .done e) :
    c.askWrite q idx sub v = e.saidOk q n idx sub := by
  unfold Chip.askWrite
  simp only [h.2.2.1]
  exact ask_taken h.2.2 hi he

/-- The same of a write of bytes. -/
theorem askBytes_taken {c : Chip} {q : Envelope} {idx sub : Nat} {data : List Nat} {n : Option Nat} {r : Row} {d e : Chip}
    (h : c.BytesTaken q idx sub data n r d) (hi : idx ≠ 0x8020) (he : ∀ x, d.putValue x r idx sub data = .done e) :
    c.askBytes q idx sub data = e.saidOk q n idx sub := by
  unfold Chip.askBytes Chip.typeOf
  simp only [h.1]
  exact ask_taken h hi he

/-- A read that is taken answers with the value. -/
theorem ask_read {c : Chip} {q : Envelope} {idx sub : Nat} {n : Option Nat} {d : Chip} (h : c.ReadTaken q idx sub n d) :
    c.ask q (.read idx sub) = (d.readNow idx sub).2.saidRead q n (d.readHead idx sub) (d.readNow idx sub).1 := by
  obtain ⟨a, hs, hr⟩ := h
  rw [ask_served hs]
  simp [Chip.runCall, Chip.execute, Chip.doRead, hr, Chip.saidRead]

end Sys2Proof.Machine
end

