-- ==== Sys2Proof/Machine/Balls.lean ====
section
/-!
DEFINITION. Sys2Proof/Machine/Balls.lean: the ball map of the package and what the board finds at the balls (18 R424–R429): read
from the state, which holds the levels of the outputs, the TRIG pins, ERR_N and the LEDs.
-/

namespace Sys2Proof.Machine

/-! ### The map (18 R424, R425) -/

/-- Rows A to D of the ball map, top view, columns 1 to 16 (18 R424). -/
def ballRows1 : List (String × List String) := [
  ("A", ["SD0_TXP", "SD0_TXN", "SD1_TXP", "SD1_TXN", "SD2_TXP", "SD2_TXN", "SD3_TXP", "SD3_TXN",
    "SD4_TXP", "SD4_TXN", "SD5_TXP", "SD5_TXN", "SD6_TXP", "SD6_TXN", "SD7_TXP", "SD7_TXN"]),
  ("B", ["VSS", "VDDA_SER09", "VSS", "VDDA_SER12", "VSS", "VDDA_SER09", "VSS", "VSS",
    "VSS", "VSS", "VDDA_SER09", "VSS", "VDDA_SER12", "VSS", "VDDA_SER09", "VSS"]),
  ("C", ["SD0_RXP", "SD0_RXN", "SD1_RXP", "SD1_RXN", "SD2_RXP", "SD2_RXN", "SD3_RXP", "SD3_RXN",
    "SD4_RXP", "SD4_RXN", "SD5_RXP", "SD5_RXN", "SD6_RXP", "SD6_RXN", "SD7_RXP", "SD7_RXN"]),
  ("D", ["VSS", "JTAG_TCK", "JTAG_TMS", "JTAG_TDI", "JTAG_TDO", "JTAG_TRST_N", "TEST_MODE0", "TEST_MODE1",
    "STRAP0", "STRAP1", "STRAP2", "VDDIO", "TRIG0", "TRIG1", "TRIG2", "VSS"])]

/-- Rows E to H of the ball map, top view, columns 1 to 16 (18 R424). -/
def ballRows2 : List (String × List String) := [
  ("E", ["REF0_P", "REF0_N", "REF1_P", "REF1_N", "VSS", "VDDA_PLL", "VSS", "VDDA_PLL",
    "VSS", "VDDA_PLL", "VSS", "VDDO_A", "OUT0_P", "OUT0_N", "OUT1_P", "OUT1_N"]),
  ("F", ["REF2_P", "REF2_N", "REF3_P", "REF3_N", "VSS", "VSS", "VDDA_PLL", "VSS",
    "VDD_CORE", "VSS", "VSS", "VDDO_A", "OUT2_P", "OUT2_N", "OUT3_P", "OUT3_N"]),
  ("G", ["REF4_P", "REF4_N", "REF5_P", "REF5_N", "VSS", "VDD_CORE", "VSS", "VDD_CORE",
    "VSS", "VDD_CORE", "VSS", "VDDO_B", "OUT4_P", "OUT4_N", "OUT5_P", "OUT5_N"]),
  ("H", ["REF6_P", "REF6_N", "REF7_P", "REF7_N", "VSS", "VSS", "VDD_CORE", "VSS",
    "VDD_CORE", "VSS", "VSS", "VDDO_B", "OUT6_P", "OUT6_N", "OUT7_P", "OUT7_N"])]

/-- Rows J to M of the ball map, top view, columns 1 to 16 (18 R424). -/
def ballRows3 : List (String × List String) := [
  ("J", ["REF8_P", "REF8_N", "REF9_P", "REF9_N", "VSS", "VDD_CORE", "VSS", "VDD_CORE",
    "VSS", "VDD_CORE", "VSS", "VDDO_C", "OUT8_P", "OUT8_N", "OUT9_P", "OUT9_N"]),
  ("K", ["REF10_P", "REF10_N", "REF11_P", "REF11_N", "VSS", "VDD_CORE", "VDD_CORE", "VSS",
    "VDD_CORE", "VDD_CORE", "VSS", "VDDO_C", "OUT10_P", "OUT10_N", "OUT11_P", "OUT11_N"]),
  ("L", ["REF12_P", "REF12_N", "REF13_P", "REF13_N", "VSS", "VDD_CORE", "VSS", "VDD_CORE",
    "VSS", "VDD_CORE", "VSS", "VDDO_D", "OUT12_P", "OUT12_N", "OUT13_P", "OUT13_N"]),
  ("M", ["REF14_P", "REF14_N", "REF15_P", "REF15_N", "VSS", "VDD_CORE", "VDD_CORE", "VSS",
    "VDD_CORE", "VDD_CORE", "VSS", "VDDO_D", "OUT14_P", "OUT14_N", "OUT15_P", "OUT15_N"])]

/-- Rows N to U of the ball map, top view, columns 1 to 16 (18 R424). -/
def ballRows4 : List (String × List String) := [
  ("N", ["PLUG0", "PLUG1", "PLUG2", "PLUG3", "PLUG4", "PLUG5", "PLUG6", "PLUG7",
    "PLUG8", "PLUG9", "PLUG10", "PLUG11", "PLUG12", "PLUG13", "PLUG14", "PLUG15"]),
  ("P", ["VDD_MAST", "LO_P", "LO_N", "VDD_MAST", "TAMPER", "PWR_FAIL_N", "RST_N", "IRQ_N",
    "ERR_N", "TOD_RX", "TOD_TX", "TRIG3", "LED0", "LED1", "LED2", "LED3"]),
  ("T", ["HOST_CS_N", "HOST_SCK", "HOST_IO0", "HOST_IO1", "HOST_IO2", "HOST_IO3", "VDDIO", "BOOT_CS_N",
    "BOOT_SCK", "BOOT_IO0", "BOOT_IO1", "BOOT_IO2", "BOOT_IO3", "LED4", "LED5", "LED6"]),
  ("U", ["K0", "K1", "K2", "K3", "K4", "K5", "K6", "K7",
    "VDD_MAST", "VDDIO", "LED7", "LED8", "LED9", "LED10", "LED11", "VDDIO"])]

/-- The ball map (18 R424). -/
def ballMap : List (String × List String) := ballRows1 ++ ballRows2 ++ ballRows3 ++ ballRows4

/-- The name at a row and a column from 1. -/
def ballAt (row : String) (col : Nat) : Option String :=
  match ballMap.find? (fun r => r.1 == row) with
  | some r => if col = 0 then none else r.2[col - 1]?
  | none => none

/-- How many balls carry a name (18 R425). -/
def ballCount (name : String) : Nat := (ballMap.map (fun r => (r.2.filter (· == name)).length)).foldl (· + ·) 0

/-- The supplies of R356 with their balls, and ground (18 R425). -/
def supplyBalls : List String :=
  ["VDD_MAST", "VDDIO", "VDD_CORE", "VDDA_PLL", "VDDA_SER09", "VDDA_SER12", "VDDO_A", "VDDO_B", "VDDO_C", "VDDO_D", "VSS"]

/-! ### Signal balls (18 R426–R429) -/

/-- A pull of a ball; `bias`: the internal reference of an LO ball (18 R426, R428). -/
inductive Pull where
  | none | up | down | bias
  deriving DecidableEq, Repr, Inhabited

/-- What the board finds at a ball: an input, high impedance, a terminated receiver, electrical idle, a released open drain, a level
held, or the unit's own signal. -/
inductive Ball where
  | input | highZ | terminated | idle | released | low | high | live
  deriving DecidableEq, Repr, Inhabited

/-- The LVCMOS and LO balls with a pull (18 R426), by signal. -/
inductive Signal where
  | plug (n : Nat) | lo | hostCs | hostSck | hostIo | rst | pwrFail | bootIo | key (n : Nat) | tamper | trig (n : Nat) | todRx
  | jtagTck | jtagTms | jtagTdi | jtagTrst | testMode | strap
  deriving DecidableEq, Repr, Inhabited

/-- The pull of a signal: in every power state and phase, but for units the grade lacks (18 R426, R428, R429). -/
def Chip.pull (c : Chip) (s : Signal) : Pull :=
  match s with
  | .plug n => if n < c.grade.refs then .up else .none
  | .lo => if c.start.loMode = 2 then .none else .bias
  | .hostSck | .trig _ | .jtagTck | .testMode => .down
  | .strap => .none
  | _ => .up

/-- REFn_P and REFn_N: terminated or not while SENSE runs and MODE selects a receiver, else high impedance (18 R426, R427, R429, 02 R43). -/
def Chip.refBall (c : Chip) (n : Nat) : Ball :=
  if c.grade.refs ≤ n || !c.live || !c.awake .sense || c.rdf (0x2000 + n) 3 5 3 = 0 then .highZ
  else if c.rdb (0x2000 + n) 3 7 && c.rdf (0x2000 + n) 3 5 3 ≤ 2 then .terminated else .input

/-- The SerDes outputs of a port: electrical idle unless its lane runs; high impedance without VDDA_SER (18 R426, R427, R429). -/
def Chip.serdesTx (c : Chip) (p : Nat) : Ball :=
  if c.grade.ports ≤ p || !c.rdb 0xA001 2 2 || !c.rdb 0xA001 2 3 then .highZ
  else if c.portOn p && c.awake .port then .live else .idle

/-- The SerDes inputs of a port: terminated while its lane is powered, else high impedance (18 R426, R427, 19 R443). -/
def Chip.serdesRx (c : Chip) (p : Nat) : Ball :=
  if c.portOn p && c.awake .port && c.supplied .port then .terminated else .highZ

/-- The image of a load is being fetched from the boot flash (17 R413, 18 R427). -/
def Chip.fetching (c : Chip) : Bool := c.start.loading && !c.rdb 0x1030 3 0

/-- BOOT_CS_N and BOOT_SCK idle high and low; the loader drives them while it fetches (18 R426, R427). -/
def Chip.bootCs (c : Chip) : Ball := if c.fetching then .live else .high
def Chip.bootSck (c : Chip) : Ball := if c.fetching then .live else .low

/-- IRQ_N and ERR_N are open drains (18 R426, 12 R333, 13 R349). -/
def Chip.irqBall (c : Chip) : Ball := if c.irqLow then .low else .released
def Chip.errBall (c : Chip) : Ball := if c.faults.errLow then .low else .released

/-- An LED sinks unless its pattern is OFF (18 R426, 16 R404). -/
def Chip.ledBall (c : Chip) (i : Nat) : Ball :=
  match (c.led i).1 with
  | 0 => .released
  | 1 => .low
  | _ => .live

/-- A TRIG pin and the legs of an output show the levels the state holds (18 R427, 07 R198, 06 R158). -/
def Level.ball : Level → Ball
  | .low => .low
  | .high => .high
  | .z => .highZ
  | .clock => .live

end Sys2Proof.Machine
end

