-- ==== Sys2Proof/Tests/Slice0.lean ====
section
/-!
SUPPORT. Sys2Proof/Tests/Slice0.lean: tests of the model on small devices: the manual's worked examples, ill-formed commands
refused, and for every obligation a device and operands that meet its hypotheses, clause by clause (`witness_<obligation>`).
-/

namespace Sys2Proof.Tests

set_option Elab.async false

open Sys2Proof.Machine

/-! ### A small device -/

/-- Subindices set. -/
def puts (c : Chip) (l : List (Nat × Nat × Nat)) : Chip := l.foldl (fun c x => c.wr x.1 x.2.1 x.2.2) c

/-- A device in SERVICE: supplies good, domains awake, clocks locked, engine 0 working, plain QSPI with role FACTORY. -/
def base : Chip :=
  let c := chipReset .f
  puts { c with
      time := { c.time with lo := .present }
      power := { c.power with doms := List.replicate 9 .awake }
      tpp := { c.tpp with ready := true }
      start := { c.start with stage := 4, enginesUp := true } }
    [(0xA001, 2, 31), (0x1100, 4, 3), (0x1030, 1, 3), (0x2100, 1, 1), (0x4008, 2, 1), (0x4001, 2, 256), (0xE000, 3, 1)]

/-- A device with no command waiting. -/
def st (c : Chip) : State := ⟨[], c⟩

/-- The small device with subindices set. -/
def on (l : List (Nat × Nat × Nat)) : State := st (puts base l)

/-- A plain request over QSPI. -/
def qs : Envelope := ⟨.qspi, none, 1⟩

/-- What serves a request: the signing entry, the requester and the device. -/
def serving (c : Chip) (q : Envelope) (call : Call) : Option (Option Nat × Asker × Chip) :=
  match c.arrives q call with
  | none => none
  | some b =>
    match b.entryCheck q call with
    | .pass n a p =>
      let d := p.inc 0x1101 (7 - transportBit q.src)
      if (d.keptFor q).isNone && !callMiscounted call && (d.callNeeds a q call).isEmpty then some (n, a, d) else none
    | _ => none

def whoOf (c : Chip) (q : Envelope) (call : Call) : Option Nat := ((serving c q call).map (fun x => x.1)).getD none
def askerOf (c : Chip) (q : Envelope) (call : Call) : Asker := ((serving c q call).map (fun x => x.2.1)).getD default
def devOf (c : Chip) (q : Envelope) (call : Call) : Chip := ((serving c q call).map (fun x => x.2.2)).getD c
def rowAt (c : Chip) (idx sub : Nat) : Row := (c.grade.rule idx sub).getD default

theorem served {c : Chip} {q : Envelope} {call : Call} (h : (serving c q call).isSome = true) :
    c.Served q call (whoOf c q call) (askerOf c q call) (devOf c q call) := by
  unfold Chip.Served whoOf askerOf devOf
  unfold serving at *
  cases ha : c.arrives q call with
  | none => simp [ha] at h
  | some b =>
    simp only [ha] at h ⊢
    cases hb : b.entryCheck q call with
    | drop x => simp [hb] at h
    | refuse n k i x => simp [hb] at h
    | pass n a p =>
      simp only [hb] at h ⊢
      split at h
      · rename_i hk
        simp only [hk, if_true, Option.map_some, Option.getD_some]
        simp only [Bool.and_eq_true, Bool.not_eq_true', Option.isNone_iff_eq_none, List.isEmpty_iff] at hk
        exact ⟨b, p, rfl, hb, rfl, hk.1.1, hk.1.2, hk.2⟩
      · simp at h

/-- A write of bytes passes checks 1 to 10. -/
def takesBytes (c : Chip) (q : Envelope) (idx sub : Nat) (b : List Nat) : Bool :=
  match c.grade.rule idx sub with
  | none => false
  | some r =>
    let call := Call.write idx sub r.ty.code b
    let d := devOf c q call
    (serving c q call).isSome && (match d.writeForm (askerOf c q call) idx sub r.ty.code b true with
      | .ok x => x == r
      | .error _ => false) && d.valueErr r idx sub b true == none && (d.accessWake r).stateBad idx sub (r.stored b) == false

/-- A write of a number passes checks 1 to 10. -/
def takes (c : Chip) (q : Envelope) (idx sub v : Nat) : Bool :=
  match c.grade.rule idx sub with
  | none => false
  | some r => !r.var && r.stored (r.encode v) == v && takesBytes c q idx sub (r.encode v)

/-- The device that a write acts on, and its signing entry. -/
def devB (c : Chip) (q : Envelope) (idx sub : Nat) (b : List Nat) : Chip :=
  (devOf c q (.write idx sub (rowAt c idx sub).ty.code b)).accessWake (rowAt c idx sub)
def whoB (c : Chip) (q : Envelope) (idx sub : Nat) (b : List Nat) : Option Nat :=
  whoOf c q (.write idx sub (rowAt c idx sub).ty.code b)
def bytesAt (c : Chip) (idx sub v : Nat) : List Nat := (rowAt c idx sub).encode v

theorem takenBytes {c : Chip} {q : Envelope} {idx sub : Nat} {b : List Nat} (h : takesBytes c q idx sub b = true) :
    c.BytesTaken q idx sub b (whoB c q idx sub b) (rowAt c idx sub) (devB c q idx sub b) := by
  unfold takesBytes at h
  cases hr : c.grade.rule idx sub with
  | none => simp [hr] at h
  | some r =>
    simp only [hr, Bool.and_eq_true, beq_iff_eq] at h
    obtain ⟨⟨⟨h1, h2⟩, h3⟩, h4⟩ := h
    have e : rowAt c idx sub = r := by simp [rowAt, hr]
    refine ⟨by rw [e]; exact hr, askerOf c q (.write idx sub r.ty.code b), devOf c q (.write idx sub r.ty.code b), ?_, ?_, ?_, ?_, ?_⟩
    · unfold whoB; rw [e]; exact served h1
    · unfold devB; rw [e]
    · rw [e]
      split at h2
      · rename_i x hx
        rw [hx]; simpa using h2
      · simp at h2
    · rw [e]; exact h3
    · unfold devB; rw [e]; exact h4

theorem taken {c : Chip} {q : Envelope} {idx sub v : Nat} (h : takes c q idx sub v = true) :
    c.WriteTaken q idx sub v (whoB c q idx sub (bytesAt c idx sub v)) (rowAt c idx sub) (devB c q idx sub (bytesAt c idx sub v)) := by
  unfold takes at h
  cases hr : c.grade.rule idx sub with
  | none => simp [hr] at h
  | some r =>
    simp only [hr, Bool.and_eq_true, beq_iff_eq, Bool.not_eq_true'] at h
    have e : rowAt c idx sub = r := by simp [rowAt, hr]
    refine ⟨by rw [e]; exact h.1.1, by rw [e]; exact h.1.2, ?_⟩
    have := takenBytes h.2
    unfold bytesAt
    rw [← e] at this
    exact this

/-- A read passes checks 1 to 10. -/
def reads (c : Chip) (q : Envelope) (idx sub : Nat) : Bool :=
  (serving c q (.read idx sub)).isSome &&
    (devOf c q (.read idx sub)).readRefusal (askerOf c q (.read idx sub)) idx sub true == none

theorem readTaken {c : Chip} {q : Envelope} {idx sub : Nat} (h : reads c q idx sub = true) :
    c.ReadTaken q idx sub (whoOf c q (.read idx sub)) (devOf c q (.read idx sub)) := by
  simp only [reads, Bool.and_eq_true, beq_iff_eq] at h
  exact ⟨_, served h.1, h.2⟩

/-! ### Frames and sessions of the small device -/

def peerMac : Nat := 0x020000000001
/-- A PTP frame over Ethernet from the peer. -/
def eth (dst : Nat) (m : List Nat) : List Nat := toBytes 6 dst ++ toBytes 6 peerMac ++ [0x88, 0xF7] ++ m
/-- A PTP message of port identity 5 with sequenceId 9. -/
def ptp (ty flags : Nat) (body : List Nat) : List Nat :=
  [ty, 0x12] ++ toBytes 2 (34 + body.length) ++ [0, 0] ++ toBytes 2 flags ++ List.replicate 12 0 ++ toBytes 10 5 ++ [0, 9, 0, 0] ++ body
def rxd (b : List Nat) : RxDesc := { (default : RxDesc) with bytes := b }
/-- A frame at the head of a receive ring, which the engines' duties `w` have use for. -/
def onRing (c : Chip) (p k : Nat) (b : List Nat) (w : Option (List Nat) := none) : Chip :=
  c.modPort p (fun x => { x with rx := modNth x.rx k (fun _ => [{ rxd b with want := w }]) })
/-- Engine 0 works on every share of the hand. -/
def manned (c : Chip) : Chip := { c with sess := { c.sess with bounds := [(0, 0)] } }
/-- A transmit descriptor of the host with 60 bytes. -/
def txb : List Nat := [0, 60, 0, 0, 128] ++ List.replicate 87 0
/-- Identity 77, port 7 up, instance 0 of profile 1 master on it, servo 3 on it. -/
def svc : Chip :=
  let c := puts base [(0x5017, 1, 1), (0x6210, 1, 1), (0x6210, 3, 128), (0x6223, 1, 1), (0x6223, 3, 128), (0x6001, 1, 5), (0x6210, 5, 0)]
  { c with objs := mset (okey 0x6200 1) 77 (mset (okey 0x5007 4) 0x020000000077 c.objs) }
/-- Session 3 on port 7 with a peer: mode 2. -/
def sess (mac dev : Nat) : Session := ⟨3, 2 * 2 ^ 254 + 7 * 2 ^ 248 + mac * 2 ^ 128, dev, 0, 0, 0⟩
def withSess (mac dev : Nat) : Chip := svc.putSession (sess mac dev)
def mst : Master := ⟨5, 7, 0, 0, 0, 0, 0, 0, peerMac, 0, 0, 2 ^ 80⟩
/-- Servo 3 with its master selected. -/
def withMaster (f : Servo → Servo) : Chip := svc.modServo 3 (fun x => f { x with masters := [mst], selected := some 5 })

/-! ### Transfers -/

/-- What an immediate write leaves. -/
def doneOf : Wrote → Chip
  | .done c => c
  | _ => base
/-- A read transfer of the QSPI requester at its third segment, and a write transfer at its second. -/
def rdT : Transfer := ⟨7, askedOf qs, false, 0x2000, 2, 0, 8, List.range 8, 2, 0, 4, false⟩
def wrT : Transfer := ⟨7, askedOf qs, true, 0x2000, 2, (rowAt base 0x2000 2).ty.code, 8, [0], 1, 0, 1, false⟩
def withTransfer (t : Transfer) : Chip := { base with tpp := { base.tpp with transfers := [t] } }

def errOf : Except Nat Row → Option Nat
  | .error e => some e
  | .ok _ => none
theorem isError {x : Except Nat Row} {k : Nat} (h : errOf x = some k) : x = .error k := by
  cases x <;> simp_all [errOf]

def saysDone : Wrote → Bool
  | .done _ => true
  | _ => false
theorem isDone {w : Wrote} (h : saysDone w = true) : w = .done (doneOf w) := by
  cases w <;> simp_all [saysDone, doneOf]
/-- A write of NOMINAL_FREQ does not look at the request that waits. -/
theorem askFree (c : Chip) (a : Asker) (x : Option (Envelope × Call)) (ty : Nat) (d : List Nat) (w : Bool) :
    c.writeAny a x 0x2000 2 ty d w = c.writeAny a none 0x2000 2 ty d w := by
  simp [Chip.writeAny, Chip.writeObject, Chip.putValue, secDefers]

/-- The journal of an erasure cannot be read and the lifecycle record reads `lc`. -/
def readsLc (c : Chip) (lc : Nat) : Bool :=
  (c.secLoad (.journal 0)).1.isNone && (match (c.secLoad .lifecycle).1 with
    | some p => byteAt p 0 == lc
    | none => false)
theorem lcOf {c : Chip} {lc : Nat} (h : readsLc c lc = true) :
    (c.secLoad (.journal 0)).1 = none ∧ ∃ p, (c.secLoad .lifecycle).1 = some p ∧ byteAt p 0 = lc := by
  unfold readsLc at h
  cases hl : (c.secLoad .lifecycle).1 <;> simp_all [Option.isNone_iff_eq_none]
/-- A device whose Steward has not started, with a lifecycle record, and RST_N low or high. -/
def starting (lc : Nat) (low : Bool) : State :=
  st ((puts base [(0x1030, 1, 0)]).putImage 0x1000 (recordImage 0x4C43 1 [lc, 0, 0, 0, 0, 0, 0, 0]) |>.modStart
    (fun u => { u with stage := 0, rstLow := low, powered := true }) |>.modTpp (fun x => { x with ready := false }))
/-- No hold-off of a REF runs at an instant. -/
theorem noHold {c : Chip} {l at_ : Nat} (h : (match (c.cand l).held with
    | some x => decide (x + c.rd (0x2000 + l) 4 * 1024 ≤ at_)
    | none => true) = true) : ¬ (l < 16 ∧ ∃ h, (c.cand l).held = some h ∧ at_ < h + c.rd (0x2000 + l) 4 * 1024) := by
  rintro ⟨-, x, hx, hl⟩
  rw [hx] at h
  simp at h
  omega
/-- A lane without an edge has no predicted one. -/
theorem noEdge {c : Chip} {l : Nat} {P : Nat → Prop} (h : (c.lane l).lastEdge.isNone = true) : ¬ ∃ e, (c.lane l).lastEdge = some e ∧ P e := by
  rintro ⟨e, he, -⟩
  simp [he] at h
/-- The time-of-day port with an edge of PPS_REF at mono 0. -/
def todAt (mono : Nat) (l : List (Nat × Nat × Nat)) (f : TodUnit → TodUnit := id) : State :=
  st { puts base l with time := { base.time with mono := mono }, tod := f { base.tod with edge := some 0 } }
/-- A message that describes its edge with a time. -/
def tm (v : Nat) : TodMsg := ⟨some v, true, true, 2, 0, 37, 0, 0, 0⟩
/-- "$GPZDA,120000,01,01,2030,00,00*4A". -/
def zda : List Nat := [36, 71, 80, 90, 68, 65, 44, 49, 50, 48, 48, 48, 48, 44, 48, 49, 44, 48, 49, 44, 50, 48, 51, 48, 44, 48, 48, 44, 48, 48, 42, 52, 65]
/-- A channel that runs, with candidate 27 QUALIFIED and ready in entry 28. -/
def chanOn (ch : Nat) (l : List (Nat × Nat × Nat)) (f : Chan → Chan := id) : Chip :=
  (puts base ([(0x3000 + ch, 1, 1), (0x3100 + ch, 28, 27 * 256), (0x203B, 1, 2)] ++ l)).modChan ch
    (fun k => f { k with on := true, shadows := modNth k.shadows 27 (fun _ => ⟨[0, 0, 0, 0]⟩) })
theorem onlyOne {c : Chip} {ch k : Nat} (h : (c.selectable ch 0 k && decide (1 ≤ k) && decide (k ≤ 28) &&
    (List.range 29).all (fun j => j == 0 || j == k || !c.selectable ch 0 j)) = true) :
    c.selectable ch 0 k = true ∧ 1 ≤ k ∧ k ≤ 28 ∧ ∀ j, 1 ≤ j → j ≤ 28 → j ≠ k → c.selectable ch 0 j = false := by
  simp only [Bool.and_eq_true, decide_eq_true_eq, List.all_eq_true, List.mem_range, Bool.or_eq_true, beq_iff_eq,
    Bool.not_eq_true'] at h
  refine ⟨h.1.1.1, h.1.1.2, h.1.2, fun j h1 h2 h3 => ?_⟩
  rcases h.2 j (by omega) with (h4 | h4) | h4
  · omega
  · exact absurd h4 h3
  · exact h4
theorem noneReady {c : Chip} {ch : Nat} (h : (List.range 29).all (fun j => j == 0 || !c.selectable ch 0 j) = true) :
    ∀ k, 1 ≤ k → k ≤ 28 → c.selectable ch 0 k = false := by
  intro j h1 h2
  simp only [List.all_eq_true, List.mem_range, Bool.or_eq_true, beq_iff_eq, Bool.not_eq_true'] at h
  rcases h j (by omega) with h4 | h4
  · omega
  · exact h4
/-- A frame with its check. -/
def framed (f : List Nat) : List Nat := f ++ fcsOf f
/-- A frame of 60 bytes to an address, of a private EtherType. -/
def plainTo (dst : Nat) : List Nat := toBytes 6 dst ++ toBytes 6 peerMac ++ [0x88, 0xB6] ++ List.replicate 46 0
/-- Port 7 up, its PHY good. -/
def port7 (l : List (Nat × Nat × Nat)) (f : Port → Port := id) : Chip := (puts base ([(0x5007, 1, 1), (0x5017, 1, 1)] ++ l)).modPort 7 f
def txd : TxDesc := { (default : TxDesc) with bytes := List.replicate 60 0, flags := 128, ring := 2, tsId := 9 }
/-- A received frame that the engines' duties `w` have use for. -/
def rxw (b : List Nat) (w : List Nat) : RxDesc := { rxd b with want := some w }
/-- A frame remembered by the transparent clock in hand `n`. -/
def hd (n : Nat) : Held := ⟨7, 5, 9, [], n⟩
/-- A Delay_Req, an ESMC PDU, a request for a grant and its cancel, from the peer. -/
def fDelayReq : List Nat := eth 0 (ptp 1 0 (List.replicate 10 0))
def fGroupReq : List Nat := eth 0x011B19000000 (ptp 1 0 (List.replicate 10 0))
def fAsk : List Nat := eth 0 (ptp 12 0 (List.replicate 10 0 ++ [0, 4, 0, 6, 0, 0, 0, 0, 1, 0]))
def fCancel : List Nat := eth 0 (ptp 12 0 (List.replicate 10 0 ++ [0, 6, 0, 2, 0, 0]))
def fAnnounce : List Nat := eth 0 (ptp 11 0 (List.replicate 27 0 ++ [0, 254, 32]))
def fSync (flags : Nat) : List Nat := eth 0 (ptp 0 flags (List.replicate 9 0 ++ [7]))
def fFollow : List Nat := eth 0 (ptp 8 0 (List.replicate 9 0 ++ [7]))
def fDelayResp : List Nat := eth 0 (ptp 9 0 (List.replicate 10 0 ++ toBytes 10 (svc.portIdent 7)))
def fGrant (n : Nat) : List Nat := eth 0 (ptp 12 0 (List.replicate 10 0 ++ [0, 5, 0, 8, 16, 0, 0, 0, n, 0, 0, 1]))
def fPdelay (flags : Nat) : List Nat := eth 0 (ptp 3 flags (List.replicate 10 0 ++ toBytes 10 (svc.portIdent 7)))
def fEsmc : List Nat := List.replicate 12 0 ++ [0x88, 9, 10, 0, 25, 167, 0, 1, 16, 0, 0, 0, 1, 0, 4, 2]
/-- Servo 3 locked to its master, its engine at work, with a Sync received. -/
def atDelay : Chip := puts (manned (withMaster fun x => { x with sync := some ⟨9, some 0, 0, 0, false⟩ })) [(0x622B, 1, 3)]
/-- Servo 3 of a unicast profile with one master in its table. -/
def atGrants : Chip := puts (manned svc) [(0x6210, 1, 4), (0x6223, 9, 7 * 2 ^ 176 + peerMac * 2 ^ 128)]
/-- A transparent clock on ports 6 and 7. -/
def atTc (l : List (Nat × Nat × Nat)) : Chip := puts (manned svc) ([(0x6210, 4, 192), (0x5016, 1, 1)] ++ l)
/-- A destructive read transfer, not returned whole. -/
def rdL : Transfer := { rdT with destructive := true }

/-! ### Every hypothesis can be met -/

abbrev oStewardRestartsWithItsCause_restarted (d : Chip) (cause : Nat) : Prop :=
    d.rd 0x1030 1 = 0 ∧ d.rd 0x1030 2 = cause ∧ d.staged = [] ∧ d.tpp.ready = false ∧ d.tpp.inbox = [] ∧ d.tpp.outbox = [] ∧
      d.tpp.transfers = [] ∧ d.tpp.kept = [] ∧ d.start.stage = 0

abbrev oStewardStartsToInit_ready (c : Chip) (lc : Nat) : Prop := c.start.stage = 0 ∧ c.start.powered = true ∧ (c.secLoad (.journal 0)).1 = none ∧
    ∃ p, (c.secLoad .lifecycle).1 = some p ∧ byteAt p 0 = lc

abbrev oLoPresenceIsDeclared_absent (c d : Chip) : Prop := d.time.lo = .absent ∧ d.rdb 0x4000 4 1 = false ∧ d.rd 0x4000 7 = satAdd 32 (c.rd 0x4000 7) 1 ∧
    d.mclk = false ∧ (d.src 2).live = true

abbrev oLoPresenceIsDeclared_sound (c : Chip) : Prop := c.faults.srcs.length = 128 ∧ (c.src 2).broken = false ∧ c.rd 0x9102 4 = 0

abbrev oEngineClockMoves_expected (c : Chip) : Nat := roundDiv (c.nominal * 128) 100000000 * 1000000000 / c.nominal

abbrev oRepeatedAndLaterErrors_event (c : Chip) (x : Nat) : Prop := srcPresent c.grade x = true ∧ srcCond x = false ∧ c.srcDriven x = true ∧
    (c.src x).broken = false ∧ ¬ (104 ≤ x ∧ x < 120) ∧ c.faults.srcs.length = 128

abbrev oEdgesStartConversions_held (c : Chip) (l at_ : Nat) : Prop := l < 16 ∧ ∃ h, (c.cand l).held = some h ∧ at_ < h + c.rd (0x2000 + l) 4 * 1024

abbrev oEdgesStartConversions_wanted (c : Chip) (l : Nat) : Bool := decide (l < 16) && c.rdb (0x2000 + l) 3 6

abbrev oCalibrationPairs_next (c : Chip) (l p : Nat) : Prop := ∃ e, (c.lane l).lastEdge = some e ∧ e ≤ p ∧
    (((c.lane l).interval = some (p - e) ∧ ratAbs (((p - e : Nat) : Rat) - c.nominalCycles l) * 100 ≤ c.nominalCycles l) ∨
      ((∀ i, (c.lane l).interval = some i → c.nominalCycles l < ratAbs ((i : Rat) - c.nominalCycles l) * 100) ∧
        p = e + (c.nominalCycles l).floor.toNat))

abbrev oCalibrationPairs_valid (r1 r2 : Nat) : Prop := 768 ≤ r1 ∧ r1 ≤ 1280 ∧ r1 + 896 ≤ r2 ∧ r2 ≤ r1 + 1152

abbrev oCalibrationPairs_raw (m : RingCounts) : Nat := 32 * m.nc - m.nv

abbrev oMeasurementClockLock_expected (c : Chip) : Int := 1024 * 312500000 / c.nominal

abbrev oCandidatesChangeState_lost (c d : Chip) (n : Nat) : Prop := d.failBit n 0 = true ∧ (d.cand n).actOk = false ∧ (d.cand n).run = 0 ∧
    (c.qState n ≠ 0 → d.rd (0x2040 + n) 8 = satAdd 32 (c.rd (0x2040 + n) 8) 1) ∧
    c.Frame d [.cands] [(0x2020 + n, 3), (0x2040 + n, 8)]

abbrev oTimeOfDayMessages_on (c : Chip) : Prop := c.rdb 0x1240 1 0 = true

abbrev oTimeOfDayMessages_body (ver secs flags utc st ql teb : Nat) : List Nat :=
    [ver, 18] ++ toBytes 6 secs ++ [0, flags] ++ toBytes 2 utc ++ [st, ql] ++ toBytes 4 teb ++ [0, 0]

abbrev oTimeOfDayMessages_inWindow (c : Chip) (e len : Nat) : Prop := e + 100000000 * nsUnit ≤ c.time.mono - c.uartTime len ∧
    c.time.mono ≤ e + 900000000 * nsUnit

abbrev oTimeIntervalUnits_runs (c : Chip) (a : Nat) : Prop := c.awake .sense = true ∧ c.mclk = true ∧ c.grade.hasSrc (c.rd (0x2160 + a) 2) = true ∧
    c.grade.hasSrc (c.rd (0x2160 + a) 3) = true

abbrev oTimeIntervalUnits_arms (i : Instr) (s : State) (q : Envelope) (a v : Nat) (n : Option Nat) (e : Chip) : Prop :=
    e.tdc.aux.length = 2 → ∃ d : Chip, Acts i s (d.saidOk q n (0x2160 + a) 1) ∧ (d.aux a).start = none ∧ (d.aux a).stop = none ∧
      (d.aux a).held = [] ∧
      (v = 0 ∨ oTimeIntervalUnits_runs e a → d.armed a = v ∧ e.Frame d [.tdc] [(0x2160 + a, 1)]) ∧
      (v ≠ 0 → ¬ oTimeIntervalUnits_runs e a → d.armed a = 0 ∧ d.rdb (0x2168 + a) 1 2 = true ∧ e.Frame d [.tdc] [(0x2160 + a, 1), (0x2168 + a, 1)])

abbrev oTimeIntervalUnits_used (c : Chip) (a src : Nat) : Prop := c.awake .sense = true ∧ c.mclk = true ∧ c.armed a ≠ 0 ∧ c.tdc.aux.length = 2 ∧
    (src < 16 → c.refMode src ≠ 0)

abbrev oChannelsChangeState_runs (c : Chip) (ch : Nat) : Prop := c.tcOn ch = true ∧ c.suspended ch = false ∧ c.chans.length = 8

abbrev oChannelsChangeState_only (c : Chip) (ch k : Nat) : Prop := c.selectable ch 0 k = true ∧ 1 ≤ k ∧ k ≤ 28 ∧
    ∀ j, 1 ≤ j → j ≤ 28 → j ≠ k → c.selectable ch 0 j = false

abbrev oChannelsChangeState_counted (c d : Chip) (ch : Nat) : Prop := d.rd (0x3010 + ch) 0x0E = satAdd 32 (c.rd (0x3010 + ch) 0x0E) 1

abbrev oSelectionWritesAct_entry (e d : Chip) (ch k v : Nat) : Prop := d.rd (0x3100 + ch) k = v ∧
    e.Frame d [.chans, .nv] [(0x3100 + ch, k), (0x3000 + ch, 0x0C), (0x3010 + ch, 1), (0x3110 + ch, k), (0x3118 + ch, k), (0x8010, 3)] ∧
    (field 15 8 v ≠ e.entryCand ch k → d.rd (0x3110 + ch) k = 0x80000000 ∧ (e.chans.length = 8 → k ≤ 28 → (d.shadow ch k).diffs = [])) ∧
    (e.rd (0x3000 + ch) 0x0C ≠ 0xFF → e.entryCand ch k = e.rd (0x3000 + ch) 0x0C →
      (field 15 8 v ≠ e.entryCand ch k ∨ bit 7 v = true ∧ e.entryLocked ch k = false) → d.rd (0x3000 + ch) 0x0C = 0xFF) ∧
    (e.entryCand ch k ≠ e.rd (0x3000 + ch) 0x0C → d.rd (0x3000 + ch) 0x0C = e.rd (0x3000 + ch) 0x0C)

abbrev oBoundAndModel_unknown (d : Chip) (ch why : Nat) : Prop := d.rd (0x3030 + ch) 1 = 0x3FFFF ∧ d.rd (0x3030 + ch) 2 = 2 ^ 64 - 1 ∧
    d.rd (0x3030 + ch) 3 = why

abbrev oGroupsHopAndLock_on (c : Chip) (g : Fin 8) : Prop := c.awake .synth = true ∧ c.loPresent = true ∧
    c.start.untrusted.contains (.group g) = false ∧ c.synth.groups.length = 8

abbrev oOutputsFollowTheirGroups_fence (c : Chip) (k : Nat) : Rat := c.fenceHz (k / 2) (c.activePlan (k / 2))

abbrev oOutputsFollowTheirGroups_short (c : Chip) (k ps : Nat) : Bool := decide ((ps : Rat) < 450000000000 / oOutputsFollowTheirGroups_fence c k)

abbrev oCounterStepsAndLeaps_asked (e d : Chip) : Prop := d.rdb 0x1201 1 2 = true ∧ d.rd 0x3030 1 = 0x3FFFF ∧ d.rd 0x3030 2 = 2 ^ 64 - 1 ∧
    (e.tcOn 0 = true → d.rd 0x3030 3 = 3) ∧
    e.Frame d [.time, .hand, .chans, .nv] [(0x1201, 1), (0x3030, 1), (0x3030, 2), (0x3030, 3)]

abbrev oTriggersArmAndFire_wrote (e d : Chip) (u v : Nat) : Prop := d.rd (0x7000 + u) 1 = v ∧ d.ttuActive u = e.ttuActive u ∧
    e.Frame d [.ttus, .nv] [(0x7000 + u, 1), (0x7008 + u, 1), (0x7008 + u, 4), (0x8010, 3)]

abbrev oLinksRiseAndFall_on (c : Chip) (p : Fin 8) : Prop := c.portOn p.val = true ∧ c.portAlive = true ∧ c.ports.length = 8

abbrev oLinksRiseAndFall_receiving (c : Chip) (p : Nat) (rx : Bool) : Chip := c.modPort p (fun x => { x with receiving := rx })

abbrev oFramesAreReceived_on (c : Chip) (p : Fin 8) : Prop := c.portOn p.val = true ∧ c.carries p.val = true

abbrev oFramesAreSent_sending (c : Chip) (p : Nat) : Prop := c.up p = true ∧ c.awake .port = true ∧ c.timingOnly = false ∧
    c.rdb (0x5010 + p) 1 7 = false ∧ (c.port p).wakeEnd ≤ c.time.mono ∧ (c.port p).ltu = [] ∧ (c.port p).open_ = none

abbrev oDealsGoThroughTheirSteps_kept (c : Chip) : Prop := ∀ x ∈ c.hand.rwd, isRwd x.1 = true

abbrev oServosExchangeMessages_kept (c : Chip) : Prop := c.sess.servos.length = 4

abbrev oServosExchangeMessages_room (c : Chip) (p : Nat) (y : TxDesc) : Prop := (c.txRing p 1).length < c.txSlots p 1 ∧
    c.txHeld p 1 + cellsOf y.bytes.length ≤ c.txReserve p 1 ∧ p < c.ports.length ∧ (c.port p).tx.length = 3

abbrev oNeighboursAreServed_tc (c : Chip) (p o : Fin 8) (i : Nat) (f : RxDesc) : Prop := c.shedding = false ∧ f.want = some [useForward] ∧
    c.instFor p.val (ptpOf f.bytes) = some i ∧ c.tcOnPort i p.val = true ∧ c.forwardRuns i = true ∧ c.tcOthers i p.val = [o.val] ∧
    c.up o.val = true ∧ (c.port o.val).tx.length = 3 ∧ c.ports.length = 8

abbrev oRecordsAndCardsAreWritten_next (c : Chip) : Nat × Nat :=
    match (c.twoSlot (storeSlot 0) (storeSlot 1) 0x5053 32768).1 with
    | some (slot, seq, _) => (1 - slot, (seq + 1) % 2 ^ 32)
    | none => (0, 1)

abbrev oSecurityChangesAreRecorded_asked (e d : Chip) (t : Nat) : Prop := d.sec.changing = some t ∧ d.rd 0xB100 1 = 0 ∧
    d.sec.jobs.getLast? = some ⟨.change t, [.lifecycle], none⟩ ∧ d.rd 0xB000 1 = e.rd 0xB000 1 ∧
    (e.rd 0xB100 1 = 0 → d.sec = { e.sec with changing := some t, jobs := e.sec.jobs ++ [⟨.change t, [.lifecycle], none⟩] } ∧
      e.Frame d [.sec] [])

abbrev oKeysAct_key (c : Chip) (k : Fin 8) (role : Nat) : Prop := c.rdb 0xC002 1 k.val = true ∧ bit k.val c.panel.long = false ∧
    c.rdb 0xA001 2 4 = true ∧ c.rd 0xC001 (k.val + 1) = role

abbrev oKeysAct_up (c d : Chip) (k : Fin 8) : Prop := d.rd 0xC002 1 = setBit k.val (c.rd 0xC002 1) false

abbrev oKeysAct_done (c d : Chip) (k : Fin 8) (long out : Nat) : Prop := c.cursorOn = false →
    d.rd 0xC002 3 = k.val * 2 ^ 21 + long * 2 ^ 20 + out * 2 ^ 17 + 31 * 2 ^ 9 ∧
      d.rd 0xC002 4 = satAdd 32 (c.rd 0xC002 4) (if out = 0 then 1 else 0) ∧
      d.rd 0xC002 5 = satAdd 32 (c.rd 0xC002 5) (if out = 0 then 0 else 1)

abbrev oInternalAccessesAreJudged_there (c : Chip) (m : Nat) : Prop := ¬ (m < 16 ∧ c.grade.engines ≤ m) ∧ ¬ (0x13 ≤ m ∧ m < 0x1B ∧ c.grade.ports ≤ m - 0x13) ∧
    c.faults.srcs.length = 128

abbrev oInternalAccessesAreJudged_plain (m : Nat) : Prop := m ≠ 0x11 ∧ m ≠ 0x12

abbrev oInternalAccessesAreJudged_code (k : AccessKind) : Nat := match k with
    | .read => 1
    | .write => 2
    | .execute => 3

abbrev oInternalAccessesAreJudged_sleeps (c : Chip) (r : Area) : Bool := r.dom != .mast && !c.awake r.dom

abbrev oInternalAccessesAreJudged_wakes (c : Chip) (m : Nat) : Bool := m == 0x10 || (m == 0x1B && c.powerState == 0)

abbrev oInternalAccessesAreJudged_refused (c d : Chip) (src m how addr : Nat) (k : AccessKind) : Prop :=
    d.start = (if k = .write then c.start else { c.start with busRead := 0 }) ∧ d.ports = c.ports ∧ d.sess = c.sess ∧
    d.nv.cells = c.nv.cells ∧ d.nv.queue = c.nv.queue ∧ ((c.src src).broken = false → (d.src src).pennant = true ∧
      d.rd (0x9100 + src) 5 = satAdd 32 (c.rd (0x9100 + src) 5) 1 ∧
      ((c.src src).pennant = false → c.rdb 0x9010 1 15 = false → d.rdf 0x9010 1 6 0 = src ∧ d.rd 0x9010 2 = m ∧
        d.rd 0x9010 3 = how ∧ d.rd 0x9010 4 = addr))

theorem witness_StepRunsTheFrontCommand :
    ∃ (s : State), s.pending = [] :=
  ⟨State.reset, by decide +kernel⟩

theorem witness_EveryStepKeepsTheInvariant :
    ∃ (s t : State), s.chip.Sound ∧ step s = .next t :=
  ⟨State.reset, _, by unfold Chip.Sound; decide +kernel, rfl⟩

theorem witness_RequestsParseBack :
    ∃ (q : Envelope) (call : Call), q.wf = true ∧ call.wf = true ∧ (encodeRequest q.tid q.auth call).length ≤ 1400 :=
  ⟨qs, .write 0xFFFF 0xFF 0xFF [0, 255], by decide +kernel⟩

theorem witness_BoundsAreEncodedUpward :
    (∃ (lim _ _ _ _ : Nat), 1 ≤ lim) ∧
    (∃ lim top v e m, encodeBound lim top v = some (e, m)) ∧
    (∃ v e m, encodeBound 8191 30 v = some (e, m)) ∧
    (∃ v, encodeBound 8191 30 v = none) ∧
    (∃ t, field 12 0 t = 0) :=
  ⟨⟨1, 0, 0, 0, 1, by decide +kernel⟩,
   ⟨8191, 30, 1234567, 8, 4823, by decide +kernel⟩,
   ⟨1234567, 8, 4823, by decide +kernel⟩,
   ⟨8191 * 2 ^ 30 + 1, by decide +kernel⟩,
   ⟨8192, by decide +kernel⟩⟩

theorem witness_UnitPresenceIsConst :
    (∃ (_ : Chip) (_ : Asker) (sub _ : Nat) (_ : List Nat) (_ : Bool), 1 ≤ sub ∧ sub ≤ 4) ∧
    (∃ (s t : State), step s = .next t) :=
  ⟨⟨base, ⟨0, true⟩, 4, 0, [], true, by decide +kernel⟩,
   ⟨State.reset, _, rfl⟩⟩

theorem witness_MastPowerRestartsTheDevice :
    ∃ (s : State) (_ : Nat) (p : NvProg), s.chip.nv.prog = some p ∧ (p.bytes.map (·.1)).Nodup ∧ Memory.wf
      s.chip.nv.cells = true :=
  ⟨st { base with nv := { base.nv with prog := some ⟨4095, [(0, 0), (64, 5), (255, 256)], 0, .cardBody⟩ } }, 1, ⟨4095,
    [(0, 0), (64, 5), (255, 256)], 0, .cardBody⟩, by decide +kernel⟩

theorem witness_StewardRestartsWithItsCause :
    (∃ (s : State), s.chip.start.rstLow = false) ∧
    (∃ (s : State), s.chip.faults.chipReset = true) ∧
    (∃ (s : State) (q : Envelope) (n : Option Nat) (r : Row) (e : Chip), s.chip.WriteTaken q 0x1030 6 0x00525354 n r
      e) :=
  ⟨⟨st base, by decide +kernel⟩,
   ⟨st (base.modFaults fun f => { f with chipReset := true }), by decide +kernel⟩,
   ⟨st base, qs, _, _, _, taken (by decide +kernel)⟩⟩

theorem witness_StewardStartsToInit :
    (∃ (s : State) (_ : Fin 8) (mode : Fin 4), oStewardStartsToInit_ready s.chip 0 ∧ mode.val ≠ 0) ∧
    (∃ (s : State) (_ : Fin 8) (mode : Fin 4) (lc : Nat), oStewardStartsToInit_ready s.chip lc ∧ (lc ≠ 0 ∨ mode.val =
      0) ∧ s.chip.start.rstLow = true ∧ s.chip.rd 0x1030 1 = 0 ∧ s.chip.tpp.ready = false) ∧
    (∃ (s : State) (_ : Fin 8) (mode : Fin 4) (lc : Nat), oStewardStartsToInit_ready s.chip lc ∧ (lc ≠ 0 ∨ mode.val =
      0) ∧ s.chip.start.rstLow = true ∧ s.chip.rd 0x1030 1 = 0 ∧ s.chip.tpp.ready = false) ∧
    (∃ (s : State) (_ : Fin 8) (mode : Fin 4) (lc : Nat), oStewardStartsToInit_ready s.chip lc ∧ (lc ≠ 0 ∨ mode.val =
      0) ∧ s.chip.start.rstLow = false) ∧
    (∃ (s : State) (_ : Fin 8) (mode : Fin 4) (lc : Nat), oStewardStartsToInit_ready s.chip lc ∧ (lc ≠ 0 ∨ mode.val =
      0) ∧ s.chip.start.rstLow = false) ∧
    (∃ (s : State), s.chip.start.rstLow = true ∧ s.chip.start.stage = 1 ∧ s.chip.phase = 0) ∧
    (∃ (s : State), s.chip.start.rstLow = true ∧ s.chip.start.stage = 0) :=
  ⟨⟨starting 0 false, 7, 3, ⟨by decide +kernel, by decide +kernel, (lcOf (lc := 0) (by decide +kernel)).1, (lcOf (lc
     := 0) (by decide +kernel)).2⟩, by decide +kernel⟩,
   ⟨starting 0 true, 7, 0, 0, ⟨by decide +kernel, by decide +kernel, (lcOf (lc := 0) (by decide +kernel)).1, (lcOf (lc
     := 0) (by decide +kernel)).2⟩, by decide +kernel⟩,
   ⟨starting 3 true, 7, 3, 3, ⟨by decide +kernel, by decide +kernel, (lcOf (lc := 3) (by decide +kernel)).1, (lcOf (lc
     := 3) (by decide +kernel)).2⟩, by decide +kernel⟩,
   ⟨starting 0 false, 7, 0, 0, ⟨by decide +kernel, by decide +kernel, (lcOf (lc := 0) (by decide +kernel)).1, (lcOf
     (lc := 0) (by decide +kernel)).2⟩, by decide +kernel⟩,
   ⟨starting 3 false, 7, 3, 3, ⟨by decide +kernel, by decide +kernel, (lcOf (lc := 3) (by decide +kernel)).1, (lcOf
     (lc := 3) (by decide +kernel)).2⟩, by decide +kernel⟩,
   ⟨st ((puts base [(0x1030, 1, 0)]).modStart fun u => { u with rstLow := true, stage := 1 }), by decide +kernel⟩,
   ⟨starting 0 true, by decide +kernel⟩⟩

theorem witness_SelfTestAndLoadEnd :
    (∃ (s : State) (_ _ _ _ _ : Nat) (_ : Bool), s.chip.phase = 2 ∧ s.chip.start.stage = 3 ∧ s.chip.start.loading =
      false) ∧
    (∃ (s : State) (_ _ _ _ _ : Nat) (_ : Bool), s.chip.phase = 2 ∧ s.chip.start.stage = 3 ∧ s.chip.start.loading =
      false) ∧
    (∃ (s : State) (_ _ _ _ _ : Nat) (_ : Bool), s.chip.phase = 2 ∧ s.chip.start.stage = 3 ∧ s.chip.start.loading =
      false) ∧
    (∃ (s : State) (_ _ _ _ _ : Nat) (_ : Bool), s.chip.phase = 2 ∧ s.chip.start.stage = 3 ∧ s.chip.start.loading =
      false) ∧
    (∃ (s : State) (_ : Nat), s.chip.start.loading = true ∧ s.chip.start.imageBad = false) ∧
    (∃ (s : State) (_ : Nat), s.chip.start.loading = true) ∧
    (∃ (s : State) (_ : Nat), s.chip.start.loading = true) :=
  ⟨⟨st ((puts base [(0x1030, 1, 2)]).modStart fun u => { u with stage := 3 }), 0, 0, 0, 0, 0, false,
     by decide +kernel⟩,
   ⟨st ((puts base [(0x1030, 1, 2)]).modStart fun u => { u with stage := 3 }), 2 ^ 65 - 1, 2 ^ 14, 2 ^ 23, 2 ^ 127, 2
     ^ 10, false, by decide +kernel⟩,
   ⟨st ((puts base [(0x1030, 1, 2)]).modStart fun u => { u with stage := 3 }), 2 ^ 64 - 1, 2 ^ 15 + 2 ^ 14, 2 ^ 24, 2
     ^ 128, 2 ^ 11, false, by decide +kernel⟩,
   ⟨st ((puts base [(0x1030, 1, 2)]).modStart fun u => { u with stage := 3 }), 0, 2 ^ 15 + 2 ^ 14 + 2 ^ 13, 0, 0, 0,
     true, by decide +kernel⟩,
   ⟨st (base.modStart fun u => { u with loading := true }), 2 ^ 32, by decide +kernel⟩,
   ⟨st (base.modStart fun u => { u with loading := true }), 0, by decide +kernel⟩,
   ⟨st ((puts base [(0x1030, 1, 2)]).modStart fun u => { u with loading := true }), 0, by decide +kernel⟩⟩

theorem witness_LoPresenceIsDeclared :
    (∃ (s : State), oLoPresenceIsDeclared_sound s.chip ∧ s.chip.time.lo ≠ .absent) ∧
    (∃ (s : State), oLoPresenceIsDeclared_sound s.chip ∧ s.chip.time.lo ≠ .absent) ∧
    (∃ (s : State), oLoPresenceIsDeclared_sound s.chip ∧ s.chip.time.lo = .undeclared) ∧
    (∃ (s : State), oLoPresenceIsDeclared_sound s.chip ∧ s.chip.time.lo ≠ .present) ∧
    (∃ (s : State), oLoPresenceIsDeclared_sound s.chip ∧ s.chip.time.lo ≠ .present) :=
  ⟨⟨on [(0x4008, 1, 2)], by decide +kernel⟩,
   ⟨State.reset, by decide +kernel⟩,
   ⟨State.reset, by decide +kernel⟩,
   ⟨State.reset, by decide +kernel⟩,
   ⟨st { puts base [(0x4008, 1, 3)] with time := { base.time with lo := .absent } }, by decide +kernel⟩⟩

theorem witness_EngineClockMoves :
    (∃ (s : State) (n : Nat), s.chip.awake .syspll = true ∧ s.chip.loPresent = true ∧ s.chip.start.untrusted.contains
      .syspll = false ∧ s.chip.syspllLocked = true ∧ 100 * n < 99 * oEngineClockMoves_expected s.chip) ∧
    (∃ (s : State) (n : Nat), s.chip.awake .syspll = true ∧ s.chip.loPresent = true ∧ s.chip.start.untrusted.contains
      .syspll = false ∧ s.chip.syspllLocked = true ∧ 100 * n < 99 * oEngineClockMoves_expected s.chip) ∧
    (∃ (s : State), s.chip.awake .syspll = true ∧ s.chip.loPresent = true ∧ s.chip.start.untrusted.contains .syspll =
      false ∧ s.chip.syspllLocked = false ∧ 3 ≤ s.chip.start.sysGood) ∧
    (∃ (s : State) (m : Nat), s.chip.start.muxTo = some m) ∧
    (∃ (s : State) (m : Nat), s.chip.start.muxTo = some m ∧ s.chip.start.muxHeld = true) ∧
    (∃ (s : State) (m : Nat), s.chip.start.muxTo = some m ∧ s.chip.start.muxHeld = true) ∧
    (∃ (s : State) (m : Nat), s.chip.start.muxTo = some m ∧ s.chip.start.muxHeld = true) ∧
    (∃ (s : State), s.chip.start.sysRestarting = true ∧ s.chip.syspllLocked = false) ∧
    (∃ (s : State), s.chip.start.sysRestarting = true ∧ s.chip.syspllLocked = false) :=
  ⟨⟨st base, 0, by decide +kernel⟩,
   ⟨st base, (99 * (roundDiv (base.nominal * 128) 100000000 * 1000000000 / base.nominal) - 1) / 100,
     by decide +kernel⟩,
   ⟨st ((puts base [(0x4008, 2, 0)]).modStart fun u => { u with sysGood := 3 }), by decide +kernel⟩,
   ⟨st (base.modStart fun u => { u with muxTo := some 1 }), 1, by decide +kernel⟩,
   ⟨st (base.modStart fun u => { u with muxTo := some 1, muxHeld := true }), 1, by decide +kernel⟩,
   ⟨st ((puts base [(0x4008, 1, 2)]).modStart fun u => { u with muxTo := some 1, muxHeld := true }), 1,
     by decide +kernel⟩,
   ⟨st (base.modStart fun u => { u with muxTo := some 2, muxHeld := true }), 2, by decide +kernel⟩,
   ⟨st ((puts base [(0x4008, 2, 0)]).modStart fun u => { u with sysRestarting := true, sysRestarts := 2 }),
     by decide +kernel⟩,
   ⟨st
     { puts base [(0x4008, 2, 0)] with power := { base.power with doms := List.replicate 9 .asleep }, start := { base.start with sysRestarting := true } },
     by decide +kernel⟩⟩

theorem witness_SelfTestsCount :
    (∃ (s : State), s.chip.testRuns 0 = true ∧ s.chip.spare < 16 ∧ (∀ e, e < 16 → s.chip.engState e ≠ 5)) ∧
    (∃ (s : State), s.chip.testRuns 1 = true ∧ s.chip.awake .fabric = true ∧ s.chip.start.withdrawn.contains 12287 =
      false) ∧
    (∃ (s : State) (x : Fin 12288), s.chip.testRuns 1 = true ∧ s.chip.awake .fabric = true ∧
      s.chip.start.withdrawn.contains x.val = false) ∧
    (∃ (s : State), s.chip.testRuns 4 = true) ∧
    (∃ (s : State) (x : Fin 128), s.chip.testRuns 4 = true ∧ srcPresent s.chip.grade x.val = true ∧ s.chip.srcDriven
      x.val = true) ∧
    (∃ (s : State) (_ : Monitor), s.chip.testRuns 5 = true) ∧
    (∃ (s : State) (p : Fin 8) (_ _ : Nat), s.chip.testRuns 6 = true ∧ s.chip.rxLpi p.val = true ∧ p.val <
      s.chip.grade.ports) ∧
    (∃ (s : State) (e : Fin 16), s.chip.engState e.val = 3 ∧ s.chip.start.retryWait.contains e.val = true ∧
      s.chip.recentFails e.val < 3 ∧ s.chip.heldFull e.val = false) ∧
    (∃ (s : State) (l : Nat), s.chip.testRuns 3 = true ∧ s.chip.armed 1 = 0 ∧ s.chip.tdc.crossLane = some l) :=
  ⟨⟨on [(0xD000, 1, 1), (0xE000, 1, 15)], by decide +kernel, by decide +kernel⟩,
   ⟨on [(0xD000, 1, 2)], by decide +kernel⟩,
   ⟨on [(0xD000, 1, 2)], 12287, by decide +kernel⟩,
   ⟨on [(0xD000, 1, 16)], by decide +kernel⟩,
   ⟨on [(0xD000, 1, 16)], 119, by decide +kernel⟩,
   ⟨on [(0xD000, 1, 32)], .mclk, by decide +kernel⟩,
   ⟨on [(0xD000, 1, 64), (0x5017, 1, 64)], 7, 65536, 65535, by decide +kernel⟩,
   ⟨st ((puts base [(0xE000, 18, 3)]).modStart fun u => { u with retryWait := [15] }), 15, by decide +kernel⟩,
   ⟨st { puts base [(0xD000, 1, 8)] with tdc := { base.tdc with crossLane := some 23 } }, 23, by decide +kernel⟩⟩

theorem witness_FirstErrorIsCaptured :
    (∃ (s : State) (src : Fin 128) (_ _ : Nat) (_ : Access), srcPresent s.chip.grade src.val = true ∧ src.val ≠ 1 ∧
      srcCond src.val = false ∧ s.chip.srcDriven src.val = true ∧ (s.chip.src src.val).broken = false ∧ (s.chip.src
      src.val).pennant = false ∧ s.chip.rdb 0x9010 1 15 = false ∧ src.val < s.chip.faults.srcs.length ∧ ¬ (104 ≤
      src.val ∧ src.val < 120)) ∧
    (∃ (s : State) (src : Fin 128) (_ _ : Nat) (_ : Access), srcPresent s.chip.grade src.val = true ∧ src.val ≠ 1 ∧
      srcCond src.val = false ∧ s.chip.srcDriven src.val = true ∧ (s.chip.src src.val).broken = false ∧ (s.chip.src
      src.val).pennant = false ∧ s.chip.rdb 0x9010 1 15 = false ∧ src.val < s.chip.faults.srcs.length ∧ ¬ (104 ≤
      src.val ∧ src.val < 120)) ∧
    (∃ (s : State) (src : Fin 128) (_ _ : Nat) (_ : Access), srcPresent s.chip.grade src.val = true ∧ src.val ≠ 1 ∧
      srcCond src.val = false ∧ s.chip.srcDriven src.val = true ∧ (s.chip.src src.val).broken = false ∧ (s.chip.src
      src.val).pennant = false ∧ s.chip.rdb 0x9010 1 15 = false ∧ src.val < s.chip.faults.srcs.length ∧ ¬ (104 ≤
      src.val ∧ src.val < 120)) ∧
    (∃ (s : State) (src : Fin 128) (_ _ : Nat) (_ : Access), srcPresent s.chip.grade src.val = true ∧ src.val ≠ 1 ∧
      srcCond src.val = false ∧ s.chip.srcDriven src.val = true ∧ (s.chip.src src.val).broken = false ∧ (s.chip.src
      src.val).pennant = false ∧ s.chip.rdb 0x9010 1 15 = false ∧ src.val < s.chip.faults.srcs.length ∧ ¬ (104 ≤
      src.val ∧ src.val < 120)) ∧
    (∃ (s : State) (src : Fin 128) (_ _ : Nat) (_ : Access), srcPresent s.chip.grade src.val = true ∧ src.val ≠ 1 ∧
      srcCond src.val = false ∧ s.chip.srcDriven src.val = true ∧ (s.chip.src src.val).broken = false ∧ (s.chip.src
      src.val).pennant = false ∧ s.chip.rdb 0x9010 1 15 = false ∧ src.val < s.chip.faults.srcs.length ∧ ¬ (104 ≤
      src.val ∧ src.val < 120)) ∧
    (∃ (s : State) (src : Fin 128) (_ _ : Nat) (_ : Access), srcPresent s.chip.grade src.val = true ∧ src.val ≠ 1 ∧
      srcCond src.val = false ∧ s.chip.srcDriven src.val = true ∧ (s.chip.src src.val).broken = false ∧ (s.chip.src
      src.val).pennant = false ∧ s.chip.rdb 0x9010 1 15 = false ∧ src.val < s.chip.faults.srcs.length ∧ ¬ (104 ≤
      src.val ∧ src.val < 120)) ∧
    (∃ (s : State) (src : Fin 128) (_ _ : Nat) (_ : Access), srcPresent s.chip.grade src.val = true ∧ src.val ≠ 1 ∧
      srcCond src.val = false ∧ s.chip.srcDriven src.val = true ∧ (s.chip.src src.val).broken = false ∧ (s.chip.src
      src.val).pennant = false ∧ s.chip.rdb 0x9010 1 15 = false ∧ src.val < s.chip.faults.srcs.length ∧ ¬ (104 ≤
      src.val ∧ src.val < 120)) ∧
    (∃ (s : State) (src : Fin 128) (_ _ : Nat) (_ : Access), srcPresent s.chip.grade src.val = true ∧ src.val ≠ 1 ∧
      srcCond src.val = false ∧ s.chip.srcDriven src.val = true ∧ (s.chip.src src.val).broken = false ∧ (s.chip.src
      src.val).pennant = false ∧ s.chip.rdb 0x9010 1 15 = false ∧ src.val < s.chip.faults.srcs.length ∧ ¬ (104 ≤
      src.val ∧ src.val < 120)) ∧
    (∃ (s : State) (src : Fin 128) (_ _ : Nat) (_ : Access), srcPresent s.chip.grade src.val = true ∧ src.val ≠ 1 ∧
      srcCond src.val = false ∧ s.chip.srcDriven src.val = true ∧ (s.chip.src src.val).broken = false ∧ (s.chip.src
      src.val).pennant = false ∧ s.chip.rdb 0x9010 1 15 = false ∧ src.val < s.chip.faults.srcs.length ∧ ¬ (104 ≤
      src.val ∧ src.val < 120)) :=
  ⟨⟨st base, 22, 0, 0, ⟨16, 2, 0⟩, by decide +kernel⟩,
   ⟨st base, 100, 0, 0, ⟨16, 2, 0⟩, by decide +kernel⟩,
   ⟨st base, 8, 3, 4097, ⟨16, 2, 0⟩, by decide +kernel⟩,
   ⟨st base, 34, 257, 0, ⟨1, 2, 7⟩, by decide +kernel⟩,
   ⟨st base, 48, 15, 0, ⟨1, 2, 7⟩, by decide +kernel⟩,
   ⟨st base, 47, 0, 0, ⟨1, 2, 7⟩, by decide +kernel⟩,
   ⟨st base, 50, 255, 0, ⟨1, 2, 7⟩, by decide +kernel⟩,
   ⟨st base, 23, 3, 0, ⟨1, 2, 7⟩, by decide +kernel⟩,
   ⟨st base, 90, 3, 0, ⟨1, 2, 7⟩, by decide +kernel⟩⟩

theorem witness_RepeatedAndLaterErrors :
    (∃ (s : State) (src : Fin 128) (_ _ : Nat) (_ : Option Access), oRepeatedAndLaterErrors_event s.chip src.val ∧
      (s.chip.src src.val).pennant = true) ∧
    (∃ (s : State) (src : Fin 128) (_ _ : Nat) (_ : Option Access), oRepeatedAndLaterErrors_event s.chip src.val ∧
      (s.chip.src src.val).pennant = false ∧ s.chip.rdb 0x9010 1 15 = true ∧ src.val ≠ 1 ∧ s.chip.faults.capturedAt ≠
      some s.chip.time.mono) ∧
    (∃ (s : State) (src : Fin 128) (_ _ : Nat) (_ : Option Access), oRepeatedAndLaterErrors_event s.chip src.val ∧
      (s.chip.src src.val).pennant = false ∧ s.chip.rdb 0x9010 1 15 = true ∧ src.val ≠ 1 ∧ s.chip.faults.capturedAt =
      some s.chip.time.mono ∧ s.chip.rdf 0x9010 1 8 7 < srcClass src.val) :=
  ⟨⟨st (base.modSrc 100 fun r => { r with pennant := true }), 100, 0, 0, none, by decide +kernel⟩,
   ⟨on [(0x9010, 1, 32768)], 100, 0, 0, none, by decide +kernel⟩,
   ⟨st ((puts base [(0x9010, 1, 32768 + 127)]).modFaults fun f => { f with capturedAt := some 0 }), 8, 0, 0, none,
     by decide +kernel⟩⟩

theorem witness_CollectorFollowsItsInputs :
    (∃ (s : State) (src : Fin 128), src.val < s.chip.faults.srcs.length ∧ (s.chip.src src.val).broken = false ∧
      s.chip.rd (0x9100 + src.val) 4 ≠ 1) ∧
    (∃ (s : State) (src : Fin 128) (_ : Bool), src.val ≠ 0 ∧ s.chip.faults.srcs.length = 128 ∧ srcPresent s.chip.grade
      src.val = true ∧ s.chip.srcDriven src.val = true ∧ (s.chip.src src.val).broken = false) ∧
    (∃ (s : State) (src : Fin 128), s.chip.faults.srcs.length = 128 ∧ (s.chip.src src.val).broken = true ∧ (s.chip.src
      src.val).rail = false) ∧
    (∃ (s : State) (k : Fin 128), (s.chip.src k.val).trapWaits = true ∧ (∀ j : Fin 128, (s.chip.src j.val).trapWaits =
      true → 1 ≤ srcClass j.val ∧ (srcClass j.val < srcClass k.val ∨ srcClass j.val = srcClass k.val ∧ k.val ≤ j.val))
      ∧ s.chip.faults.srcs.length = 128) ∧
    (∃ (s : State), s.chip.faults.errWidth = true) ∧
    (∃ (s : State), s.chip.faults.errWidth = true) :=
  ⟨⟨st base, 127, by decide +kernel⟩,
   ⟨st base, 119, true, by decide +kernel⟩,
   ⟨st (base.modSrc 119 fun r => { r with broken := true, live := true }), 119, by decide +kernel⟩,
   ⟨st ((base.modSrc 61 fun r => { r with trapWaits := true }).modSrc 47 fun r => { r with trapWaits := true }), 47,
     by decide +kernel⟩,
   ⟨st (base.modFaults fun f => { f with errWidth := true, errLow := true }), by decide +kernel⟩,
   ⟨st ((puts base [(0x9000, 2, 1)]).modFaults fun f =>
     { f with errWidth := true, errLow := true, errRelease := true }), by decide +kernel⟩⟩

theorem witness_CollectorWritesAct :
    (∃ (s : State) (q : Envelope) (n : Option Nat) (r : Row) (e : Chip), s.chip.WriteTaken q 0x9000 3 1 n r e) ∧
    (∃ (s : State) (q : Envelope) (n : Option Nat) (r : Row) (e : Chip), s.chip.WriteTaken q 0x9000 3 1 n r e ∧
      e.faults.errWidth = true) ∧
    (∃ (s : State) (q : Envelope) (n : Option Nat) (r : Row) (e : Chip), s.chip.WriteTaken q 0x9010 9 1 n r e) ∧
    (∃ (s : State) (q : Envelope) (src : Fin 128) (n : Option Nat) (r : Row) (e : Chip), s.chip.WriteTaken q (0x9100 +
      src.val) 2 1 n r e ∧ e.faults.srcs.length = 128) ∧
    (∃ (s : State) (q : Envelope) (n : Option Nat) (r : Row) (e : Chip), s.chip.WriteTaken q 0x9000 7 1 n r e ∧
      e.faults.srcs.length = 128) ∧
    (∃ (s : State) (q : Envelope) (src : Fin 128) (n : Option Nat) (r : Row) (e : Chip), e.faults.srcs.length = 128 ∧
      srcPresent e.grade src.val = true ∧ e.srcDriven src.val = true ∧ (e.src src.val).broken = false ∧ e.rd (0x9100 +
      src.val) 4 = 0 ∧ s.chip.WriteTaken q (0x9100 + src.val) 4 0 n r e) ∧
    (∃ (s : State) (q : Envelope) (src : Fin 128) (n : Option Nat) (r : Row) (e : Chip), e.faults.srcs.length = 128 ∧
      srcPresent e.grade src.val = true ∧ e.srcDriven src.val = true ∧ (e.src src.val).broken = false ∧ e.rd (0x9100 +
      src.val) 4 = 0 ∧ s.chip.WriteTaken q (0x9100 + src.val) 4 1 n r e) ∧
    (∃ (s : State) (q : Envelope) (src : Fin 128) (n : Option Nat) (r : Row) (e : Chip), e.faults.srcs.length = 128 ∧
      srcPresent e.grade src.val = true ∧ e.srcDriven src.val = true ∧ (e.src src.val).broken = false ∧ e.rd (0x9100 +
      src.val) 4 = 0 ∧ s.chip.WriteTaken q (0x9100 + src.val) 4 1 n r e) ∧
    (∃ (s : State) (q : Envelope) (src : Fin 128) (n : Option Nat) (r : Row) (e : Chip), e.faults.srcs.length = 128 ∧
      srcPresent e.grade src.val = true ∧ e.srcDriven src.val = true ∧ (e.src src.val).broken = false ∧ e.rd (0x9100 +
      src.val) 4 = 0 ∧ s.chip.WriteTaken q (0x9100 + src.val) 4 2 n r e) ∧
    (∃ (s : State) (q : Envelope) (mask : Nat) (n : Option Nat) (r : Row) (e : Chip), s.chip.WriteTaken q 0xE000 0x14
      mask n r e ∧ e.start.fails.length = 16) :=
  ⟨⟨st base, qs, _, _, _, taken (by decide +kernel)⟩,
   ⟨st (base.modFaults fun f => { f with errWidth := true, errLow := true }), qs, _, _, _, taken (by decide +kernel),
     by decide +kernel⟩,
   ⟨on [(0x9010, 1, 32768), (0x9010, 7, 5), (0x9010, 8, 3)], qs, _, _, _, taken (by decide +kernel)⟩,
   ⟨st (base.modSrc 119 fun r => { r with pennant := true }), qs, 119, _, _, _, taken (by decide +kernel),
     by decide +kernel⟩,
   ⟨st (base.modSrc 119 fun r => { r with pennant := true }), qs, _, _, _, taken (by decide +kernel),
     by decide +kernel⟩,
   ⟨st base, qs, 119, _, _, _, by decide +kernel, by decide +kernel, by decide +kernel, by decide +kernel,
     by decide +kernel, taken (by decide +kernel)⟩,
   ⟨st base, qs, 119, _, _, _, by decide +kernel, by decide +kernel, by decide +kernel, by decide +kernel,
     by decide +kernel, taken (by decide +kernel)⟩,
   ⟨st base, qs, 2, _, _, _, by decide +kernel, by decide +kernel, by decide +kernel, by decide +kernel,
     by decide +kernel, taken (by decide +kernel)⟩,
   ⟨st base, qs, 119, _, _, _, by decide +kernel, by decide +kernel, by decide +kernel, by decide +kernel,
     by decide +kernel, taken (by decide +kernel)⟩,
   ⟨st ((puts base [(0xE000, 18, 3)]).modStart fun u => { u with retryWait := [15], fails := List.replicate 16 [5] }),
     qs, 0xFFFF, _, _, _, taken (by decide +kernel), by decide +kernel⟩⟩

theorem witness_SuppliesAndPowerFailure :
    (∃ (s : State) (rail : Fin 5), s.chip.rdb 0xA001 2 rail.val = false) ∧
    (∃ (s : State) (rail : Fin 5), s.chip.rdb 0xA001 2 rail.val = false) ∧
    (∃ (s : State), s.chip.power.doms.length = 9 ∧ s.chip.rdb 0xA001 2 0 = true ∧ (∃ x ∈ switched, s.chip.dom x ≠
      .asleep)) ∧
    (∃ (s : State), s.chip.power.doms.length = 9 ∧ s.chip.rdb 0xA001 2 1 = true ∧ (s.chip.dom .sense ≠ .asleep ∨
      s.chip.dom .synth ≠ .asleep)) ∧
    (∃ (s : State), s.chip.power.doms.length = 9 ∧ s.chip.rdb 0xA001 2 3 = true ∧ s.chip.dom .port ≠ .asleep) ∧
    (∃ (s : State), s.chip.rdb 0xA001 2 4 = true) ∧
    (∃ (s : State), (∃ x ∈ switched, s.chip.dom x ≠ .asleep) ∧ s.chip.power.doms.length = 9) ∧
    (∃ (s : State) (_ : Bool), s.chip.rd 0xA000 2 < 4) ∧
    (∃ (s : State) (_ : Bool), s.chip.rd 0xA000 2 < 4) ∧
    (∃ (s : State), s.chip.rdb 0xA001 2 4 = true) ∧
    (∃ (s : State), s.chip.rdb 0xA001 1 6 = true ∧ s.chip.failing = false ∧ s.chip.suppliesFor (s.chip.rd 0xA000 1) =
      true) ∧
    (∃ (s : State), s.chip.rdb 0xA001 1 6 = true ∧ s.chip.failing = false ∧ s.chip.suppliesFor (s.chip.rd 0xA000 1) =
      true ∧ s.chip.rd 0xA000 3 = 1 ∧ s.chip.rdb 0xA000 7 0 = true ∧ s.chip.rd 0xA000 1 < s.chip.powerState) :=
  ⟨⟨on [(0xA001, 2, 15)], 4, by decide +kernel⟩,
   ⟨on [(0xA001, 2, 23)], 3, by decide +kernel⟩,
   ⟨st base, by decide +kernel⟩,
   ⟨st (base.setDom .sense .asleep), by decide +kernel⟩,
   ⟨st base, by decide +kernel⟩,
   ⟨st base, by decide +kernel⟩,
   ⟨st base, by decide +kernel⟩,
   ⟨st base, true, by decide +kernel⟩,
   ⟨on [(0xA000, 2, 3)], false, by decide +kernel⟩,
   ⟨st (base.modPower fun w => { w with pfPin := true, pfMonitor := true }), by decide +kernel⟩,
   ⟨on [(0xA001, 1, 64)], by decide +kernel⟩,
   ⟨on [(0xA001, 1, 66), (0xA000, 3, 1), (0xA000, 7, 1)], by decide +kernel⟩⟩

theorem witness_PowerStateChanges :
    (∃ (s : State) (t : Nat), s.chip.power.downTo = some t ∧ s.chip.power.downReady = true ∧ s.chip.rdb 0xA001 1 6 =
      false ∧ t < 4 ∧ s.chip.powerState ≠ t) ∧
    (∃ (s : State) (q : Envelope) (t : Nat) (n : Option Nat) (r : Row) (e : Chip), t < 3 ∧ s.chip.WriteTaken q 0xA000
      1 t n r e) ∧
    (∃ (s : State) (q : Envelope) (t : Nat) (n : Option Nat) (r : Row) (e : Chip), t < 3 ∧ s.chip.WriteTaken q 0xA000
      1 t n r e) ∧
    (∃ (s : State) (q : Envelope) (t : Nat) (n : Option Nat) (r : Row) (e : Chip), t < 3 ∧ s.chip.WriteTaken q 0xA000
      1 t n r e) ∧
    (∃ (s : State) (q : Envelope) (t : Nat) (n : Option Nat) (r : Row) (e : Chip), t < 3 ∧ s.chip.WriteTaken q 0xA000
      1 t n r e) :=
  ⟨⟨st (base.modPower fun w => { w with downTo := some 3, downReady := true }), 3, by decide +kernel⟩,
   ⟨st base, qs, 2, _, _, _, by decide +kernel, taken (by decide +kernel)⟩,
   ⟨st (puts base [(0xA001, 1, 2)]), qs, 0, _, _, _, by decide +kernel, taken (by decide +kernel)⟩,
   ⟨st (base.modPower fun w => { w with moving := some 0 }), qs, 2, _, _, _, by decide +kernel, taken
     (by decide +kernel)⟩,
   ⟨st base, qs, 0, _, _, _, by decide +kernel, taken (by decide +kernel)⟩⟩

theorem witness_WakesAreSequenced :
    (∃ (s : State) (r : WakeReq), firstWake (s.chip.power.wakes.filter (fun r => !s.chip.waking r.dom &&
      s.chip.wakeReady r.dom (s.chip.monoPs + s.chip.wakeTime r.dom))) = some r ∧ s.chip.power.doms.length = 9) ∧
    (∃ (s : State) (r : WakeReq), firstWake (s.chip.power.wakes.filter (fun r => !s.chip.waking r.dom &&
      s.chip.wakeReady r.dom (s.chip.monoPs + s.chip.wakeTime r.dom))) = some r ∧ s.chip.power.doms.length = 9 ∧
      s.chip.budgetOk (s.chip.monoPs + s.chip.wakeTime r.dom) (wakeUnits r.dom) = false) ∧
    (∃ (s : State) (x : Dom) (lost : Bool), s.chip.dom x = .waking lost ∧ s.chip.supplied x = true ∧ (s.chip.requires
      x).all s.chip.awake = true ∧ s.chip.power.doms.length = 9 ∧ (clockUser x = true → s.chip.clockReady = true) ∧
      (lost = true → (x = .sense → s.chip.mclk = true) ∧ (x = .synth → s.chip.apllLocked = true) ∧ (x = .enga ∨ x =
      .engb → s.chip.start.loading = false ∧ s.chip.start.enginesUp = true))) ∧
    (∃ (s : State) (x : Dom) (lost : Bool), s.chip.dom x = .waking lost ∧ s.chip.supplied x = true ∧ (s.chip.requires
      x).all s.chip.awake = true ∧ s.chip.power.doms.length = 9 ∧ (clockUser x = true → s.chip.clockReady = true) ∧
      (lost = true → (x = .sense → s.chip.mclk = true) ∧ (x = .synth → s.chip.apllLocked = true) ∧ (x = .enga ∨ x =
      .engb → s.chip.start.loading = false ∧ s.chip.start.enginesUp = true))) ∧
    (∃ (s : State) (x : Dom), (s.chip.waking x = true ∨ (∃ w ∈ s.chip.power.wakes, w.dom = x))) ∧
    (∃ (s : State) (x : Dom), (s.chip.waking x = true ∨ (∃ w ∈ s.chip.power.wakes, w.dom = x))) :=
  ⟨⟨st ((base.setDom .sense .asleep).modPower fun w => { w with wakes := [⟨.sense, 3, 0, none, false⟩] }), ⟨.sense, 3,
     0, none, false⟩, by decide +kernel⟩,
   ⟨st ((base.setDom .sense .asleep).modPower fun w =>
     { w with wakes := [⟨.sense, 3, 0, none, false⟩], charges := [(base.monoPs + base.wakeTime .sense, 1000)] }),
     ⟨.sense, 3, 0, none, false⟩, by decide +kernel⟩,
   ⟨st (base.setDom .port (.waking false)), .port, false, by decide +kernel⟩,
   ⟨st (base.setDom .enga (.waking true)), .enga, true, by decide +kernel⟩,
   ⟨st (base.setDom .port (.waking true)), .port, by decide +kernel⟩,
   ⟨st ((base.setDom .port .asleep).modPower fun w => { w with wakes := [⟨.port, 4, 0, none, false⟩] }), .port,
     by decide +kernel⟩⟩

theorem witness_PlugEventsAreTaken :
    (∃ (s : State) (n : Fin 16), s.chip.grade.hasCand n.val = true ∧ s.chip.panelInputs = true ∧ (s.chip.cand
      n.val).plugged = true ∧ s.chip.cands.length = 28) ∧
    (∃ (s : State) (n : Fin 16), s.chip.grade.hasCand n.val = true ∧ s.chip.panelInputs = true ∧ (s.chip.cand
      n.val).plugged = false ∧ s.chip.cands.length = 28) :=
  ⟨⟨st (base.modCand 15 fun x => { x with plugged := true }), 15, by decide +kernel⟩,
   ⟨st base, 15, by decide +kernel⟩⟩

theorem witness_EdgesStartConversions :
    (∃ (s : State) (l : Fin 24) (at_ : Nat) (_ : Bool), s.chip.laneRuns l.val = true ∧ oEdgesStartConversions_held
      s.chip l.val at_) ∧
    (∃ (s : State) (l : Fin 24) (at_ : Nat) (falling : Bool), s.chip.laneRuns l.val = true ∧ ¬
      oEdgesStartConversions_held s.chip l.val at_ ∧ falling ≠ oEdgesStartConversions_wanted s.chip l.val) ∧
    (∃ (s : State) (l : Fin 24) (at_ : Nat) (falling : Bool), s.chip.laneRuns l.val = true ∧ ¬
      oEdgesStartConversions_held s.chip l.val at_ ∧ falling ≠ oEdgesStartConversions_wanted s.chip l.val) ∧
    (∃ (s : State) (l : Fin 24) (at_ : Nat), s.chip.laneRuns l.val = true ∧ ¬ oEdgesStartConversions_held s.chip l.val
      at_ ∧ 0 < (s.chip.cand l.val).skip ∧ s.chip.cands.length = 28) ∧
    (∃ (s : State) (l : Fin 24) (at_ : Nat), s.chip.laneRuns l.val = true ∧ ¬ oEdgesStartConversions_held s.chip l.val
      at_ ∧ (s.chip.cand l.val).skip = 0 ∧ s.chip.calFailed l.val = false ∧ s.chip.tdc.lanes.length = 24 ∧
      s.chip.cands.length = 28 ∧ (s.chip.lane l.val).lastEdge ≠ some (at_ / 1024)) ∧
    (∃ (s : State) (l : Fin 24) (at_ : Nat), s.chip.laneRuns l.val = true ∧ ¬ oEdgesStartConversions_held s.chip l.val
      at_ ∧ (s.chip.cand l.val).skip = 0 ∧ s.chip.calFailed l.val = false ∧ s.chip.tdc.lanes.length = 24 ∧
      s.chip.cands.length = 28 ∧ (s.chip.lane l.val).lastEdge ≠ some (at_ / 1024)) ∧
    (∃ (s : State) (l : Fin 24) (at_ : Nat), s.chip.laneRuns l.val = true ∧ ¬ oEdgesStartConversions_held s.chip l.val
      at_ ∧ (s.chip.cand l.val).skip = 0 ∧ s.chip.calFailed l.val = false ∧ s.chip.tdc.lanes.length = 24 ∧
      s.chip.cands.length = 28 ∧ (s.chip.lane l.val).lastEdge ≠ some (at_ / 1024)) ∧
    (∃ (s : State) (l : Fin 24) (at_ : Nat), s.chip.laneRuns l.val = true ∧ ¬ oEdgesStartConversions_held s.chip l.val
      at_ ∧ (s.chip.cand l.val).skip = 0 ∧ s.chip.calFailed l.val = false ∧ s.chip.tdc.lanes.length = 24 ∧
      s.chip.cands.length = 28 ∧ (s.chip.lane l.val).lastEdge ≠ some (at_ / 1024)) :=
  ⟨⟨st ((puts base [(0x200F, 1, 1), (0x200F, 3, 8), (0x200F, 4, 10)]).modCand 15 fun x => { x with held := some 5 }),
     15, 10244, true, by decide +kernel, ⟨by decide, 5, by decide +kernel, by decide +kernel⟩⟩,
   ⟨on [(0x2017, 1, 1), (0x5017, 1, 1)], 23, 5, true, by decide +kernel, noHold (by decide +kernel),
     by decide +kernel⟩,
   ⟨st ((puts base [(0x200F, 1, 1), (0x200F, 3, 72), (0x200F, 4, 10)]).modCand 15 fun x => { x with held := some 5 }),
     15, 10245, false, by decide +kernel, noHold (by decide +kernel), by decide +kernel⟩,
   ⟨st ((puts base [(0x200F, 1, 1), (0x200F, 3, 8), (0x200F, 4, 10)]).modCand 15 fun x =>
     { x with held := some 5, skip := 1 }), 15, 10245, by decide +kernel, noHold (by decide +kernel),
     by decide +kernel⟩,
   ⟨on [(0x2000, 1, 1), (0x2000, 3, 8), (0x2000, 5, 7)], 0, 2 ^ 32 + 5, by decide +kernel, noHold (by decide +kernel),
     by decide +kernel⟩,
   ⟨st ((puts base [(0x2017, 1, 1), (0x5017, 1, 1)]).modLane 23 fun n =>
     { n with pair := some ⟨768, 1664, 0, false⟩ }), 23, 1023, by decide +kernel, noHold (by decide +kernel),
     by decide +kernel⟩,
   ⟨st ((puts base [(0x2017, 1, 1), (0x5017, 1, 1)]).modLane 23 fun n =>
     { n with conv := .busy, stop := some 2, lastEdge := some 0 }), 23, 1024, by decide +kernel, noHold
     (by decide +kernel), by decide +kernel⟩,
   ⟨st ((puts base [(0x2017, 1, 1), (0x5017, 1, 1)]).modLane 23 fun n => { n with conv := .calibrating }), 23, 1024,
     by decide +kernel, noHold (by decide +kernel), by decide +kernel⟩⟩

theorem witness_ConversionFormsItsSample :
    (∃ (s : State) (l : Fin 24) (_ : RingCounts) (stop : Nat) (p : Pair), (s.chip.lane l.val).conv = .busy ∧
      (s.chip.lane l.val).stop = some stop ∧ (s.chip.lane l.val).pair = some p ∧ (s.chip.lane l.val).calDue = false ∧
      s.chip.tdc.lanes.length = 24) ∧
    (∃ (s : State) (l : Fin 24) (_ : RingCounts) (stop : Nat) (p : Pair), (s.chip.lane l.val).conv = .busy ∧
      (s.chip.lane l.val).stop = some stop ∧ (s.chip.lane l.val).pair = some p ∧ (s.chip.lane l.val).calDue = false ∧
      s.chip.tdc.lanes.length = 24) ∧
    (∃ (s : State) (l : Fin 24) (_ : RingCounts) (stop : Nat) (p : Pair), (s.chip.lane l.val).conv = .busy ∧
      (s.chip.lane l.val).stop = some stop ∧ (s.chip.lane l.val).pair = some p ∧ (s.chip.lane l.val).calDue = false ∧
      s.chip.tdc.lanes.length = 24) :=
  ⟨⟨st (base.modLane 23 fun n => { n with conv := .busy, stop := some 0, pair := some ⟨768, 1664, 0, false⟩ }), 23,
     ⟨0, 31⟩, 0, ⟨768, 1664, 0, false⟩, by decide +kernel⟩,
   ⟨st ((puts base [(0x210F, 1, 7), (0x211F, 1, 2 ^ 17)]).modLane 15 fun n =>
     { n with conv := .busy, stop := some 5000, pair := some ⟨1280, 2432, 0, false⟩ }), 15, ⟨60, 31⟩, 5000, ⟨1280,
     2432, 0, false⟩, by decide +kernel⟩,
   ⟨st ((puts base [(0x211F, 1, 3)]).modLane 15 fun n =>
     { n with conv := .busy, stop := some 2, pair := some ⟨1000, 2001, 0, true⟩ }), 15, ⟨32, 31⟩, 2, ⟨1000, 2001, 0,
     true⟩, by decide +kernel⟩⟩

theorem witness_CalibrationPairs :
    (∃ (s : State) (l : Fin 24) (cycle : Nat), s.chip.awake .sense = true ∧ s.chip.mclk = true ∧
      oCalibrationPairs_next s.chip l.val (cycle + 16) ∧ (s.chip.lane l.val).conv = .armed ∧ s.chip.tdc.lanes.length =
      24) ∧
    (∃ (s : State) (l : Fin 24) (cycle : Nat), s.chip.awake .sense = true ∧ s.chip.mclk = true ∧
      oCalibrationPairs_next s.chip l.val (cycle + 16) ∧ (s.chip.lane l.val).conv = .armed ∧ s.chip.tdc.lanes.length =
      24) ∧
    (∃ (s : State) (l : Fin 24) (cycle : Nat), s.chip.awake .sense = true ∧ s.chip.mclk = true ∧
      s.chip.tdc.lanes.length = 24 ∧ (∀ p, oCalibrationPairs_next s.chip l.val p → p - 16 + 8 ≤ cycle ∨ cycle + 8 ≤ p
      - 16)) ∧
    (∃ (s : State) (l : Fin 24) (cycle : Nat), s.chip.awake .sense = true ∧ s.chip.mclk = true ∧
      s.chip.tdc.lanes.length = 24 ∧ (∀ p, oCalibrationPairs_next s.chip l.val p → p - 16 + 8 ≤ cycle ∨ cycle + 8 ≤ p
      - 16)) ∧
    (∃ (s : State) (l : Fin 24) (cycle p : Nat), oCalibrationPairs_next s.chip l.val p ∧ cycle < p - 16 + 8 ∧ p - 16 <
      cycle + 8) ∧
    (∃ (s : State) (l : Fin 24) (cycle p : Nat), oCalibrationPairs_next s.chip l.val p ∧ cycle < p - 16 + 8 ∧ p - 16 <
      cycle + 8) ∧
    (∃ (s : State) (l : Fin 28) (_ _ : RingCounts) (_ : Nat), l.val < 24 ∧ (s.chip.lane l.val).conv = .calibrating ∧
      s.chip.tdc.lanes.length = 24) ∧
    (∃ (s : State) (l : Fin 28) (_ _ : RingCounts) (_ : Nat), l.val < 24 ∧ (s.chip.lane l.val).conv = .calibrating ∧
      s.chip.tdc.lanes.length = 24) ∧
    (∃ (s : State) (l : Fin 28) (_ _ : RingCounts) (_ : Nat), l.val < 24 ∧ (s.chip.lane l.val).conv = .calibrating ∧
      s.chip.tdc.lanes.length = 24) ∧
    (∃ (s : State) (l : Fin 28) (_ _ : RingCounts) (_ : Nat), 24 ≤ l.val ∧ s.chip.tdc.aux.length = 2 ∧ (if l.val % 2 =
      0 then (s.chip.aux ((l.val - 24) / 2)).x else (s.chip.aux ((l.val - 24) / 2)).y).calibrating = true) ∧
    (∃ (s : State) (l : Fin 28) (_ _ : RingCounts) (_ : Nat), 24 ≤ l.val ∧ s.chip.tdc.aux.length = 2 ∧ (if l.val % 2 =
      0 then (s.chip.aux ((l.val - 24) / 2)).x else (s.chip.aux ((l.val - 24) / 2)).y).calibrating = true) ∧
    (∃ (s : State) (l : Fin 28), l.val < 24 ∧ s.chip.awake .sense = true ∧ (s.chip.lane l.val).pair.isSome = true ∧
      s.chip.calFailed l.val = false ∧ s.chip.tdc.lanes.length = 24) ∧
    (∃ (s : State) (l : Fin 28), 24 ≤ l.val ∧ s.chip.awake .sense = true ∧ s.chip.tdc.aux.length = 2) ∧
    (∃ (s : State) (l : Fin 28), 24 ≤ l.val ∧ s.chip.awake .sense = true ∧ s.chip.tdc.aux.length = 2) :=
  ⟨⟨st (base.modLane 23 fun n => { n with lastEdge := some 0, interval := some 251 }), 23, 232, by decide +kernel,
     by decide +kernel, ⟨0, by decide +kernel, by decide +kernel, Or.inr ⟨fun i h => (by cases h; decide +kernel),
     by decide +kernel⟩⟩, by decide +kernel⟩,
   ⟨st (base.modLane 23 fun n => { n with lastEdge := some 5, interval := some 250 }), 23, 239, by decide +kernel,
     by decide +kernel, ⟨5, by decide +kernel, by decide +kernel, Or.inl (by decide +kernel)⟩, by decide +kernel⟩,
   ⟨st base, 23, 0, by decide +kernel, by decide +kernel, by decide +kernel, fun p h => absurd h (noEdge
     (by decide +kernel))⟩,
   ⟨st (base.modLane 23 fun n => { n with conv := .busy }), 23, 0, by decide +kernel, by decide +kernel,
     by decide +kernel, fun p h => absurd h (noEdge (by decide +kernel))⟩,
   ⟨st (base.modLane 23 fun n => { n with lastEdge := some 5, interval := some 250 }), 23, 246, 255, ⟨5,
     by decide +kernel, by decide +kernel, Or.inl (by decide +kernel)⟩, by decide +kernel⟩,
   ⟨st (base.modLane 23 fun n => { n with lastEdge := some 5, interval := some 250 }), 23, 232, 255, ⟨5,
     by decide +kernel, by decide +kernel, Or.inl (by decide +kernel)⟩, by decide +kernel⟩,
   ⟨st (base.modLane 23 fun n => { n with conv := .calibrating }), 23, ⟨24, 0⟩, ⟨52, 0⟩, 9, by decide +kernel⟩,
   ⟨st (base.modLane 23 fun n => { n with conv := .calibrating }), 23, ⟨24, 1⟩, ⟨52, 1⟩, 9, by decide +kernel⟩,
   ⟨st (base.modLane 23 fun n => { n with conv := .calibrating, pair := some ⟨768, 1664, 0, false⟩ }), 23, ⟨40, 0⟩,
     ⟨76, 0⟩, 9, by decide +kernel⟩,
   ⟨st (base.modAux 1 fun x => { x with y := { x.y with calibrating := true } }), 27, ⟨40, 0⟩, ⟨76, 0⟩, 9,
     by decide +kernel⟩,
   ⟨st (base.modAux 0 fun x => { x with x := { x.x with calibrating := true } }), 24, ⟨40, 0⟩, ⟨77, 0⟩, 9,
     by decide +kernel⟩,
   ⟨st (base.modLane 23 fun n => { n with pair := some ⟨768, 1664, 0, false⟩ }), 23, by decide +kernel⟩,
   ⟨st (base.modAux 1 fun x => { x with y := { x.y with pair := some ⟨768, 1664, 0, false⟩ } }), 27,
     by decide +kernel⟩,
   ⟨st (base.modAux 0 fun x => { x with x := { x.x with pair := some ⟨768, 1664, 0, false⟩ } }), 24,
     by decide +kernel⟩⟩

theorem witness_MeasurementClockLock :
    (∃ (s : State) (n : Nat), s.chip.awake .sense = true ∧ s.chip.loPresent = true ∧ s.chip.mclk = true ∧ 2 < ((n :
      Int) - oMeasurementClockLock_expected s.chip).natAbs) ∧
    (∃ (s : State) (n : Nat), s.chip.awake .sense = true ∧ s.chip.loPresent = true ∧ s.chip.mclk = false ∧
      s.chip.start.untrusted.contains .mclk = false ∧ ((n : Int) - oMeasurementClockLock_expected s.chip).natAbs ≤ 1 ∧
      7 ≤ s.chip.tdc.goodWindows ∧ s.chip.cands.length = 28) :=
  ⟨⟨st base, (312500000 * 1024 / base.nominal) + 3, by decide +kernel⟩,
   ⟨st { puts base [(0x2100, 1, 0), (0x2037, 1, 2)] with tdc := { base.tdc with goodWindows := 7 } }, (312500000 *
     1024 / base.nominal) + 1, by decide +kernel⟩⟩

theorem witness_CandidatesChangeState :
    (∃ (s : State) (l : Fin 24), s.chip.candOn l.val = true ∧ s.chip.failBit l.val 0 = false ∧ s.chip.cands.length =
      28) ∧
    (∃ (s : State) (l : Fin 24), s.chip.candOn l.val = true ∧ s.chip.failBit l.val 0 = false ∧ s.chip.cands.length =
      28) ∧
    (∃ (s : State) (k : Fin 4), s.chip.candOn (24 + k.val) = true ∧ s.chip.failBit (24 + k.val) 0 = false ∧
      s.chip.cands.length = 28) ∧
    (∃ (s : State) (k : Fin 4), s.chip.candOn (24 + k.val) = true ∧ s.chip.failBit (24 + k.val) 0 = false ∧
      s.chip.cands.length = 28) ∧
    (∃ (s : State) (n : Fin 28), s.chip.qState n.val = 1 ∧ s.chip.windowDone n.val = true ∧ s.chip.cands.length = 28) ∧
    (∃ (s : State) (n : Fin 28), s.chip.qState n.val = 3 ∧ s.chip.qReason n.val = 0x10) ∧
    (∃ (s : State), s.chip.cands.length = 28) ∧
    (∃ (s : State), s.chip.cands.length = 28) ∧
    (∃ (s : State), s.chip.cands.length = 28) :=
  ⟨⟨on [(0x2017, 1, 1)], 23, by decide +kernel⟩,
   ⟨on [(0x2017, 1, 1), (0x2037, 1, 1)], 23, by decide +kernel⟩,
   ⟨on [(0x201B, 1, 1)], 3, by decide +kernel⟩,
   ⟨on [(0x201B, 1, 1), (0x203B, 1, 2)], 3, by decide +kernel⟩,
   ⟨st ((puts { base with time := { base.time with mono := 2 ^ 80 } } [(0x203B, 1, 1)]).modCand 27 fun x =>
     { x with samples := 4 }), 27, by decide +kernel⟩,
   ⟨on [(0x203B, 1, 3), (0x203B, 2, 0x10)], 27, by decide +kernel⟩,
   ⟨st base, by decide +kernel⟩,
   ⟨st ((puts base [(0x200F, 1, 1), (0x200F, 3, 8), (0x200F, 2, 1000000), (0x202F, 1, 2)]).modCand 15 fun x =>
     { x with whole := true, edges := 989, actOk := true }), by decide +kernel⟩,
   ⟨st ((puts base [(0x200F, 1, 1), (0x200F, 3, 8), (0x200F, 2, 1000000), (0x202F, 1, 2)]).modCand 15 fun x =>
     { x with whole := true, edges := 990, actOk := true }), by decide +kernel⟩⟩

theorem witness_SamplesAreDelivered :
    (∃ (s : State) (l : Fin 24) (x : Sample), (s.chip.lane l.val).formed = some x ∧ s.chip.tdc.lanes.length = 24 ∧
      s.chip.absentCause l.val = none ∧ s.chip.calFailed l.val = false ∧ s.chip.qState l.val ≠ 0 ∧ (s.chip.cand
      l.val).fit.length < 2) ∧
    (∃ (s : State) (l : Fin 24) (x : Sample), (s.chip.lane l.val).formed = some x ∧ s.chip.tdc.lanes.length = 24 ∧
      s.chip.cands.length = 28 ∧ s.chip.absentCause l.val = none ∧ s.chip.calFailed l.val = false ∧ s.chip.qState
      l.val ≠ 0 ∧ s.chip.windowDone l.val = true ∧ 2 ≤ (s.chip.cand l.val).fit.length ∧ (s.chip.cand l.val).outlierRun
      + 1 < s.chip.profile l.val 7 ∧ (let t := ((s.chip.tdc.coarse : Int) + s.chip.coarseDist x.coarse) * 1024 +
      x.phase; (s.chip.profile l.val 6 : Rat) < residual (windowOf (s.chip.profile l.val 3) t (s.chip.cand l.val).fit)
      (s.chip.period l.val) t * 25 / 8)) ∧
    (∃ (s : State) (k : Fin 4) (x : Estimate), (s.chip.servo k.val).out = some x ∧ s.chip.sess.servos.length = 4 ∧
      x.onLo = true) ∧
    (∃ (s : State) (k : Fin 4) (x : Estimate), (s.chip.servo k.val).out = some x ∧ s.chip.sess.servos.length = 4 ∧
      s.chip.cands.length = 28 ∧ x.onLo = false ∧ s.chip.absentCause (24 + k.val) = none ∧ s.chip.rd (0x2000 + 24 +
      k.val) 0x0E < x.unc) ∧
    (∃ (s : State) (k : Fin 4) (x : Estimate), (s.chip.servo k.val).out = some x ∧ s.chip.sess.servos.length = 4 ∧
      s.chip.cands.length = 28 ∧ x.onLo = false ∧ s.chip.absentCause (24 + k.val) = none ∧ s.chip.rd (0x2000 + 24 +
      k.val) 0x0E < x.unc) ∧
    (∃ (s : State) (k : Fin 4) (x : Estimate), (s.chip.servo k.val).out = some x ∧ s.chip.sess.servos.length = 4 ∧
      s.chip.cands.length = 28 ∧ x.onLo = false ∧ s.chip.absentCause (24 + k.val) = none ∧ x.unc ≤ s.chip.rd (0x2000 +
      24 + k.val) 0x0E ∧ s.chip.qState (24 + k.val) ≠ 0 ∧ (s.chip.cand (24 + k.val)).fit.length < 2) ∧
    (∃ (s : State) (q : Envelope) (n : Fin 28) (idx sub v : Nat) (o : Option Nat) (r : Row) (e : Chip), (idx = 0x2000
      + n.val ∧ 2 ≤ sub ∧ sub ≤ 7 ∨ idx = 0x2110 + n.val ∧ sub = 1) ∧ s.chip.WriteTaken q idx sub v o r e) ∧
    (∃ (s : State) (q : Envelope) (n : Fin 28) (idx sub v : Nat) (o : Option Nat) (r : Row) (e : Chip), (idx = 0x2000
      + n.val ∧ 2 ≤ sub ∧ sub ≤ 7 ∨ idx = 0x2110 + n.val ∧ sub = 1) ∧ s.chip.WriteTaken q idx sub v o r e) ∧
    (∃ (s : State) (q : Envelope) (n : Fin 28) (idx sub v : Nat) (o : Option Nat) (r : Row) (e : Chip), (idx = 0x2000
      + n.val ∧ 2 ≤ sub ∧ sub ≤ 7 ∨ idx = 0x2110 + n.val ∧ sub = 1) ∧ s.chip.WriteTaken q idx sub v o r e) :=
  ⟨⟨st ((puts base [(0x2017, 1, 1), (0x5017, 1, 1), (0x2037, 1, 2)]).modLane 23 fun n =>
     { n with formed := some ⟨0, 0⟩ }), 23, ⟨0, 0⟩, by decide +kernel⟩,
   ⟨st (((puts base [(0x2017, 1, 1), (0x5017, 1, 1), (0x2037, 1, 2)]).modLane 23 fun n =>
     { n with formed := some ⟨0, 1023⟩ }).modCand 23 fun x =>
     { x with windowed := true, fit := [-40000000, -80000000] }), 23, ⟨0, 1023⟩, by decide +kernel⟩,
   ⟨st (base.modServo 3 fun x => { x with out := some ⟨0, 0, 0, 0, true⟩ }), 3, ⟨0, 0, 0, 0, true⟩, by decide +kernel⟩,
   ⟨st ((puts base [(0x201B, 1, 1), (0x622B, 1, 3), (0x201B, 0x0E, 5)]).modServo 3 fun x =>
     { x with out := some ⟨0, 0, 6, 0, false⟩ }), 3, ⟨0, 0, 6, 0, false⟩, by decide +kernel⟩,
   ⟨st (((puts base [(0x201B, 1, 1), (0x622B, 1, 3), (0x201B, 0x0E, 5)]).modServo 3 fun x =>
     { x with out := some ⟨0, 0, 6, 0, false⟩ }).modCand 27 fun x => { x with uncRun := 300 }), 3, ⟨0, 0, 6, 0,
     false⟩, by decide +kernel⟩,
   ⟨st ((puts base [(0x201B, 1, 1), (0x622B, 1, 3), (0x201B, 0x0E, 5), (0x203B, 1, 1)]).modServo 3 fun x =>
     { x with out := some ⟨-1, 7, 5, 0, false⟩ }), 3, ⟨-1, 7, 5, 0, false⟩, by decide +kernel⟩,
   ⟨st base, qs, 15, 0x200F, 6, 1, _, _, _, Or.inl (by decide), taken (by decide +kernel)⟩,
   ⟨on [(0x200F, 1, 1), (0x202F, 1, 2)], qs, 15, 0x200F, 2, 2000, _, _, _, Or.inl (by decide), taken
     (by decide +kernel)⟩,
   ⟨on [(0x2017, 1, 1), (0x2037, 1, 2)], qs, 23, 0x2127, 1, 1, _, _, _, Or.inr (by decide), taken (by decide +kernel)⟩⟩

theorem witness_TimeOfDayMessages :
    (∃ (s : State) (secs flags _ st ql _ e : Nat), oTimeOfDayMessages_on s.chip ∧ s.chip.rd 0x1240 3 ≠ 1 ∧ s.chip.rd
      0x1240 5 = 0 ∧ secs < 2 ^ 48 ∧ flags < 256 ∧ st < 256 ∧ ql < 256 ∧ s.chip.tod.edge = some e ∧ e + 100000000 *
      nsUnit ≤ s.chip.time.mono - s.chip.uartTime 24 ∧ s.chip.time.mono ≤ e + 900000000 * nsUnit ∧ s.chip.tod.waiting
      = [] ∧ s.chip.tod.judged = none) ∧
    (∃ (s : State) (secs flags _ st ql _ e : Nat), oTimeOfDayMessages_on s.chip ∧ s.chip.rd 0x1240 3 ≠ 1 ∧ s.chip.rd
      0x1240 5 = 0 ∧ secs < 2 ^ 48 ∧ flags < 256 ∧ st < 256 ∧ ql < 256 ∧ s.chip.tod.edge = some e ∧ ¬ s.chip.time.mono
      ≤ e + 900000000 * nsUnit) ∧
    (∃ (s : State) (secs flags _ st ql _ e : Nat), oTimeOfDayMessages_on s.chip ∧ s.chip.rd 0x1240 3 ≠ 1 ∧ s.chip.rd
      0x1240 5 = 0 ∧ secs < 2 ^ 48 ∧ flags < 256 ∧ st < 256 ∧ ql < 256 ∧ s.chip.tod.edge = some e ∧ e + 100000000 *
      nsUnit ≤ s.chip.time.mono - s.chip.uartTime 24 ∧ s.chip.time.mono ≤ e + 900000000 * nsUnit) ∧
    (∃ (s : State) (secs flags _ st ql _ e : Nat), oTimeOfDayMessages_on s.chip ∧ s.chip.rd 0x1240 3 ≠ 1 ∧ s.chip.rd
      0x1240 5 = 0 ∧ secs < 2 ^ 48 ∧ flags < 256 ∧ st < 256 ∧ ql < 256 ∧ s.chip.tod.edge = some e ∧ e ≤
      s.chip.time.mono - s.chip.uartTime 24 ∧ ¬ e + 100000000 * nsUnit ≤ s.chip.time.mono - s.chip.uartTime 24) ∧
    (∃ (s : State) (ver secs flags utc st ql teb x : Nat), oTimeOfDayMessages_on s.chip ∧ s.chip.rd 0x1240 3 ≠ 1 ∧ ver
      < 256 ∧ flags < 256 ∧ st < 256 ∧ ql < 256 ∧ x < 2 ^ 16 ∧ x ≠ crc16 ([ver, 18] ++ toBytes 6 secs ++ [0, flags] ++
      toBytes 2 utc ++ [st, ql] ++ toBytes 4 teb ++ [0, 0])) ∧
    (∃ (s : State) (ver _ flags _ st ql _ _ : Nat), oTimeOfDayMessages_on s.chip ∧ s.chip.rd 0x1240 3 ≠ 1 ∧ ver < 256
      ∧ flags < 256 ∧ st < 256 ∧ ql < 256) ∧
    (∃ (s : State) (chars : List Nat) (rmc : Bool) (u e : Nat), oTimeOfDayMessages_on s.chip ∧ s.chip.rd 0x1240 3 ≠ 0
      ∧ s.chip.rd 0x1240 5 = 0 ∧ nmeaKind chars = some rmc ∧ s.chip.tod.edge = some e ∧ e ≤ s.chip.time.mono -
      s.chip.uartTime chars.length ∧ nmeaSumOk chars = true ∧ nmeaUtc rmc (splitComma [] ((chars.drop 1).takeWhile (·
      != 42))) = some u) ∧
    (∃ (s : State) (chars : List Nat) (rmc : Bool) (_ e : Nat), oTimeOfDayMessages_on s.chip ∧ s.chip.rd 0x1240 3 ≠ 0
      ∧ s.chip.rd 0x1240 5 = 0 ∧ nmeaKind chars = some rmc ∧ s.chip.tod.edge = some e ∧ e ≤ s.chip.time.mono -
      s.chip.uartTime chars.length) ∧
    (∃ (s : State) (chars : List Nat) (rmc : Bool) (_ e : Nat), oTimeOfDayMessages_on s.chip ∧ s.chip.rd 0x1240 3 ≠ 0
      ∧ s.chip.rd 0x1240 5 = 0 ∧ nmeaKind chars = some rmc ∧ s.chip.tod.edge = some e ∧ e ≤ s.chip.time.mono -
      s.chip.uartTime chars.length) ∧
    (∃ (s : State) (chars : List Nat) (rmc : Bool) (_ e : Nat), oTimeOfDayMessages_on s.chip ∧ s.chip.rd 0x1240 3 ≠ 0
      ∧ s.chip.rd 0x1240 5 = 0 ∧ nmeaKind chars = some rmc ∧ s.chip.tod.edge = some e ∧ e ≤ s.chip.time.mono -
      s.chip.uartTime chars.length ∧ nmeaSumOk chars = false) ∧
    (∃ (s : State), s.chip.tod.edge.isSome = true ∧ s.chip.tod.judged = none ∧ s.chip.tod.waiting = []) ∧
    (∃ (s : State), s.chip.tod.edge.isSome = true ∧ s.chip.tod.judged = none ∧ s.chip.tod.waiting = [tm 8]) ∧
    (∃ (s : State), s.chip.tod.edge.isSome = true ∧ s.chip.tod.judged = none ∧ s.chip.tod.waiting = [tm 9]) ∧
    (∃ (s : State), s.chip.tod.edge.isSome = true ∧ s.chip.tod.judged = none ∧ s.chip.tod.waiting = [tm 9, tm 8]) ∧
    (∃ (s : State), s.chip.tod.judged.isSome = true) ∧
    (∃ (s : State), s.chip.tod.valid = false ∧ s.chip.rdb 0x1240 6 0 = true) ∧
    (∃ (s : State) (t : Nat), (s.chip.ttu (s.chip.rd 0x1240 9)).last = some t ∧ s.chip.rdb 0x1240 8 0 = true) :=
  ⟨⟨todAt (900000000 * nsUnit) [(0x1240, 1, 1)], 2 ^ 48 - 1, 255, 37, 1, 2, 0, 0, by decide +kernel⟩,
   ⟨todAt (900000000 * nsUnit + 1) [(0x1240, 1, 1)], 5, 128, 37, 1, 2, 0, 0, by decide +kernel⟩,
   ⟨todAt (100000000 * nsUnit + base.uartTime 24) [(0x1240, 1, 1), (0x1240, 3, 2)], 5, 128, 37, 2, 2, 0, 0,
     by decide +kernel⟩,
   ⟨todAt (100000000 * nsUnit + base.uartTime 24 - 1) [(0x1240, 1, 1), (0x1240, 3, 2)], 5, 128, 37, 2, 2, 0, 0,
     by decide +kernel⟩,
   ⟨on [(0x1240, 1, 1)], 1, 5, 0, 37, 0, 0, 0, 0, by decide +kernel⟩,
   ⟨on [(0x1240, 1, 1)], 2, 5, 0, 37, 0, 0, 0, 0, by decide +kernel⟩,
   ⟨todAt (900000000 * nsUnit) [(0x1240, 1, 1), (0x1240, 3, 1)], zda, false, 1893499200, 0, by decide +kernel⟩,
   ⟨todAt (900000000 * nsUnit) [(0x1240, 1, 1), (0x1240, 3, 2), (0x1210, 2, 1), (0x1210, 1, 37)], zda, false,
     1893499200, 0, by decide +kernel⟩,
   ⟨todAt (900000000 * nsUnit + 1) [(0x1240, 1, 1), (0x1240, 3, 1)], zda, false, 1893499200, 0, by decide +kernel⟩,
   ⟨todAt (900000000 * nsUnit) [(0x1240, 1, 1), (0x1240, 3, 1)], zda.dropLast ++ [66], false, 0, 0, by decide +kernel⟩,
   ⟨todAt 5 [(0x1240, 1, 1)], by decide +kernel⟩,
   ⟨todAt 5 [(0x1240, 1, 1)] (fun t => { t with waiting := [tm 8], last := some 7 }), by decide +kernel⟩,
   ⟨todAt 5 [(0x1240, 1, 1)] (fun t => { t with waiting := [tm 9], last := some 7, valid := true }),
     by decide +kernel⟩,
   ⟨todAt 5 [(0x1240, 1, 1)] (fun t => { t with waiting := [tm 9, tm 8], last := some 7 }), by decide +kernel⟩,
   ⟨todAt 5 [(0x1240, 1, 1)] (fun t => { t with judged := some (some 7) }), by decide +kernel⟩,
   ⟨on [(0x1240, 6, 1)], by decide +kernel⟩,
   ⟨st
     { puts base [(0x1240, 8, 1), (0x1240, 9, 7)] with ttus := modNth base.ttus 7 (fun u => { u with last := some 1999999999999 }) },
     1999999999999, by decide +kernel⟩⟩

theorem witness_TimeIntervalUnits :
    (∃ (s : State) (q : Envelope) (a : Fin 2) (n : Option Nat) (r : Row) (e : Chip), s.chip.WriteTaken q (0x2160 +
      a.val) 1 1 n r e) ∧
    (∃ (s : State) (q : Envelope) (a : Fin 2) (n : Option Nat) (r : Row) (e : Chip), s.chip.WriteTaken q (0x2160 +
      a.val) 1 1 n r e) ∧
    (∃ (s : State) (q : Envelope) (a : Fin 2) (n : Option Nat) (r : Row) (e : Chip), s.chip.WriteTaken q (0x2160 +
      a.val) 1 2 n r e) ∧
    (∃ (s : State) (q : Envelope) (a : Fin 2) (n : Option Nat) (r : Row) (e : Chip), s.chip.WriteTaken q (0x2160 +
      a.val) 1 0 n r e) ∧
    (∃ (s : State) (a : Fin 2) (src _ : Nat) (_ : RingCounts) (f : Bool), oTimeIntervalUnits_used s.chip a.val src ∧
      src = s.chip.rd (0x2160 + a.val) 2 ∧ f = s.chip.rdb (0x2160 + a.val) 4 1 ∧ (src ≠ s.chip.rd (0x2160 + a.val) 3 ∨
      f ≠ s.chip.rdb (0x2160 + a.val) 4 0) ∧ (s.chip.rdb (0x2160 + a.val) 5 0 = true → (s.chip.aux a.val).stop = none)
      ∧ (s.chip.aux a.val).start = none ∧ (s.chip.aux a.val).held = []) ∧
    (∃ (s : State) (a : Fin 2) (src _ : Nat) (_ : RingCounts) (f : Bool), oTimeIntervalUnits_used s.chip a.val src ∧
      src = s.chip.rd (0x2160 + a.val) 2 ∧ f = s.chip.rdb (0x2160 + a.val) 4 1 ∧ (src ≠ s.chip.rd (0x2160 + a.val) 3 ∨
      f ≠ s.chip.rdb (0x2160 + a.val) 4 0) ∧ (s.chip.rdb (0x2160 + a.val) 5 0 = true → (s.chip.aux a.val).stop = none)
      ∧ (s.chip.aux a.val).start = none ∧ (s.chip.aux a.val).held = []) ∧
    (∃ (s : State) (a : Fin 2) (src _ : Nat) (_ : RingCounts) (f : Bool) (st : AuxEv), oTimeIntervalUnits_used s.chip
      a.val src ∧ src = s.chip.rd (0x2160 + a.val) 3 ∧ f = s.chip.rdb (0x2160 + a.val) 4 0 ∧ (src ≠ s.chip.rd (0x2160
      + a.val) 2 ∨ f ≠ s.chip.rdb (0x2160 + a.val) 4 1) ∧ s.chip.rdb (0x2160 + a.val) 5 0 = true ∧ (s.chip.aux
      a.val).start = some st ∧ (s.chip.aux a.val).x.pair = none ∧ (s.chip.aux a.val).y.pair = none) ∧
    (∃ (s : State) (a : Fin 2) (src _ : Nat) (_ : RingCounts) (f : Bool) (st : AuxEv), oTimeIntervalUnits_used s.chip
      a.val src ∧ src = s.chip.rd (0x2160 + a.val) 3 ∧ f = s.chip.rdb (0x2160 + a.val) 4 0 ∧ (src ≠ s.chip.rd (0x2160
      + a.val) 2 ∨ f ≠ s.chip.rdb (0x2160 + a.val) 4 1) ∧ s.chip.rdb (0x2160 + a.val) 5 0 = true ∧ (s.chip.aux
      a.val).start = some st ∧ (s.chip.aux a.val).x.pair = none ∧ (s.chip.aux a.val).y.pair = none) ∧
    (∃ (s : State) (a : Fin 2) (h : AuxEv) (t : List AuxEv), (s.chip.aux a.val).held = h :: t ∧ s.chip.tdc.aux.length
      = 2) ∧
    (∃ (s : State) (a : Fin 2), s.chip.armed a.val ≠ 0 ∧ s.chip.rd (0x2160 + a.val) 6 ≠ 0) ∧
    (∃ (s : State) (a : Fin 2), s.chip.armed a.val ≠ 0 ∧ s.chip.rd (0x2160 + a.val) 6 ≠ 0) ∧
    (∃ (s : State) (a : Fin 2), s.chip.awake .sense = true ∧ s.chip.mclk = true ∧ s.chip.tdc.aux.length = 2 ∧
      (s.chip.aux a.val).y.calibrating = false) ∧
    (∃ (s : State) (a : Fin 2), s.chip.awake .sense = true ∧ s.chip.mclk = true ∧ s.chip.tdc.aux.length = 2 ∧
      (s.chip.aux a.val).y.calibrating = false) :=
  ⟨⟨st base, qs, 1, _, _, _, taken (by decide +kernel)⟩,
   ⟨on [(0x2100, 1, 0)], qs, 1, _, _, _, taken (by decide +kernel)⟩,
   ⟨st base, qs, 1, _, _, _, taken (by decide +kernel)⟩,
   ⟨on [(0x2161, 1, 2)], qs, 1, _, _, _, taken (by decide +kernel)⟩,
   ⟨on [(0x2161, 1, 1), (0x2161, 2, 0), (0x2161, 3, 1), (0x2161, 5, 0), (0x2000, 3, 8), (0x2001, 3, 8)], 1, 0, 0, ⟨0,
     0⟩, false, by decide +kernel⟩,
   ⟨st ((puts base [(0x2161, 1, 1), (0x2161, 2, 0), (0x2161, 3, 1), (0x2161, 5, 0), (0x2000, 3, 8), (0x2001, 3,
     8)]).modAux 1 fun x => { x with x := { x.x with pair := some ⟨768, 1664, 0, false⟩ } }), 1, 0, 7, ⟨30, 1⟩, false,
     by decide +kernel⟩,
   ⟨st ((puts base [(0x2161, 1, 1), (0x2161, 2, 0), (0x2161, 3, 1), (0x2161, 5, 1), (0x2000, 3, 8), (0x2001, 3,
     8)]).modAux 1 fun x => { x with start := some ⟨511, 0, true⟩ }), 1, 1, 0, ⟨0, 0⟩, false, ⟨511, 0, true⟩,
     by decide +kernel⟩,
   ⟨st ((puts base [(0x2161, 1, 2), (0x2161, 2, 0), (0x2161, 3, 1), (0x2161, 5, 1), (0x2000, 3, 8), (0x2001, 3,
     8)]).modAux 1 fun x => { x with start := some ⟨1023 / 2, 0, true⟩ }), 1, 1, 0, ⟨0, 0⟩, false, ⟨1023 / 2, 0,
     true⟩, by decide +kernel⟩,
   ⟨st (base.modAux 1 fun x => { x with held := [⟨0, 0, false⟩] }), 1, ⟨0, 0, false⟩, [], by decide +kernel⟩,
   ⟨on [(0x2161, 1, 1), (0x2161, 6, 1)], 1, by decide +kernel⟩,
   ⟨on [(0x2161, 1, 2), (0x2161, 6, 1)], 1, by decide +kernel⟩,
   ⟨st base, 1, by decide +kernel⟩,
   ⟨st (base.modAux 1 fun x => { x with x := { x.x with calibrating := true } }), 1, by decide +kernel⟩⟩

theorem witness_CapturesQueue :
    (∃ (s : State) (pin : Fin 4) (f : Bool) (_ : Nat) (_ : RingCounts), s.chip.awake .sense = true ∧ s.chip.mclk =
      true ∧ s.chip.rdb 0x2170 1 pin.val = true ∧ bit f.toNat (s.chip.rdf 0x2170 2 (2 * pin.val + 1) (2 * pin.val)) =
      true) ∧
    (∃ (s : State) (pin : Fin 4) (f : Bool) (_ : Nat) (_ : RingCounts), s.chip.awake .sense = true ∧ s.chip.mclk =
      true ∧ s.chip.rdb 0x2170 1 pin.val = true ∧ bit f.toNat (s.chip.rdf 0x2170 2 (2 * pin.val + 1) (2 * pin.val)) =
      true) ∧
    (∃ (s : State) (q : Envelope) (n : Option Nat) (r : Row) (e : Chip), s.chip.WriteTaken q 0x2170 4 0 n r e) :=
  ⟨⟨on [(0x2170, 1, 8), (0x2170, 2, 192)], 3, true, 0, ⟨0, 0⟩, by decide +kernel⟩,
   ⟨st { puts base [(0x2170, 1, 8), (0x2170, 2, 192)] with tdc := { base.tdc with fifo := List.replicate 64 0 } }, 3,
     true, 0, ⟨0, 0⟩, by decide +kernel⟩,
   ⟨on [(0x2170, 4, 9)], qs, _, _, _, taken (by decide +kernel)⟩⟩

theorem witness_ChannelsChangeState :
    (∃ (s : State) (ch : Fin 8), s.chip.suspended ch.val = true) ∧
    (∃ (s : State) (ch : Fin 8), s.chip.suspended ch.val = true) ∧
    (∃ (s : State) (ch : Fin 8), s.chip.tcOn ch.val = false ∧ s.chip.chans.length = 8) ∧
    (∃ (s : State) (ch : Fin 8), oChannelsChangeState_runs s.chip ch.val ∧ s.chip.rd (0x3000 + ch.val) 0x0D = 2 ∧
      s.chip.tcState ch.val ≠ 0) ∧
    (∃ (s : State) (ch : Fin 8), oChannelsChangeState_runs s.chip ch.val ∧ s.chip.rd (0x3000 + ch.val) 0x0D = 2 ∧
      s.chip.tcState ch.val ≠ 0) ∧
    (∃ (s : State) (ch : Fin 8), oChannelsChangeState_runs s.chip ch.val ∧ s.chip.hybrid ch.val = false ∧
      (s.chip.tcState ch.val = 1 ∨ s.chip.tcState ch.val = 2) ∧ s.chip.rd (0x3000 + ch.val) 0x0D ≠ 2 ∧ (s.chip.rd
      (0x3000 + ch.val) 0x0D = 1 ∨ (∀ k, 1 ≤ k → k ≤ 28 → s.chip.selectable ch.val 0 k = false))) ∧
    (∃ (s : State) (ch : Fin 8), oChannelsChangeState_runs s.chip ch.val ∧ s.chip.hybrid ch.val = false ∧
      (s.chip.tcState ch.val = 1 ∨ s.chip.tcState ch.val = 2) ∧ s.chip.rd (0x3000 + ch.val) 0x0D ≠ 2 ∧ (s.chip.rd
      (0x3000 + ch.val) 0x0D = 1 ∨ (∀ k, 1 ≤ k → k ≤ 28 → s.chip.selectable ch.val 0 k = false))) ∧
    (∃ (s : State) (ch : Fin 8) (k : Nat), oChannelsChangeState_runs s.chip ch.val ∧ s.chip.hybrid ch.val = false ∧
      (s.chip.tcState ch.val = 0 ∨ s.chip.tcState ch.val = 3) ∧ s.chip.rd (0x3000 + ch.val) 0x0D = 0 ∧
      oChannelsChangeState_only s.chip ch.val k) ∧
    (∃ (s : State) (ch : Fin 8) (k : Nat), oChannelsChangeState_runs s.chip ch.val ∧ s.chip.hybrid ch.val = false ∧
      (s.chip.tcState ch.val = 0 ∨ s.chip.tcState ch.val = 3) ∧ s.chip.rd (0x3000 + ch.val) 0x0D = 0 ∧
      oChannelsChangeState_only s.chip ch.val k) ∧
    (∃ (s : State) (ch : Fin 8) (k from_ : Nat) (e : Int) (t : List Int), oChannelsChangeState_runs s.chip ch.val ∧
      s.chip.hybrid ch.val = false ∧ s.chip.tcState ch.val = 1 ∧ s.chip.rd (0x3000 + ch.val) 0x0D = 0 ∧
      oChannelsChangeState_only s.chip ch.val k ∧ s.chip.selPhase ch.val = s.chip.entryCand ch.val k ∧ s.chip.sel
      ch.val = s.chip.entryCand ch.val k ∧ (s.chip.chan ch.val).slew = 0 ∧ (s.chip.chan ch.val).preset = none ∧
      (s.chip.chan ch.val).perr = e :: t ∧ e.natAbs ≤ s.chip.rd (0x3000 + ch.val) 7 ∧ (sext 32 (s.chip.rd (0x3010 +
      ch.val) 5) - sext 32 (s.chip.rd (0x2020 + s.chip.selPhase ch.val) 4)).natAbs ≤ s.chip.rd (0x3000 + ch.val) 8 ∧
      (s.chip.chan ch.val).lockSince = some from_ ∧ from_ + s.chip.rd (0x3000 + ch.val) 9 * 1000000000 * nsUnit ≤
      s.chip.time.mono) ∧
    (∃ (s : State) (ch : Fin 8) (k : Nat) (e : Rat), oChannelsChangeState_runs s.chip ch.val ∧ s.chip.hybrid ch.val =
      false ∧ s.chip.tcState ch.val = 2 ∧ s.chip.rd (0x3000 + ch.val) 0x0D = 0 ∧ oChannelsChangeState_only s.chip
      ch.val k ∧ s.chip.selPhase ch.val = s.chip.entryCand ch.val k ∧ s.chip.sel ch.val = s.chip.entryCand ch.val k ∧
      s.chip.rdb (0x3010 + ch.val) 1 7 = false ∧ (s.chip.chan ch.val).errs = [e] ∧ (s.chip.rd (0x3000 + ch.val) 0x0A :
      Rat) < ratAbs e) ∧
    (∃ (s : State), oChannelsChangeState_runs s.chip 0 ∧ s.chip.rd 0x3000 0x0D = 2 ∧ s.chip.tcState 0 = 0 ∧
      s.chip.hybrid 0 = false) ∧
    (∃ (s : State) (ch : Fin 8), s.chip.tcOn ch.val = true ∧ s.chip.tcState ch.val = 1 ∧ s.chip.rd (0x3000 + ch.val)
      0x0B ≠ 0 ∧ (s.chip.chan ch.val).acqTimedOut = false ∧ s.chip.chans.length = 8) ∧
    (∃ (s : State) (ch : Fin 8) (byLimit : Bool), oChannelsChangeState_runs s.chip ch.val ∧ s.chip.tcState ch.val = 3
      ∧ (byLimit = false → s.chip.rd (0x3020 + ch.val) 0x2C ≠ 0) ∧ (byLimit = true → s.chip.rd (0x3020 + ch.val) 0x2D
      ≠ 0 ∧ (s.chip.rd (0x3030 + ch.val) 3 = 5 ∨ s.chip.rd (0x3030 + ch.val) 3 = 0 ∧ s.chip.rd (0x3020 + ch.val) 0x2D
      * 1000 < s.chip.rd (0x3030 + ch.val) 2))) ∧
    (∃ (s : State) (ch : Fin 8) (byLimit : Bool), oChannelsChangeState_runs s.chip ch.val ∧ s.chip.tcState ch.val = 3
      ∧ (byLimit = false → s.chip.rd (0x3020 + ch.val) 0x2C ≠ 0) ∧ (byLimit = true → s.chip.rd (0x3020 + ch.val) 0x2D
      ≠ 0 ∧ (s.chip.rd (0x3030 + ch.val) 3 = 5 ∨ s.chip.rd (0x3030 + ch.val) 3 = 0 ∧ s.chip.rd (0x3020 + ch.val) 0x2D
      * 1000 < s.chip.rd (0x3030 + ch.val) 2))) ∧
    (∃ (s : State) (ch : Fin 8) (byLimit : Bool), oChannelsChangeState_runs s.chip ch.val ∧ s.chip.tcState ch.val = 3
      ∧ (byLimit = false → s.chip.rd (0x3020 + ch.val) 0x2C ≠ 0) ∧ (byLimit = true → s.chip.rd (0x3020 + ch.val) 0x2D
      ≠ 0 ∧ (s.chip.rd (0x3030 + ch.val) 3 = 5 ∨ s.chip.rd (0x3030 + ch.val) 3 = 0 ∧ s.chip.rd (0x3020 + ch.val) 0x2D
      * 1000 < s.chip.rd (0x3030 + ch.val) 2))) :=
  ⟨⟨st { base with time := { base.time with lo := .absent } }, 7, by decide +kernel⟩,
   ⟨on [(0x3007, 1, 1), (0xA001, 1, 1)], 7, by decide +kernel⟩,
   ⟨st (base.modChan 7 fun k => { k with w := 5 }), 7, by decide +kernel⟩,
   ⟨st (chanOn 7 [(0x3007, 0x0D, 2), (0x3017, 1, 2)] fun k => { k with w := 5, integ := 3 }), 7, by decide +kernel⟩,
   ⟨st (chanOn 0 [(0x3000, 0x0D, 2), (0x3010, 1, 1), (0x3000, 4, 8)] fun k => { k with w := 5, hybrid := 3 }), 0,
     by decide +kernel⟩,
   ⟨st (chanOn 7 [(0x3007, 0x0D, 1), (0x3017, 1, 1)]), 7, by decide +kernel, by decide +kernel, by decide +kernel,
     by decide +kernel, Or.inl (by decide +kernel)⟩,
   ⟨st (chanOn 7 [(0x3107, 28, 27 * 256 + 128), (0x3017, 1, 2), (0x3027, 0x0C, 225), (0x3027, 8, 0)]), 7,
     by decide +kernel, by decide +kernel, by decide +kernel, by decide +kernel, Or.inr (noneReady
     (by decide +kernel))⟩,
   ⟨st (chanOn 7 []), 7, 28, by decide +kernel, by decide +kernel, by decide +kernel, by decide +kernel, onlyOne
     (by decide +kernel)⟩,
   ⟨st (chanOn 0 [(0x3010, 1, 3)]), 0, 28, by decide +kernel, by decide +kernel, by decide +kernel, by decide +kernel,
     onlyOne (by decide +kernel)⟩,
   ⟨st
     { chanOn 7 [(0x3017, 1, 1), (0x3017, 2, 27), (0x3017, 3, 27), (0x3007, 7, 5), (0x3007, 9, 1), (0x3007, 8, 3), (0x3017, 5, 3)] (fun k => { k with perr := [-5], lockSince := some 7 }) with time := { base.time with mono := 7 + 1000000000 * nsUnit } },
     7, 28, 7, -5, [], by decide +kernel, by decide +kernel, by decide +kernel, by decide +kernel, onlyOne
     (by decide +kernel), by decide +kernel⟩,
   ⟨st (chanOn 7 [(0x3017, 1, 2), (0x3017, 2, 27), (0x3017, 3, 27), (0x3007, 0x0A, 5)] (fun k =>
     { k with errs := [-11 / 2] })), 7, 28, -11 / 2, by decide +kernel, by decide +kernel, by decide +kernel,
     by decide +kernel, onlyOne (by decide +kernel), by decide +kernel⟩,
   ⟨st (chanOn 0 [(0x3000, 0x0D, 2)] (fun k => { k with w := 3000000000 })), by decide +kernel⟩,
   ⟨st (chanOn 7 [(0x3017, 1, 1), (0x3007, 0x0B, 1)]), 7, by decide +kernel⟩,
   ⟨st (chanOn 7 [(0x3017, 1, 3), (0x3027, 0x2C, 1)]), 7, false, by decide +kernel⟩,
   ⟨st (chanOn 7 [(0x3017, 1, 3), (0x3027, 0x2D, 1), (0x3037, 3, 0), (0x3037, 2, 1001)]), 7, true, by decide +kernel⟩,
   ⟨st (chanOn 0 [(0x3010, 1, 3), (0x3020, 0x2D, 1), (0x3030, 3, 5)]), 0, true, by decide +kernel⟩⟩

theorem witness_SelectionWritesAct :
    (∃ (s : State) (q : Envelope) (ch : Fin 8) (v : Nat) (n : Option Nat) (r : Row) (e : Chip), s.chip.WriteTaken q
      (0x3000 + ch.val) 0x0C v n r e) ∧
    (∃ (s : State) (q : Envelope) (ch : Fin 8) (v : Nat) (n : Option Nat) (r : Row) (e : Chip), s.chip.WriteTaken q
      (0x3000 + ch.val) 0x0C v n r e) ∧
    (∃ (s : State) (q : Envelope) (ch : Fin 8) (k : Fin 28) (b : Bool) (n : Option Nat) (r : Row) (e : Chip),
      s.chip.WriteTaken q (0x3100 + ch.val) (k.val + 1) (setBit 7 (s.chip.rd (0x3100 + ch.val) (k.val + 1)) b) n r e) ∧
    (∃ (s : State) (q : Envelope) (ch : Fin 8) (k : Fin 28) (b : Bool) (n : Option Nat) (r : Row) (e : Chip),
      s.chip.WriteTaken q (0x3100 + ch.val) (k.val + 1) (setBit 7 (s.chip.rd (0x3100 + ch.val) (k.val + 1)) b) n r e) ∧
    (∃ (s : State) (q : Envelope) (ch : Fin 8) (k : Fin 28) (v : Nat) (n : Option Nat) (r : Row) (e : Chip),
      s.chip.WriteTaken q (0x3100 + ch.val) (k.val + 1) v n r e) ∧
    (∃ (s : State) (q : Envelope) (ch : Fin 8) (k : Fin 28) (v : Nat) (n : Option Nat) (r : Row) (e : Chip),
      s.chip.WriteTaken q (0x3100 + ch.val) (k.val + 1) v n r e) ∧
    (∃ (s : State) (q : Envelope) (ch : Fin 8) (k : Fin 28) (v : Nat) (n : Option Nat) (r : Row) (e : Chip),
      s.chip.WriteTaken q (0x3100 + ch.val) (k.val + 1) v n r e) ∧
    (∃ (s : State) (q : Envelope) (ch : Fin 8) (n : Option Nat) (r : Row) (e : Chip), s.chip.WriteTaken q (0x3000 +
      ch.val) 0x11 1 n r e ∧ e.chans.length = 8) :=
  ⟨⟨on [(0x3007, 0x0C, 27), (0x3017, 1, 16)], qs, 7, 0xFF, _, _, _, taken (by decide +kernel)⟩,
   ⟨on [(0x3107, 28, 27 * 256)], qs, 7, 27, _, _, _, taken (by decide +kernel)⟩,
   ⟨st base, qs, 7, 27, true, _, _, _, taken (by decide +kernel)⟩,
   ⟨on [(0x3107, 28, 27 * 256), (0x3007, 0x0C, 27)], qs, 7, 27, true, _, _, _, taken (by decide +kernel)⟩,
   ⟨st base, qs, 7, 27, 27 * 256, _, _, _, taken (by decide +kernel)⟩,
   ⟨on [(0x3107, 28, 27 * 256), (0x3007, 0x0C, 27)], qs, 7, 27, 26 * 256, _, _, _, taken (by decide +kernel)⟩,
   ⟨on [(0x3107, 1, 27 * 256), (0x3007, 0x0C, 27)], qs, 7, 27, 26 * 256, _, _, _, taken (by decide +kernel)⟩,
   ⟨st ((puts base [(0x3017, 1, 2)]).modChan 7 fun k => { k with buildOut := 7 / 2, slew := 1 }), qs, 7, _, _, _,
     taken (by decide +kernel), by decide +kernel⟩⟩

theorem witness_BoundAndModel :
    (∃ (s : State) (ch : Fin 8), s.chip.tcOn ch.val = true ∧ s.chip.learnFails ch.val ≠ 0 ∧ s.chip.chans.length = 8) ∧
    (∃ (s : State) (ch : Fin 8), s.chip.tcOn ch.val = true ∧ s.chip.learnFails ch.val = 0 ∧ (s.chip.chan
      ch.val).epochBad = 0 ∧ (s.chip.chan ch.val).epochN ≠ 0 ∧ s.chip.chans.length = 8) ∧
    (∃ (s : State) (_ : Fin 8), s.chip.chans.length = 8) ∧
    (∃ (s : State) (q : Envelope) (ch : Fin 8) (n : Option Nat) (r : Row) (e : Chip), s.chip.WriteTaken q (0x3020 +
      ch.val) 0x13 1 n r e ∧ e.chans.length = 8) :=
  ⟨⟨st (chanOn 7 []), 7, by decide +kernel⟩,
   ⟨st (chanOn 7 [(0x3017, 1, 2), (0x3017, 2, 27), (0x203B, 1, 2), (0x3027, 0x28, 2), (0x2211, 15, 1)] fun k =>
     { k with epochN := 1, epochW := 5 }), 7, by decide +kernel⟩,
   ⟨st base, 7, by decide +kernel⟩,
   ⟨st base, qs, 7, _, _, _, taken (by decide +kernel), by decide +kernel⟩⟩

theorem witness_CoreApllSearchesAndLocks :
    (∃ (s : State) (n : Nat), (s.chip.awake .synth = true ∨ s.chip.waking .synth = true) ∧ s.chip.loPresent = true ∧
      s.chip.start.untrusted.contains .apll = false ∧ s.chip.apllLocked = false ∧ s.chip.synth.apll.searching = false
      ∧ ((n : Int) - s.chip.apllExpect).natAbs ≤ 2 ∧ 3 ≤ s.chip.synth.apll.good) ∧
    (∃ (s : State) (n : Nat), (s.chip.awake .synth = true ∨ s.chip.waking .synth = true) ∧ s.chip.loPresent = true ∧
      s.chip.start.untrusted.contains .apll = false ∧ s.chip.apllLocked = true ∧ 8 < ((n : Int) -
      s.chip.apllExpect).natAbs) ∧
    (∃ (s : State), s.chip.apllLocked = false ∧ s.chip.synth.apll.searching = false ∧ s.chip.synth.apll.retrying =
      true ∧ s.chip.synth.apll.awaits = false) ∧
    (∃ (s : State) (_ : Nat), s.chip.synth.apll.searching = true) ∧
    (∃ (s : State) (_ : Nat), s.chip.synth.apll.searching = true ∧ s.chip.synth.apll.fails < 2) :=
  ⟨⟨st ((puts base [(0x4001, 2, 5)]).modApll fun x => { x with good := 3 }), base.apllExpect + 2, by decide +kernel⟩,
   ⟨on [(0x401F, 1, 3)], base.apllExpect + 9, by decide +kernel⟩,
   ⟨st ((puts base [(0x4001, 2, 9)]).modApll fun x => { x with retrying := true, last := some 255 }),
     by decide +kernel⟩,
   ⟨st (base.modApll fun x => { x with searching := true }), 255, by decide +kernel⟩,
   ⟨st (base.modApll fun x => { x with searching := true, fails := 1 }), 255, by decide +kernel⟩⟩

theorem witness_GroupsHopAndLock :
    (∃ (s : State) (g : Fin 8), s.chip.gState g.val = 1 ∧ (s.chip.grp g.val).hop = .settle ∧
      s.chip.synth.groups.length = 8) ∧
    (∃ (s : State) (g : Fin 8) (_ : Nat), s.chip.gState g.val = 1 ∧ (s.chip.grp g.val).hop = .full ∧ s.chip.loPresent
      = true ∧ s.chip.synth.groups.length = 8 ∧ (s.chip.grp g.val).step < 7) ∧
    (∃ (s : State) (g : Fin 8) (_ : Nat), s.chip.gState g.val = 1 ∧ (s.chip.grp g.val).hop = .full ∧ s.chip.loPresent
      = true ∧ s.chip.synth.groups.length = 8 ∧ (s.chip.grp g.val).step < 7) ∧
    (∃ (s : State) (g : Fin 8) (_ : Nat), s.chip.gState g.val = 1 ∧ (s.chip.grp g.val).hop = .full ∧ s.chip.loPresent
      = true ∧ s.chip.synth.groups.length = 8 ∧ 7 ≤ (s.chip.grp g.val).step) ∧
    (∃ (s : State) (g : Fin 8) (_ : Nat), s.chip.gState g.val = 1 ∧ (s.chip.grp g.val).hop = .full ∧ s.chip.loPresent
      = true ∧ s.chip.synth.groups.length = 8 ∧ 7 ≤ (s.chip.grp g.val).step) ∧
    (∃ (s : State) (g : Fin 8) (x : Int), oGroupsHopAndLock_on s.chip g ∧ s.chip.gState g.val = 2 ∧ x.natAbs ≤
      s.chip.rd (0x4010 + g.val) 6 ∧ s.chip.rd (0x4010 + g.val) 5 ≤ (s.chip.grp g.val).good + 1) ∧
    (∃ (s : State) (g : Fin 8) (x : Int), oGroupsHopAndLock_on s.chip g ∧ s.chip.gState g.val = 3 ∧ s.chip.rd (0x4010
      + g.val) 7 < x.natAbs) ∧
    (∃ (s : State) (g : Fin 8), (s.chip.gState g.val = 2 ∨ (s.chip.gState g.val = 4 ∧ s.chip.gReason g.val = 1)) ∧
      s.chip.synth.groups.length = 8) ∧
    (∃ (s : State) (g : Fin 8), (s.chip.gState g.val = 2 ∨ (s.chip.gState g.val = 4 ∧ s.chip.gReason g.val = 1)) ∧
      s.chip.synth.groups.length = 8) ∧
    (∃ (s : State) (g : Fin 8), s.chip.gState g.val = 1 ∧ (s.chip.grp g.val).hop = .retry ∧ s.chip.synth.groups.length
      = 8) :=
  ⟨⟨st ((puts base [(0x401F, 1, 1)]).modGrp 7 fun x => { x with hop := .settle }), 7, by decide +kernel⟩,
   ⟨st ((puts base [(0x401F, 1, 1), (0x4017, 2, 1000000000000)]).modGrp 7 fun x =>
     { x with hop := .full, step := 6, code := 5, best := some (9, 2) }), 7, 32001, by decide +kernel⟩,
   ⟨st ((puts base [(0x401F, 1, 1), (0x4017, 2, 1000000000000)]).modGrp 7 fun x =>
     { x with hop := .full, step := 0, code := 128 }), 7, 32000, by decide +kernel⟩,
   ⟨st ((puts base [(0x401F, 1, 1), (0x4017, 2, 1000000000000)]).modGrp 7 fun x =>
     { x with hop := .full, step := 7, code := 5 }), 7, 32960, by decide +kernel⟩,
   ⟨st ((puts base [(0x401F, 1, 1), (0x4017, 2, 1000000000000)]).modGrp 7 fun x =>
     { x with hop := .full, step := 7, code := 5, best := some (9, 961) }), 7, 32961, by decide +kernel⟩,
   ⟨st ((puts base [(0x401F, 1, 2)]).modGrp 7 fun x => { x with good := base.rd 0x4017 5 - 1 }), 7, -(base.rd 0x4017 6
     : Int), by decide +kernel⟩,
   ⟨on [(0x401F, 1, 3)], 7, (base.rd 0x4017 7 : Int) + 1, by decide +kernel⟩,
   ⟨on [(0x401F, 1, 2)], 7, by decide +kernel⟩,
   ⟨on [(0x401F, 1, 20)], 7, by decide +kernel⟩,
   ⟨st ((puts base [(0x401F, 1, 1)]).modGrp 7 fun x => { x with hop := .retry }), 7, by decide +kernel⟩⟩

theorem witness_GroupWritesAct :
    (∃ (s : State) (q : Envelope) (g : Fin 8) (n : Option Nat) (r : Row) (e : Chip), s.chip.WriteTaken q (0x4010 +
      g.val) 0x10 1 n r e ∧ e.synth.groups.length = 8) ∧
    (∃ (s : State) (q : Envelope) (g : Fin 8) (n : Option Nat) (r : Row) (e : Chip), s.chip.WriteTaken q (0x4010 +
      g.val) 0x10 1 n r e ∧ e.synth.groups.length = 8) ∧
    (∃ (s : State) (q : Envelope) (g : Fin 8) (on : Bool) (n : Option Nat) (r : Row) (e : Chip), s.chip.WriteTaken q
      (0x4010 + g.val) 1 on.toNat n r e) ∧
    (∃ (s : State) (q : Envelope) (g : Fin 8) (on : Bool) (n : Option Nat) (r : Row) (e : Chip), s.chip.WriteTaken q
      (0x4010 + g.val) 1 on.toNat n r e) ∧
    (∃ (c : Chip) (g : Nat), g < 8 ∧ c.groupWanted g = true ∧ c.gState g = 0 ∧ c.apllLocked = true) ∧
    (∃ (c : Chip) (g : Nat), g < 8 ∧ c.groupWanted g = false) ∧
    (∃ (s : State) (q : Envelope) (n : Option Nat) (r : Row) (e : Chip), s.chip.WriteTaken q 0x4300 2 1 n r e ∧
      e.synth.cache.length = 64) ∧
    (∃ (s : State) (q : Envelope) (g : Fin 8) (n : Option Nat) (r : Row) (e : Chip), s.chip.WriteTaken q (0x4010 +
      g.val) 9 1 n r e ∧ e.synth.groups.length = 8 ∧ e.synth.outs.length = 16) ∧
    (∃ (s : State) (q : Envelope) (g : Fin 8) (n : Option Nat) (r : Row) (e : Chip), s.chip.WriteTaken q (0x4010 +
      g.val) 9 1 n r e ∧ e.synth.groups.length = 8 ∧ e.synth.outs.length = 16) ∧
    (∃ (s : State) (q : Envelope) (g : Fin 8) (n : Option Nat) (r : Row) (e : Chip), s.chip.WriteTaken q (0x4010 +
      g.val) 9 1 n r e ∧ e.synth.groups.length = 8 ∧ e.synth.outs.length = 16) :=
  ⟨⟨on [(0x401F, 1, 3)], qs, 7, _, _, _, taken (by decide +kernel), by decide +kernel⟩,
   ⟨st { puts base [(0x401F, 1, 4)] with staged := [(okey 0x4017 2, 3200000000000)] }, qs, 7, _, _, _, taken
     (by decide +kernel), by decide +kernel⟩,
   ⟨st base, qs, 7, true, _, _, _, taken (by decide +kernel)⟩,
   ⟨on [(0x4017, 1, 1)], qs, 7, false, _, _, _, taken (by decide +kernel)⟩,
   ⟨puts base [(0x4017, 1, 1)], 7, by decide +kernel⟩,
   ⟨puts base [(0x401F, 1, 3)], 7, by decide +kernel⟩,
   ⟨on [(0x4300, 1, 5)], qs, _, _, _, taken (by decide +kernel), by decide +kernel⟩,
   ⟨st base, qs, 7, _, _, _, taken (by decide +kernel), by decide +kernel⟩,
   ⟨st ((puts base [(0x401F, 1, 3), (0x410F, 9, 16), (0x410F, 1, 2)]).modOut 15 fun x => { x with drive := .run }),
     qs, 7, _, _, _, taken (by decide +kernel), by decide +kernel⟩,
   ⟨st ((puts base [(0x401F, 1, 3), (0x410E, 9, 16), (0x410E, 1, 2), (0x410E, 8, 1)]).modOut 14 fun x =>
     { x with drive := .run }), qs, 7, _, _, _, taken (by decide +kernel), by decide +kernel⟩⟩

theorem witness_OutputsFollowTheirGroups :
    (∃ (s : State) (k : Fin 16) (_ : Nat), (s.chip.outp k.val).drive = .falling ∧ s.chip.synth.outs.length = 16) ∧
    (∃ (s : State) (k : Fin 16) (_ : Nat), (s.chip.outp k.val).drive = .falling ∧ s.chip.synth.outs.length = 16) ∧
    (∃ (s : State) (k : Fin 16) (_ : Nat), (s.chip.outp k.val).drive = .falling ∧ s.chip.synth.outs.length = 16) ∧
    (∃ (s : State) (k : Fin 16), (s.chip.outp k.val).drive = .low ∧ s.chip.synth.outs.length = 16) ∧
    (∃ (s : State) (k : Fin 16) (_ _ : Nat), (s.chip.outp k.val).drive = .run ∧ s.chip.rdb (0x4100 + k.val) 9 2 =
      false) ∧
    (∃ (s : State) (k : Fin 16) (_ _ : Nat), (s.chip.outp k.val).drive = .run ∧ s.chip.rdb (0x4100 + k.val) 9 2 =
      false) ∧
    (∃ (s : State) (k : Fin 16) (_ _ : Nat), (s.chip.outp k.val).drive = .run ∧ s.chip.rdb (0x4100 + k.val) 9 2 =
      false) ∧
    (∃ (s : State) (k : Fin 16) (_ _ : Nat), (s.chip.outp k.val).drive = .run ∧ s.chip.rdb (0x4100 + k.val) 9 2 =
      false) ∧
    (∃ (s : State) (k : Fin 16) (low : Nat), oOutputsFollowTheirGroups_short s.chip k.val low = false) ∧
    (∃ (s : State) (k : Fin 16) (low : Nat), (s.chip.outp k.val).drive = .restart ∧ s.chip.outWanted k.val true = true
      ∧ oOutputsFollowTheirGroups_short s.chip k.val low = false ∧ s.chip.synth.outs.length = 16) ∧
    (∃ (s : State) (k : Fin 16) (low : Nat), (s.chip.outp k.val).drive = .restart ∧ s.chip.outWanted k.val true = true
      ∧ oOutputsFollowTheirGroups_short s.chip k.val low = false ∧ s.chip.synth.outs.length = 16) ∧
    (∃ (s : State) (k : Fin 16), s.chip.rdb (0x4100 + k.val) 9 3 = true ∧ s.chip.synth.outs.length = 16) ∧
    (∃ (s : State) (_ : Nat), s.chip.awake .synth = true ∧ s.chip.grade ≠ .e ∧ s.chip.synth.outs.length = 16) ∧
    (∃ (s : State) (_ : Nat), s.chip.awake .synth = true ∧ s.chip.grade ≠ .e ∧ s.chip.synth.outs.length = 16) :=
  ⟨⟨st (base.modOut 15 fun x => { x with drive := .falling }), 15, 0, by decide +kernel⟩,
   ⟨st ((puts base [(0x410F, 6, 2)]).modOut 15 fun x => { x with drive := .falling }), 15, 1000000000,
     by decide +kernel⟩,
   ⟨st ((puts base [(0x410F, 1, 2), (0x401F, 1, 3)]).modOut 15 fun x => { x with drive := .falling }), 15, 5,
     by decide +kernel⟩,
   ⟨st (base.modOut 15 fun x => { x with drive := .low }), 15, by decide +kernel⟩,
   ⟨st ((puts base [(0x401F, 1, 64)]).modOut 15 fun x => { x with drive := .run }), 15, 0, 0, by decide +kernel⟩,
   ⟨st ((puts base [(0x401F, 1, 64), (0x4017, 8, 1000000000)]).modOut 15 fun x => { x with drive := .run }), 15, 449,
     551, by decide +kernel⟩,
   ⟨st ((puts base [(0x401F, 1, 64), (0x4017, 8, 1000000000)]).modOut 15 fun x => { x with drive := .run }), 15, 450,
     549, by decide +kernel⟩,
   ⟨st ((puts base [(0x7011, 16, 7), (0x401F, 1, 64), (0x4017, 8, 1000000000)]).modOut 15 fun x =>
     { x with drive := .run }), 15, 450, 449, by decide +kernel⟩,
   ⟨on [(0x410F, 9, 4), (0x4017, 8, 1000000000)], 15, 450, by decide +kernel⟩,
   ⟨st ((puts base [(0x410F, 1, 2), (0x401F, 1, 3), (0x4017, 8, 1000000000), (0x410F, 5, 2 ^ 64 - 7)]).modOut 15
     fun x => { x with drive := .restart, epoch := 9 / 2 }), 15, 450, by decide +kernel⟩,
   ⟨st ((puts base [(0x410F, 1, 2), (0x401F, 1, 4), (0x410F, 6, 0), (0x4017, 8, 1000000000)]).modOut 15 fun x =>
     { x with drive := .restart }), 15, 450, by decide +kernel⟩,
   ⟨st ((puts base [(0x410F, 9, 8), (0x401F, 1, 3)]).modOut 15 fun x =>
     { x with drive := .run, left := 7 / 3, edge := 1 }), 15, by decide +kernel⟩,
   ⟨st base, 8, by decide +kernel⟩,
   ⟨on [(0x4020, 5, 1)], 31, by decide +kernel⟩⟩

theorem witness_OutputWritesAct :
    (∃ (s : State) (q : Envelope) (k : Fin 16) (ps : Int) (n : Option Nat) (r : Row) (e : Chip), s.chip.WriteTaken q
      (0x4100 + k.val) 5 (wrapInt 64 ps) n r e) ∧
    (∃ (s : State) (q : Envelope) (k : Fin 16) (ps : Int) (n : Option Nat) (r : Row) (e : Chip), s.chip.WriteTaken q
      (0x4100 + k.val) 5 (wrapInt 64 ps) n r e) ∧
    (∃ (s : State) (q : Envelope) (k : Fin 16) (f : Nat) (n : Option Nat) (r : Row) (e : Chip), s.chip.WriteTaken q
      (0x4100 + k.val) 1 f n r e ∧ e.synth.outs.length = 16) ∧
    (∃ (s : State) (q : Envelope) (k : Fin 16) (f : Nat) (n : Option Nat) (r : Row) (e : Chip), s.chip.WriteTaken q
      (0x4100 + k.val) 1 f n r e ∧ e.synth.outs.length = 16) ∧
    (∃ (s : State) (q : Envelope) (k : Fin 16) (v : Nat) (n : Option Nat) (r : Row) (e : Chip), s.chip.WriteTaken q
      0x7011 (k.val + 1) v n r e ∧ e.synth.outs.length = 16) ∧
    (∃ (s : State) (q : Envelope) (k : Fin 16) (v : Nat) (n : Option Nat) (r : Row) (e : Chip), s.chip.WriteTaken q
      0x7011 (k.val + 1) v n r e ∧ e.synth.outs.length = 16) :=
  ⟨⟨st base, qs, 15, -1, _, _, _, taken (by decide +kernel)⟩,
   ⟨st ((puts base [(0x401F, 1, 3), (0x410F, 9, 16), (0x410F, 1, 2)]).modOut 15 fun x => { x with drive := .run }),
     qs, 15, -500, _, _, _, taken (by decide +kernel)⟩,
   ⟨st base, qs, 15, 1, _, _, _, taken (by decide +kernel), by decide +kernel⟩,
   ⟨st ((puts base [(0x401F, 1, 3), (0x410F, 1, 2)]).modOut 15 fun x => { x with drive := .run }), qs, 15, 0, _, _, _,
     taken (by decide +kernel), by decide +kernel⟩,
   ⟨st base, qs, 15, 7, _, _, _, taken (by decide +kernel), by decide +kernel⟩,
   ⟨st ((puts base [(0x401F, 1, 3), (0x410F, 1, 2)]).modOut 15 fun x => { x with drive := .run }), qs, 15, 0, _, _, _,
     taken (by decide +kernel), by decide +kernel⟩⟩

theorem witness_RampsAndSpreads :
    (∃ (s : State) (q : Envelope) (g : Fin 8) (n : Option Nat) (r : Row) (e : Chip), e.synth.groups.length = 8 ∧
      s.chip.WriteTaken q (0x4010 + g.val) 0x0C 1 n r e) ∧
    (∃ (s : State) (q : Envelope) (g : Fin 8) (n : Option Nat) (r : Row) (e : Chip), e.synth.groups.length = 8 ∧
      s.chip.WriteTaken q (0x4010 + g.val) 0x0C 2 n r e) ∧
    (∃ (s : State) (q : Envelope) (g : Fin 8) (n : Option Nat) (r : Row) (e : Chip), e.synth.groups.length = 8 ∧
      s.chip.WriteTaken q (0x4010 + g.val) 0x0C 3 n r e) ∧
    (∃ (s : State) (q : Envelope) (g : Fin 8) (n : Option Nat) (r : Row) (e : Chip), e.synth.groups.length = 8 ∧
      s.chip.WriteTaken q (0x4010 + g.val) 0x0D 1 n r e) ∧
    (∃ (s : State) (q : Envelope) (g : Fin 8) (n : Option Nat) (r : Row) (e : Chip), e.synth.groups.length = 8 ∧
      s.chip.WriteTaken q (0x4010 + g.val) 0x0D 0 n r e) ∧
    (∃ (s : State) (g : Fin 8), (s.chip.grp g.val).ramp.kind = .profile ∧ (s.chip.grp g.val).ramp.frozen = none ∧
      s.chip.synth.groups.length = 8) ∧
    (∃ (s : State) (g : Fin 8), (s.chip.grp g.val).ramp.kind = .profile ∧ (s.chip.grp g.val).ramp.frozen = none ∧
      s.chip.synth.groups.length = 8) ∧
    (∃ (s : State) (g : Fin 8), (s.chip.grp g.val).ramp.kind = .profile ∧ (s.chip.grp g.val).ramp.frozen = none ∧
      s.chip.synth.groups.length = 8) ∧
    (∃ (s : State) (g : Fin 8), (s.chip.grp g.val).ramp.kind = .profile ∧ (s.chip.grp g.val).ramp.frozen = none ∧
      s.chip.synth.groups.length = 8) ∧
    (∃ (s : State) (g : Fin 8), (s.chip.grp g.val).ramp.kind = .spread ∧ (s.chip.grp g.val).ramp.ending = true ∧
      (s.chip.grp g.val).ramp.frozen = none ∧ s.chip.synth.groups.length = 8) :=
  ⟨⟨on [(0x401F, 1, 3), (0x4017, 1, 1), (0x4017, 0x0B, 7), (0x4207, 1, 1)], qs, 7, _, _, _, by decide +kernel, taken
     (by decide +kernel)⟩,
   ⟨st ((puts base [(0x401F, 1, 3), (0x4017, 1, 1)]).modGrp 7 fun x =>
     { x with ramp := { x.ramp with kind := .profile } }), qs, 7, _, _, _, by decide +kernel, taken
     (by decide +kernel)⟩,
   ⟨st ((puts base [(0x401F, 1, 3), (0x4017, 1, 1)]).modGrp 7 fun x =>
     { x with ramp := { x.ramp with kind := .held, start := 5 } }), qs, 7, _, _, _, by decide +kernel, taken
     (by decide +kernel)⟩,
   ⟨on [(0x401F, 1, 3), (0x4017, 1, 1), (0x4017, 0x0E, 10)], qs, 7, _, _, _, by decide +kernel, taken
     (by decide +kernel)⟩,
   ⟨st ((puts base [(0x401F, 1, 3), (0x4017, 1, 1), (0x4017, 0x0D, 1), (0x4017, 0x0E, 1)]).modGrp 7 fun x =>
     { x with ramp := { x.ramp with kind := .spread } }), qs, 7, _, _, _, by decide +kernel, taken
     (by decide +kernel)⟩,
   ⟨st ((puts base [(0x4200, 1, 2), (0x4210, 1, 9)]).modGrp 7 fun x =>
     { x with ramp := { x.ramp with kind := .profile, seg := 1 } }), 7, by decide +kernel⟩,
   ⟨st ((puts base [(0x4200, 1, 2), (0x4200, 2, 1), (0x4210, 2, 9)]).modGrp 7 fun x =>
     { x with ramp := { x.ramp with kind := .profile, seg := 2 } }), 7, by decide +kernel⟩,
   ⟨st ((puts base [(0x4200, 1, 2), (0x4200, 2, 0), (0x4210, 2, 9)]).modGrp 7 fun x =>
     { x with ramp := { x.ramp with kind := .profile, seg := 2 } }), 7, by decide +kernel⟩,
   ⟨st ((puts base [(0x4200, 1, 2), (0x4200, 2, 2), (0x4210, 2, 9000), (0x4017, 2, 1000000000000)]).modGrp 7 fun x =>
     { x with ramp := { x.ramp with kind := .profile, seg := 2 } }), 7, by decide +kernel⟩,
   ⟨st (base.modGrp 7 fun x => { x with ramp := { x.ramp with kind := .spread, ending := true } }), 7,
     by decide +kernel⟩⟩

theorem witness_CounterStepsAndLeaps :
    (∃ (s : State) (r : StepReq), s.chip.time.pendingStep = some r ∧ (s.chip.awake .enga = true ∨ s.chip.awake .engb =
      true ∨ s.chip.awake .port = true → s.chip.hand.stepOpen = true)) ∧
    (∃ (s : State) (r : StepReq), s.chip.time.pendingStep = some r ∧ (s.chip.awake .enga = true ∨ s.chip.awake .engb =
      true ∨ s.chip.awake .port = true → s.chip.hand.stepOpen = true)) ∧
    (∃ (s : State) (q : Envelope) (v : Nat) (n : Option Nat) (r : Row) (e : Chip), s.chip.WriteTaken q 0x1202 1 v n r
      e) ∧
    (∃ (s : State) (q : Envelope) (v : Nat) (n : Option Nat) (r : Row) (e : Chip), s.chip.WriteTaken q 0x1202 1 v n r
      e) ∧
    (∃ (s : State) (q : Envelope) (x : Int) (n : Option Nat) (r : Row) (e : Chip), s.chip.WriteTaken q 0x1202 2
      (wrapInt 64 x) n r e) ∧
    (∃ (s : State) (q : Envelope) (x : Int) (n : Option Nat) (r : Row) (e : Chip), s.chip.WriteTaken q 0x1202 2
      (wrapInt 64 x) n r e) ∧
    (∃ (s : State) (q : Envelope) (x : Int) (n : Option Nat) (r : Row) (e : Chip), s.chip.WriteTaken q 0x1202 3
      (wrapInt 64 x) n r e ∧ e.chans.length = 8) ∧
    (∃ (s : State), s.chip.rd 0x1210 4 ≠ 0) ∧
    (∃ (s : State), s.chip.rd 0x1210 4 ≠ 0) ∧
    (∃ (s : State) (_ : Nat), s.chip.loPresent = true) :=
  ⟨⟨st
     { base.modTime (fun t => { t with pendingStep := some ⟨-7, none, 1, 0, false⟩ }) with hand := { base.hand with stepOpen := true } },
     ⟨-7, none, 1, 0, false⟩, by decide +kernel⟩,
   ⟨st
     { base.modTime (fun t => { t with pendingStep := some ⟨5, some (2 ^ 48 - 1, 999999999, 4294967295), 1, 0, false⟩ }) with hand := { base.hand with stepOpen := true } },
     ⟨5, some (2 ^ 48 - 1, 999999999, 4294967295), 1, 0, false⟩, by decide +kernel⟩,
   ⟨st base, qs, 5 * 2 ^ 80 + 999999999 * 2 ^ 50 + 65535 * 2 ^ 34, _, _, _, taken (by decide +kernel)⟩,
   ⟨st (chanOn 0 []), qs, 0, _, _, _, taken (by decide +kernel)⟩,
   ⟨st (chanOn 0 []), qs, 5, _, _, _, taken (by decide +kernel)⟩,
   ⟨st (base.modTime (fun t => { t with seconds := 7 })), qs, -5000000000, _, _, _, taken (by decide +kernel)⟩,
   ⟨st ((chanOn 0 []).modTime fun t => { t with seconds := 7 }), qs, 5, _, _, _, taken (by decide +kernel),
     by decide +kernel⟩,
   ⟨on [(0x1210, 4, 1), (0x1210, 2, 7), (0x1210, 1, 37)], by decide +kernel⟩,
   ⟨on [(0x1210, 4, 1), (0x1210, 2, 3), (0x1210, 1, 2 ^ 15)], by decide +kernel⟩,
   ⟨st (base.modTime (fun t => { t with rcHistory := List.replicate 16 31240 })), 31257, by decide +kernel⟩⟩

theorem witness_TriggersArmAndFire :
    (∃ (s : State) (q : Envelope) (u : Fin 8) (n : Option Nat) (r : Row) (e : Chip), e.ttus.length = 8 ∧
      s.chip.WriteTaken q (0x7000 + u.val) 1 1 n r e) ∧
    (∃ (s : State) (q : Envelope) (u : Fin 8) (n : Option Nat) (r : Row) (e : Chip), e.ttus.length = 8 ∧
      s.chip.WriteTaken q (0x7000 + u.val) 1 1 n r e) ∧
    (∃ (s : State) (q : Envelope) (u : Fin 8) (n : Option Nat) (r : Row) (e : Chip), e.ttus.length = 8 ∧
      s.chip.WriteTaken q (0x7000 + u.val) 1 2 n r e ∧ 0 < e.ttuPeriod u.val) ∧
    (∃ (s : State) (q : Envelope) (u : Fin 8) (n : Option Nat) (r : Row) (e : Chip), e.ttus.length = 8 ∧
      s.chip.WriteTaken q (0x7000 + u.val) 1 0 n r e) ∧
    (∃ (s : State) (u : Fin 8), s.chip.ttuArmed u.val = true ∧ (s.chip.ttu u.val).final = false ∧ s.chip.awake .synth
      = true ∧ s.chip.apllLocked = true ∧ s.chip.ttus.length = 8) ∧
    (∃ (s : State) (u : Fin 8), s.chip.ttuArmed u.val = true ∧ (s.chip.ttu u.val).final = false ∧ s.chip.awake .synth
      = true ∧ s.chip.apllLocked = true ∧ s.chip.ttus.length = 8) ∧
    (∃ (s : State) (u : Fin 8), s.chip.ttuArmed u.val = true ∧ (s.chip.ttu u.val).final = false ∧ s.chip.awake .synth
      = true ∧ s.chip.apllLocked = false ∧ s.chip.ttus.length = 8) ∧
    (∃ (s : State) (u : Fin 8), s.chip.ttuArmed u.val = true ∧ (s.chip.ttu u.val).final = false ∧ s.chip.awake .synth
      = true ∧ s.chip.apllLocked = false ∧ s.chip.ttus.length = 8) ∧
    (∃ (s : State) (u : Fin 8), s.chip.ttuActive u.val = true) ∧
    (∃ (s : State) (u : Fin 8), s.chip.ttuActive u.val = true) :=
  ⟨⟨on [(0x7007, 4, 2000000), (0x7007, 5, 1000), (0x7007, 3, 2000)], qs, 7, _, _, _, by decide +kernel, taken
     (by decide +kernel)⟩,
   ⟨on [(0x7007, 4, 2000000), (0x7007, 5, 1000), (0x7007, 3, 1999)], qs, 7, _, _, _, by decide +kernel, taken
     (by decide +kernel)⟩,
   ⟨on [(0x7007, 4, 1999999), (0x7007, 5, 1000), (0x7007, 3, 1)], qs, 7, _, _, _, by decide +kernel, taken
     (by decide +kernel), by decide +kernel⟩,
   ⟨on [(0x7007, 1, 2), (0x700F, 1, 3)], qs, 7, _, _, _, by decide +kernel, taken (by decide +kernel)⟩,
   ⟨st ((puts base [(0x700F, 1, 1), (0x7007, 1, 1)])), 7, by decide +kernel⟩,
   ⟨st ((puts base [(0x700F, 1, 1), (0x7007, 1, 2), (0x7007, 4, 1000000), (0x7007, 6, 1)])), 7, by decide +kernel⟩,
   ⟨on [(0x700F, 1, 1), (0x4001, 2, 0), (0x7007, 1, 1)], 7, by decide +kernel⟩,
   ⟨on [(0x700F, 1, 1), (0x4001, 2, 0), (0x7007, 1, 2), (0x7007, 4, 1000000)], 7, by decide +kernel⟩,
   ⟨on [(0x700F, 1, 3)], 7, by decide +kernel⟩,
   ⟨st { puts base [(0x700F, 1, 3)] with ttus := modNth base.ttus 7 (fun u => { u with final := true }) }, 7,
     by decide +kernel⟩⟩

theorem witness_StampsAndLaunches :
    (∃ (s : State) (q : Envelope) (p : Fin 8) (n : Option Nat) (e : Chip), s.chip.ReadTaken q (0x5208 + p.val) 1 n e) ∧
    (∃ (s : State) (q : Envelope) (p : Fin 8) (n : Option Nat) (e : Chip), s.chip.ReadTaken q (0x5208 + p.val) 1 n e) ∧
    (∃ (s : State) (q : Envelope) (p : Fin 8) (n : Option Nat) (r : Row) (e : Chip), s.chip.WriteTaken q (0x5200 +
      p.val) 4 0 n r e) ∧
    (∃ (s : State) (q : Envelope) (p : Fin 8) (v : Nat) (n : Option Nat) (r : Row) (e : Chip), s.chip.WriteTaken q
      (0x5200 + p.val) 1 v n r e) ∧
    (∃ (s : State) (p : Fin 8) (err : Int) (x : TxDesc) (t : List TxDesc), (s.chip.port p.val).ltu = x :: t ∧
      s.chip.held p.val 0 x.prio = false ∧ err ≤ (s.chip.rd (0x5220 + p.val) 2 : Int) * 1000 ∧ x.trick = none ∧
      x.tsRequest = false ∧ x.tebTx = 0) ∧
    (∃ (s : State) (p : Fin 8) (err : Int) (x : TxDesc) (t : List TxDesc), (s.chip.port p.val).ltu = x :: t ∧
      s.chip.held p.val 0 x.prio = false ∧ err ≤ (s.chip.rd (0x5220 + p.val) 2 : Int) * 1000 ∧ x.trick = none ∧
      x.tsRequest = false ∧ x.tebTx = 0) ∧
    (∃ (s : State) (p : Fin 8) (x : TxDesc) (t : List TxDesc), (s.chip.port p.val).ltu = x :: t ∧ s.chip.rd (0x5220 +
      p.val) 1 = 0) :=
  ⟨⟨st (base.modPort 7 (fun x => { x with tsHost := [5, 6] })), qs, 7, _, _, readTaken (by decide +kernel)⟩,
   ⟨st base, qs, 7, _, _, readTaken (by decide +kernel)⟩,
   ⟨on [(0x5207, 4, 9)], qs, 7, _, _, _, taken (by decide +kernel)⟩,
   ⟨st base, qs, 7, 0, _, _, _, taken (by decide +kernel)⟩,
   ⟨st (port7 [] fun x => { x with ltu := [txd, txd] }), 7, 2000, txd, [txd], by decide +kernel⟩,
   ⟨st (port7 [] fun x => { x with ltu := [txd] }), 7, -2001, txd, [], by decide +kernel⟩,
   ⟨st (base.modPort 7 fun x => { x with ltu := [txd] }), 7, txd, [], by decide +kernel⟩⟩

theorem witness_LinksRiseAndFall :
    (∃ (s : State) (p : Fin 8) (_ _ _ _ : Bool), oLinksRiseAndFall_on s.chip p) ∧
    (∃ (s : State) (p : Fin 8) (_ _ _ _ : Bool), oLinksRiseAndFall_on s.chip p) ∧
    (∃ (s : State) (p : Fin 8), oLinksRiseAndFall_on s.chip p ∧ (s.chip.port p.val).good = true ∧ s.chip.up p.val =
      false) ∧
    (∃ (s : State) (p : Fin 8) (_ _ : Bool), oLinksRiseAndFall_on s.chip p ∧ s.chip.up p.val = true) ∧
    (∃ (s : State) (q : Envelope) (p : Fin 8) (sub v : Nat) (rx : Bool) (n : Option Nat) (r : Row) (e : Chip), (sub =
      2 ∨ sub = 3) ∧ (oLinksRiseAndFall_receiving s.chip p.val rx).WriteTaken q (0x5000 + p.val) sub v n r e ∧
      e.ports.length = 8) ∧
    (∃ (s : State) (q : Envelope) (p : Fin 8) (sub v : Nat) (rx : Bool) (n : Option Nat) (r : Row) (e : Chip), (sub =
      2 ∨ sub = 3) ∧ (oLinksRiseAndFall_receiving s.chip p.val rx).WriteTaken q (0x5000 + p.val) sub v n r e ∧
      e.ports.length = 8) ∧
    (∃ (s : State) (q : Envelope) (p : Fin 8) (sub v : Nat) (rx : Bool) (n : Option Nat) (r : Row) (e : Chip), (sub =
      2 ∨ sub = 3) ∧ (oLinksRiseAndFall_receiving s.chip p.val rx).WriteTaken q (0x5000 + p.val) sub v n r e ∧
      e.ports.length = 8) ∧
    (∃ (s : State) (q : Envelope) (p : Fin 8) (b rx : Bool) (n : Option Nat) (r : Row) (e : Chip),
      (oLinksRiseAndFall_receiving s.chip p.val rx).WriteTaken q (0x5000 + p.val) 1 b.toNat n r e) ∧
    (∃ (c : Chip) (p : Nat), p < 8 ∧ c.portOn p = false) ∧
    (∃ (s : State) (p : Fin 8), s.chip.rdb (0x5000 + p.val) 0x0D 0 = true ∧ s.chip.up p.val = true ∧ s.chip.rdb
      (0x5010 + p.val) 1 7 = false ∧ (s.chip.port p.val).tx.flatten = [] ∧ (s.chip.port p.val).control = [] ∧
      (s.chip.port p.val).ltu = [] ∧ (s.chip.port p.val).late = [] ∧ s.chip.nextStart p.val = none) ∧
    (∃ (s : State) (p : Fin 8), s.chip.rdb (0x5010 + p.val) 1 7 = true ∧ s.chip.ports.length = 8) ∧
    (∃ (s : State) (p : Fin 8), s.chip.up p.val = true ∧ s.chip.rdb (0x5010 + p.val) 1 6 = false) :=
  ⟨⟨on [(0x5007, 1, 1)], 7, true, true, true, true, by decide +kernel⟩,
   ⟨on [(0x5007, 1, 1), (0x5007, 2, 1)], 7, true, true, true, true, by decide +kernel⟩,
   ⟨st ((puts base [(0x5007, 1, 1)]).modPort 7 fun x => { x with good := true }), 7, by decide +kernel⟩,
   ⟨st (port7 [] fun x => { x with tx := [[], [], [txd]], ltu := [txd] }), 7, true, true, by decide +kernel⟩,
   ⟨st base, qs, 7, 2, 1, true, _, _, _, by decide, taken (by decide +kernel), by decide +kernel⟩,
   ⟨st (port7 [] fun x => { x with tx := [[], [], [txd]] }), qs, 7, 3, 0, true, _, _, _, by decide, taken
     (by decide +kernel), by decide +kernel⟩,
   ⟨st (port7 [] fun x => { x with receiving := true }), qs, 7, 2, 2, false, _, _, _, by decide, taken
     (by decide +kernel), by decide +kernel⟩,
   ⟨st base, qs, 7, true, true, _, _, _, taken (by decide +kernel)⟩,
   ⟨puts base [(0x5017, 1, 1)], 7, by decide +kernel⟩,
   ⟨on [(0x5007, 0x0D, 1), (0x5017, 1, 1)], 7, by decide +kernel⟩,
   ⟨on [(0x5017, 1, 128)], 7, by decide +kernel⟩,
   ⟨on [(0x5017, 1, 1)], 7, by decide +kernel⟩⟩

theorem witness_FramesAreReceived :
    (∃ (s : State) (p : Fin 8) (_ : List Nat) (_ _ _ : Nat), oFramesAreReceived_on s.chip p) ∧
    (∃ (s : State) (p : Fin 8) (_ : List Nat) (_ _ _ : Nat), oFramesAreReceived_on s.chip p) ∧
    (∃ (s : State) (p : Fin 8) (_ : List Nat) (_ _ _ : Nat), oFramesAreReceived_on s.chip p) ∧
    (∃ (s : State) (q : Envelope) (p : Fin 8) (n : Option Nat) (e : Chip), s.chip.ReadTaken q (0x5130 + p.val) 1 n e) ∧
    (∃ (s : State) (q : Envelope) (p : Fin 8) (n : Option Nat) (e : Chip), s.chip.ReadTaken q (0x5130 + p.val) 1 n e) :=
  ⟨⟨st (port7 []), 7, framed (plainTo 5), 0, 3, 7, by decide +kernel⟩,
   ⟨st (port7 [(0x5007, 9, 8)]), 7, framed (plainTo (base.rd 0x5007 4)), 0, 3, 7, by decide +kernel⟩,
   ⟨st (port7 [] fun x => { x with rx := modNth x.rx 4 (fun _ => List.replicate (base.rxSlots 7 4) (rxd [])) }), 7,
     framed (plainTo (base.rd 0x5007 4)), 0, 3, 7, by decide +kernel⟩,
   ⟨st (port7 [] fun x => { x with rx := modNth x.rx 4 (fun _ => [rxd [1, 2], rxd [3]]) }), qs, 7, _, _, readTaken
     (by decide +kernel)⟩,
   ⟨st base, qs, 7, _, _, readTaken (by decide +kernel)⟩⟩

theorem witness_FramesAreSent :
    (∃ (s : State) (q : Envelope) (p : Fin 8) (b : List Nat) (n : Option Nat) (r : Row) (e : Chip) (y : TxDesc),
      s.chip.BytesTaken q (0x5138 + p.val) 1 b n r e ∧ txDescOf b 2 = some y ∧ e.ports.length = 8 ∧ (e.port
      p.val).tx.length = 3 ∧ (e.txRing p.val 2).length < e.txSlots p.val 2 ∧ e.txHeld p.val 2 + cellsOf y.bytes.length
      ≤ e.txReserve p.val 2) ∧
    (∃ (s : State) (p : Fin 8) (_ : Nat) (x : TxDesc) (t : List TxDesc), s.chip.txRing p.val 2 = x :: t ∧ x.launch =
      false ∧ x.ring = 2 ∧ x.trick = none ∧ x.tebTx = 0 ∧ s.chip.ports.length = 8 ∧ (s.chip.port p.val).tx.length = 3
      ∧ x.bad (s.chip.rd (0x5000 + p.val) 5) = false ∧ (s.chip.up p.val = true ∧ s.chip.awake .port = true ∧
      s.chip.timingOnly = false ∧ s.chip.rdb (0x5010 + p.val) 1 7 = false ∧ (s.chip.port p.val).wakeEnd ≤
      s.chip.time.mono) ∧ s.chip.nextStart p.val = none) ∧
    (∃ (s : State) (p : Fin 8) (_ : Nat) (x : TxDesc) (t : List TxDesc), s.chip.txRing p.val 2 = x :: t ∧ x.launch =
      false ∧ x.ring = 2 ∧ x.trick = none ∧ x.tebTx = 0 ∧ s.chip.ports.length = 8 ∧ (s.chip.port p.val).tx.length = 3
      ∧ x.tsRequest = true) ∧
    (∃ (s : State) (p : Fin 8) (_ : Nat) (x : TxDesc) (t : List TxDesc), s.chip.txRing p.val 2 = x :: t ∧ x.launch =
      false ∧ x.ring = 2 ∧ x.trick = none ∧ x.tebTx = 0 ∧ s.chip.ports.length = 8 ∧ (s.chip.port p.val).tx.length = 3
      ∧ x.tsRequest = true) ∧
    (∃ (s : State) (p : Fin 8) (_ : Nat) (x : TxDesc) (t : List TxDesc), s.chip.txRing p.val 2 = x :: t ∧ x.launch =
      false ∧ x.ring = 2 ∧ x.trick = none ∧ x.tebTx = 0 ∧ s.chip.ports.length = 8 ∧ (s.chip.port p.val).tx.length = 3
      ∧ x.bad (s.chip.rd (0x5000 + p.val) 5) = true) ∧
    (∃ (s : State) (p : Fin 8), (s.chip.port p.val).pauseEnd.isSome = true) ∧
    (∃ (s : State) (p k : Fin 8), (nth (s.chip.port p.val).pfcEnd k.val none).isSome = true) ∧
    (∃ (s : State) (p : Fin 8) (k : Nat), s.chip.up p.val = true ∧ s.chip.rd (0x5000 + p.val) 7 = 1 ∧ k < 5 ∧
      s.chip.xoffBit p.val k = true ∧ bit 7 (s.chip.rxCfg p.val k) = true ∧ s.chip.ports.length = 8) ∧
    (∃ (s : State) (p : Fin 8) (f : Option Nat × Nat) (t : List (Option Nat × Nat)), (s.chip.port p.val).control = f
      :: t ∧ oFramesAreSent_sending s.chip p.val ∧ s.chip.ports.length = 8 ∧ (∀ n, s.chip.nextStart p.val = some n →
      s.chip.totalRat + s.chip.wireNs p.val 64 ≤ (n : Rat))) ∧
    (∃ (s : State) (p : Fin 8) (f : Option Nat × Nat) (t : List (Option Nat × Nat)), (s.chip.port p.val).control = f
      :: t ∧ oFramesAreSent_sending s.chip p.val ∧ s.chip.ports.length = 8 ∧ (∀ n, s.chip.nextStart p.val = some n →
      s.chip.totalRat + s.chip.wireNs p.val 64 ≤ (n : Rat))) :=
  ⟨⟨st (port7 []), qs, 7, txb, _, _, _, (txDescOf txb 2).getD default, takenBytes (by decide +kernel),
     by decide +kernel⟩,
   ⟨st (port7 [] fun x => { x with tx := [[], [], [txd, txd]] }), 7, 5, txd, [txd], by decide +kernel⟩,
   ⟨st (port7 [(0x5207, 1, 2)] fun x => { x with tx := [[], [], [{ txd with flags := 144 }]], tsHost := [1] }), 7, 5,
     { txd with flags := 144 }, [], by decide +kernel⟩,
   ⟨st (port7 [(0x5207, 1, 2)] fun x => { x with tx := [[], [], [{ txd with flags := 144 }]], tsHost := [1, 2] }), 7,
     5, { txd with flags := 144 }, [], by decide +kernel⟩,
   ⟨st (port7 [] fun x => { x with tx := [[], [], [{ txd with bytes := List.replicate 59 0 }]] }), 7, 5,
     { txd with bytes := List.replicate 59 0 }, [], by decide +kernel⟩,
   ⟨st (base.modPort 7 fun x => { x with pauseEnd := some 0 }), 7, by decide +kernel⟩,
   ⟨st (base.modPort 7 fun x => { x with pfcEnd := List.replicate 8 (some 0) }), 7, 7, by decide +kernel⟩,
   ⟨on [(0x5017, 1, 1), (0x5007, 7, 1), (0x5127, 6, 16), (0x5120 + 7, 1, 0)], 7, 4, by decide +kernel⟩,
   ⟨st (port7 [] fun x => { x with control := [(none, 5), (none, 6)] }), 7, (none, 5), [(none, 6)], by decide +kernel,
     by decide +kernel, by decide +kernel, by decide +kernel⟩,
   ⟨st (port7 [] fun x => { x with control := [(some 7, 65535)] }), 7, (some 7, 65535), [], by decide +kernel,
     by decide +kernel, by decide +kernel, by decide +kernel⟩⟩

theorem witness_DealsGoThroughTheirSteps :
    (∃ (s : State), s.chip.hand.stage = 0 ∧ s.chip.dealIdle = false ∧ s.chip.ports.length = 8) ∧
    (∃ (s : State), s.chip.hand.stage = 3 ∧ s.chip.hand.backlog = 0 ∧ s.chip.dealIdle = false) ∧
    (∃ (s : State), s.chip.hand.stage = 1 ∧ s.chip.ports.length = 8) ∧
    (∃ (s : State) (x : Drained) (t : List Drained), s.chip.hand.stage = 2 ∧ s.chip.hand.drained = x :: t ∧
      oDealsGoThroughTheirSteps_kept s.chip ∧ x.limit + s.chip.hand.proc ≤ s.chip.hand.ends ∧ 0 < s.chip.rd 0x6000 1) ∧
    (∃ (s : State) (x : Drained) (t : List Drained), s.chip.hand.stage = 2 ∧ s.chip.hand.drained = x :: t ∧
      s.chip.hand.ends < x.limit + s.chip.hand.proc ∧ 0 < s.chip.rd 0x6000 1) ∧
    (∃ (s : State), s.chip.hand.stage = 0 ∧ 0 < s.chip.rd 0x6000 1) ∧
    (∃ (s : State), s.chip.hand.stage = 3 ∧ s.chip.hand.backlog = 0 ∧ s.chip.hand.behind = 0 ∧
      oDealsGoThroughTheirSteps_kept s.chip) ∧
    (∃ (s : State) (n : Nat), s.chip.hand.stage = 3 ∧ s.chip.hand.behind = n + 1 ∧ oDealsGoThroughTheirSteps_kept
      s.chip) :=
  ⟨⟨st (base.modPort 7 fun x => { x with tsEngine := [5] }), by decide +kernel⟩,
   ⟨st { base with hand := { base.hand with stage := 3 } }, by decide +kernel⟩,
   ⟨st
     { base.modPort 7 (fun x => { x with tx := [[txd], [], []] }) with hand := { base.hand with stage := 1, ends := 1000000 } },
     by decide +kernel⟩,
   ⟨st { base with hand := { base.hand with stage := 2, ends := 1000000, drained := [⟨990000, 0⟩], proc := 10000 } },
     ⟨990000, 0⟩, [], by decide +kernel⟩,
   ⟨st { base with hand := { base.hand with stage := 2, ends := 1000000, drained := [⟨990000, 0⟩], proc := 10001 } },
     ⟨990000, 0⟩, [], by decide +kernel⟩,
   ⟨st { base with hand := { base.hand with ends := 1000000 } }, by decide +kernel⟩,
   ⟨st { base with hand := { base.hand with stage := 3, drained := [⟨990000, 0⟩] } }, by decide +kernel⟩,
   ⟨st
     { base with hand := { base.hand with stage := 3, behind := 1, deal := 5000000, drained := [⟨990000, 0⟩, ⟨1990000, 0⟩] } },
     0, by decide +kernel⟩⟩

theorem witness_TricksAreWrittenAndServed :
    (∃ (s : State) (q : Envelope) (p : Fin 8) (b : List Nat) (n : Option Nat) (r : Row) (e : Chip), s.chip.BytesTaken
      q (0x6010 + p.val) 2 b n r e ∧ e.ports.length = 8 ∧ (e.port p.val).banks.length = 2) ∧
    (∃ (s : State) (q : Envelope) (p : Fin 8) (b : List Nat) (n : Option Nat) (r : Row) (e : Chip), s.chip.BytesTaken
      q (0x6010 + p.val) 2 b n r e ∧ e.ports.length = 8 ∧ (e.port p.val).banks.length = 2) ∧
    (∃ (s : State) (q : Envelope) (p : Fin 8) (v : Nat) (n : Option Nat) (r : Row) (e : Chip), s.chip.WriteTaken q
      (0x6008 + p.val) 3 v n r e) ∧
    (∃ (s : State) (q : Envelope) (p : Fin 8) (v : Nat) (n : Option Nat) (r : Row) (e : Chip), s.chip.WriteTaken q
      (0x6008 + p.val) 4 v n r e ∧ e.ports.length = 8) ∧
    (∃ (s : State) (q : Envelope) (p : Fin 8) (v : Nat) (n : Option Nat) (r : Row) (e : Chip), s.chip.WriteTaken q
      (0x6008 + p.val) 4 v n r e ∧ e.ports.length = 8 ∧ e.planFault (e.idleList p.val) (e.rdStaged 0x6000 2) = none ∧
      e.rd 0x6001 1 + 2 ≤ v) ∧
    (∃ (s : State) (p : Fin 8) (_ _ : Bool), (s.chip.port p.val).composed < s.chip.activeCount p.val ∧ (s.chip.port
      p.val).closed = false ∧ s.chip.portOn p.val = true ∧ s.chip.ports.length = 8) ∧
    (∃ (s : State) (p : Fin 8) (_ _ : Bool), (s.chip.port p.val).composed < s.chip.activeCount p.val ∧ (s.chip.port
      p.val).closed = false ∧ s.chip.portOn p.val = true ∧ s.chip.ports.length = 8) ∧
    (∃ (s : State) (p : Fin 8) (_ : Nat), (s.chip.port p.val).begun < s.chip.activeCount p.val ∧ s.chip.portOn p.val =
      true ∧ (s.chip.hand.stage = 0 ∨ s.chip.hand.stage = 3) ∧ s.chip.ports.length = 8) ∧
    (∃ (s : State) (p : Fin 8) (t : Trick), (s.chip.port p.val).open_ = some t ∧ t.due ≠ 0 ∧ t.due ≤ t.started ∧
      s.chip.ports.length = 8) :=
  ⟨⟨st base, qs, 7, List.replicate 16 0, _, _, _, takenBytes (by decide +kernel), by decide +kernel⟩,
   ⟨st (base.modPort 7 fun x => { x with banks := [[(0, 9)], [(0, 7), (1, 8), (5, 9)]] }), qs, 7, List.replicate 16
     255 ++ List.replicate 16 0, _, _, _, takenBytes (by decide +kernel), by decide +kernel⟩,
   ⟨st base, qs, 7, 0, _, _, _, taken (by decide +kernel)⟩,
   ⟨on [(0x600F, 4, 5), (0x600F, 5, 1)], qs, 7, 0, _, _, _, taken (by decide +kernel), by decide +kernel⟩,
   ⟨on [(0x6001, 1, 5)], qs, 7, 7, _, _, _, taken (by decide +kernel), by decide +kernel, by decide +kernel⟩,
   ⟨on [(0x600F, 2, 1), (0x5007, 1, 1)], 7, true, true, by decide +kernel⟩,
   ⟨on [(0x600F, 2, 1), (0x5007, 1, 1)], 7, false, false, by decide +kernel⟩,
   ⟨on [(0x600F, 2, 1), (0x5007, 1, 1)], 7, 0, by decide +kernel⟩,
   ⟨st (base.modPort 7 fun x => { x with open_ := some ⟨0, 1, 1, 0, false⟩ }), 7, ⟨0, 1, 1, 0, false⟩,
     by decide +kernel⟩⟩

theorem witness_DomainsDoze :
    (∃ (s : State) (x : Dom), (x = .enga ∨ x = .engb ∨ x = .fabric ∨ x = .port) ∧ s.chip.powerState = 0 ∧
      s.chip.power.moving = none ∧ s.chip.awake x = true ∧ s.chip.pendingWork x = false ∧ s.chip.dozeKind x ≠ 0 ∧
      s.chip.power.doms.length = 9) ∧
    (∃ (s : State) (x : Dom), (x = .enga ∨ x = .engb ∨ x = .fabric ∨ x = .port) ∧ s.chip.powerState = 0 ∧
      s.chip.power.moving = none ∧ s.chip.awake x = true ∧ s.chip.pendingWork x = false ∧ s.chip.dozeKind x ≠ 0 ∧
      s.chip.power.doms.length = 9) ∧
    (∃ (s : State) (x : Dom), (x = .enga ∨ x = .engb ∨ x = .fabric ∨ x = .port) ∧ s.chip.powerState = 0 ∧
      s.chip.power.moving = none ∧ s.chip.awake x = true ∧ s.chip.pendingWork x = false ∧ s.chip.dozeKind x ≠ 0 ∧
      s.chip.power.doms.length = 9) ∧
    (∃ (s : State) (x : Dom), s.chip.dozing x = true ∧ s.chip.grade.hasDom x = true ∧ x ≠ .mast ∧ (s.chip.nextNeed
      x).isSome = true) :=
  ⟨⟨st base, .enga, by decide +kernel⟩,
   ⟨st base, .port, by decide +kernel⟩,
   ⟨st (((base.setDom .enga .gated).setDom .engb .gated).setDom .port .gated), .fabric, by decide +kernel⟩,
   ⟨st ((puts base [(0x5007, 1, 1)]).setDom .enga .retained), .enga, by decide +kernel⟩⟩

theorem witness_SessionsAreServed :
    (∃ (s : State) (q : Envelope) (b : List Nat) (n : Option Nat) (r : Row) (e : Chip), r.var = false ∧
      s.chip.BytesTaken q 0x6100 2 b n r e) ∧
    (∃ (s : State) (q : Envelope) (n : Option Nat) (r : Row) (e : Chip), s.chip.WriteTaken q 0x6100 4 1 n r e ∧
      e.commitErr (e.rd 0x6100 1) e.sess.window = none) ∧
    (∃ (s : State) (q : Envelope) (b : List Nat) (n : Option Nat) (r : Row) (e : Chip), r.var = false ∧
      s.chip.BytesTaken q 0x6280 2 b n r e) ∧
    (∃ (s : State) (p : Fin 8) (f : RxDesc) (x : Session), s.chip.rxRing p.val 0 = [f] ∧ f.want = some [useSession] ∧
      s.chip.sessionOf p.val (senderOf f.bytes) = some x ∧ s.chip.sessionRuns x = true ∧ msgType (ptpOf f.bytes) =
      tyDelayReq ∧ s.chip.p2p (sInst x.host) = false) ∧
    (∃ (s : State) (p : Fin 8) (f : RxDesc) (x : Session), s.chip.shedding = false ∧ s.chip.rxRing p.val 0 = [f] ∧
      f.want = some [useSession] ∧ msgType (ptpOf f.bytes) = tyDelayReq ∧ s.chip.reqSession p.val f = none ∧
      s.chip.groupSession p.val (targetOf f.bytes) = some x ∧ dState x.dev = 2 ∧ (sAuth x.host && s.chip.saErased (sSa
      x.host)) = false ∧ s.chip.sessionRuns x = true ∧ f.hand < s.chip.handNo ∧ s.chip.ports.length = 8 ∧ (s.chip.port
      p.val).tx.length = 3 ∧ (s.chip.txRing p.val 1).length < s.chip.txSlots p.val 1) ∧
    (∃ (s : State) (p : Fin 8) (f : RxDesc) (x : Session), s.chip.shedding = false ∧ s.chip.rxRing p.val 0 = [f] ∧
      f.want = some [useSession] ∧ msgType (ptpOf f.bytes) = tyDelayReq ∧ s.chip.reqSession p.val f = none ∧
      s.chip.groupSession p.val (targetOf f.bytes) = some x ∧ dState x.dev = 2 ∧ (sAuth x.host && s.chip.saErased (sSa
      x.host)) = false ∧ s.chip.sessionRuns x = true ∧ f.hand < s.chip.handNo ∧ s.chip.ports.length = 8 ∧ (s.chip.port
      p.val).tx.length = 3 ∧ s.chip.txSlots p.val 1 ≤ (s.chip.txRing p.val 1).length) ∧
    (∃ (s : State) (p : Fin 8) (f : RxDesc) (x : Session) (g : GrantAsk) (b : Nat), s.chip.engineRuns = true ∧
      s.chip.shedding = false ∧ s.chip.rxRing p.val 1 = [f] ∧ f.want = some [useSession] ∧ signalWith 4 f = true ∧
      grantAsks (ptpOf f.bytes) = [g] ∧ s.chip.sessionOf p.val (senderOf f.bytes) = some x ∧ sMode x.host ≠ 1 ∧ dState
      x.dev ≠ 4 ∧ s.chip.periodOk (sInst x.host) g.ty g.log = true ∧ min g.secs (s.chip.rd (0x6210 + sInst x.host) 7)
      ≠ 0 ∧ grantBit g.ty = some b) ∧
    (∃ (s : State) (p : Fin 8) (f : RxDesc) (x : Session), s.chip.engineRuns = true ∧ s.chip.shedding = false ∧
      s.chip.rxRing p.val 1 = [f] ∧ f.want = some [useSession] ∧ signalWith 6 f = true ∧ s.chip.sessionOf p.val
      (senderOf f.bytes) = some x) ∧
    (∃ (s : State) (idx : Nat), (sMode (s.chip.session idx).host = 2 ∨ sMode (s.chip.session idx).host = 3) ∧ dGranted
      (s.chip.session idx).dev ≠ 0) :=
  ⟨⟨st base, qs, List.replicate 32 255, _, _, _, by decide +kernel, takenBytes (by decide +kernel)⟩,
   ⟨st (puts base [(0x6210, 1, 1), (0x6210, 3, 1)]), qs, _, _, _, taken (by decide +kernel), by decide +kernel⟩,
   ⟨st base, qs, [128, 5, 1, 0] ++ List.replicate 36 1, _, _, _, by decide +kernel, takenBytes (by decide +kernel)⟩,
   ⟨st (onRing (manned (withSess peerMac 0)) 7 0 fDelayReq (some [5])), 7, rxw fDelayReq [5], sess peerMac 0,
     by decide +kernel⟩,
   ⟨st (onRing (puts (manned (withSess 0x011B19000000 (2 ^ 249))) [(0x6001, 1, 1)]) 7 0 fGroupReq (some [5])), 7, rxw
     fGroupReq [5], sess 0x011B19000000 (2 ^ 249), by decide +kernel⟩,
   ⟨st (onRing ((puts (manned (withSess 0x011B19000000 (2 ^ 249))) [(0x6001, 1, 1)]).modPort 7 fun x =>
     { x with tx := [[], List.replicate (base.txSlots 7 1) txd, []] }) 7 0 fGroupReq (some [5])), 7, rxw fGroupReq
     [5], sess 0x011B19000000 (2 ^ 249), by decide +kernel⟩,
   ⟨st (onRing (manned (withSess peerMac 0)) 7 1 fAsk (some [5])), 7, rxw fAsk [5], sess peerMac 0, ⟨0, 0, 256⟩, 7,
     by decide +kernel⟩,
   ⟨st (onRing (manned (withSess peerMac (128 * 2 ^ 240))) 7 1 fCancel (some [5])), 7, rxw fCancel [5], sess peerMac
     (128 * 2 ^ 240), by decide +kernel⟩,
   ⟨st (withSess peerMac (2 ^ 247)), 3, by decide +kernel⟩⟩

theorem witness_ServosExchangeMessages :
    (∃ (s : State) (k : Fin 4) (p : Nat) (f : RxDesc), oServosExchangeMessages_kept s.chip ∧ (s.chip.servoFind k.val 1
      tyAnnounce (fun _ => true)).1 = some (p, f) ∧ be16 (ptpOf f.bytes) 61 < 255 ∧ msgSource (ptpOf f.bytes) / 65536
      ≠ s.chip.rd 0x6200 1 ∧ s.chip.time.mono < s.chip.announceUntil k.val (ptpOf f.bytes)) ∧
    (∃ (s : State) (k : Fin 4) (p : Nat) (f : RxDesc), oServosExchangeMessages_kept s.chip ∧ s.chip.cands.length = 28
      ∧ (s.chip.servoFind k.val 0 tySync (fun _ => true)).1 = some (p, f) ∧ s.chip.fromMaster k.val p f = true) ∧
    (∃ (s : State) (k : Fin 4) (p : Nat) (f : RxDesc), oServosExchangeMessages_kept s.chip ∧ s.chip.cands.length = 28
      ∧ (s.chip.servoFind k.val 0 tySync (fun _ => true)).1 = some (p, f) ∧ s.chip.fromMaster k.val p f = true) ∧
    (∃ (s : State) (k : Fin 4) (p : Nat) (f : RxDesc) (x : SyncRec), oServosExchangeMessages_kept s.chip ∧
      (s.chip.servoFind k.val 1 tyFollowUp (fun _ => true)).1 = some (p, f) ∧ s.chip.fromMaster k.val p f = true ∧
      (s.chip.servo k.val).sync = some x ∧ x.seq = msgSeq (ptpOf f.bytes) ∧ x.t1 = none) ∧
    (∃ (s : State) (k : Fin 4) (p : Nat) (f : RxDesc) (x : DelayRec) (t1 t3 : Int), oServosExchangeMessages_kept
      s.chip ∧ (s.chip.servoFind k.val 1 tyDelayResp (fun _ => true)).1 = some (p, f) ∧ s.chip.fromMaster k.val p f =
      true ∧ beN (ptpOf f.bytes) 44 10 = s.chip.portIdent p ∧ (s.chip.servo k.val).delay = some x ∧ x.seq = msgSeq
      (ptpOf f.bytes) ∧ x.pair.t1 = some t1 ∧ x.t3 = some t3) ∧
    (∃ (s : State) (k : Fin 4) (x : Master) (z : SyncRec) (_ : TxDesc), oServosExchangeMessages_kept s.chip ∧
      s.chip.servoWorks k.val = true ∧ s.chip.shedding = false ∧ s.chip.delayDue k.val = true ∧ s.chip.master k.val =
      some x ∧ s.chip.servoTrick k.val x.port = false ∧ (s.chip.servo k.val).sync = some z) ∧
    (∃ (s : State) (k : Fin 4) (id : Nat), oServosExchangeMessages_kept s.chip ∧ (s.chip.servo k.val).selected = some
      id) ∧
    (∃ (s : State) (k : Fin 4) (p : Nat) (a : Party) (_ : TxDesc), oServosExchangeMessages_kept s.chip ∧
      s.chip.servoWorks k.val = true ∧ s.chip.shedding = false ∧ s.chip.servoOn k.val = true ∧ s.chip.profileOf
      (s.chip.servoInst k.val) = 4 ∧ s.chip.masterEntry k.val 0 = some (p, a) ∧ (∀ i, 1 ≤ i → i < 4 →
      s.chip.masterEntry k.val i = none) ∧ s.chip.servoListens k.val p = true) ∧
    (∃ (s : State) (k : Fin 4) (p ty n : Nat) (f : RxDesc), oServosExchangeMessages_kept s.chip ∧ s.chip.shedding =
      false ∧ s.chip.servoOn k.val = true ∧ (s.chip.servoFind k.val 1 tySignaling (signalWith 5)).1 = some (p, f) ∧
      ((tlvs (ptpOf f.bytes)).filter (fun t => t.1 == 5 && t.2.1 == 8)).map (fun t => (byteAt t.2.2 0 / 16, beN t.2.2
      2 4)) = [(ty, n)]) ∧
    (∃ (s : State) (k : Fin 4) (p ty n : Nat) (f : RxDesc), oServosExchangeMessages_kept s.chip ∧ s.chip.shedding =
      false ∧ s.chip.servoOn k.val = true ∧ (s.chip.servoFind k.val 1 tySignaling (signalWith 5)).1 = some (p, f) ∧
      ((tlvs (ptpOf f.bytes)).filter (fun t => t.1 == 5 && t.2.1 == 8)).map (fun t => (byteAt t.2.2 0 / 16, beN t.2.2
      2 4)) = [(ty, n)]) :=
  ⟨⟨st (onRing (manned svc) 7 1 fAnnounce (some [3])), 3, 7, rxw fAnnounce [3], by decide +kernel⟩,
   ⟨st (onRing (manned (withMaster id)) 7 0 (fSync 0) (some [3])), 3, 7, rxw (fSync 0) [3], by decide +kernel⟩,
   ⟨st (onRing (manned (withMaster id)) 7 0 (fSync 512) (some [3])), 3, 7, rxw (fSync 512) [3], by decide +kernel⟩,
   ⟨st (onRing (manned (withMaster fun x => { x with sync := some ⟨9, none, 4, 4, false⟩ })) 7 1 fFollow (some [3])),
     3, 7, rxw fFollow [3], ⟨9, none, 4, 4, false⟩, by decide +kernel⟩,
   ⟨st (onRing (manned (withMaster fun x =>
     { x with delay := some ⟨9, some 3, ⟨8, some 2, 1, 1, true⟩, none, false⟩ })) 7 1 fDelayResp (some [3])), 3, 7,
     rxw fDelayResp [3], ⟨9, some 3, ⟨8, some 2, 1, 1, true⟩, none, false⟩, 2, 3, by decide +kernel⟩,
   ⟨st atDelay, 3, mst, ⟨9, some 0, 0, 0, false⟩, (atDelay.servoFrame 3 mst tyDelayReq 1 (List.replicate 10 0) [] ⟨0,
     0, true, 1, 1, none, false⟩).getD default, by decide +kernel⟩,
   ⟨st (withMaster id), 3, 5, by decide +kernel⟩,
   ⟨st atGrants, 3, 7, ⟨0, peerMac, 0, 0⟩, (atGrants.servoFrame 3 ⟨0, 7, 0, 0, 0, 0, 0, 0, peerMac, 0, 0, 0⟩
     tySignaling 1 (toBytes 10 (2 ^ 80 - 1)) (([0, 4, 0, 6, tyAnnounce * 16, atGrants.rd 0x6223 4] ++ toBytes 4
     (atGrants.rd 0x6223 6)) ++ ([0, 4, 0, 6, tySync * 16, atGrants.rd 0x6223 4] ++ toBytes 4 (atGrants.rd 0x6223 6))
     ++ ([0, 4, 0, 6, tyDelayResp * 16, atGrants.rd 0x6223 5] ++ toBytes 4 (atGrants.rd 0x6223 6))) plainSend).getD
     default, by decide +kernel, by decide +kernel, by decide +kernel, by decide +kernel, by decide +kernel,
     by decide +kernel,
     (by intro i h1 h2; rcases (show i = 1 ∨ i = 2 ∨ i = 3 by omega) with rfl | rfl | rfl <;> decide +kernel),
     by decide +kernel⟩,
   ⟨st (onRing (manned svc) 7 1 (fGrant 1) (some [3])), 3, 7, 1, 256, rxw (fGrant 1) [3], by decide +kernel⟩,
   ⟨st (onRing (manned (svc.modServo 3 fun x => { x with granted := [(1, 5), (2, 6)] })) 7 1 (fGrant 0) (some [3])),
     3, 7, 1, 0, rxw (fGrant 0) [3], by decide +kernel⟩⟩

theorem witness_NeighboursAreServed :
    (∃ (s : State) (p : Fin 8) (x : Pdelay) (f : RxDesc) (t1 : Int), s.chip.engineRuns = true ∧ (s.chip.port
      p.val).pdelay = some x ∧ x.resp = none ∧ x.t1 = some t1 ∧ s.chip.rxRing p.val 0 = [f] ∧ f.want = some
      [useSession] ∧ msgSeq (ptpOf f.bytes) = x.seq ∧ beN (ptpOf f.bytes) 44 10 = s.chip.portIdent p.val ∧ msgType
      (ptpOf f.bytes) = tyPdelayResp ∧ s.chip.ports.length = 8 ∧ msgTwoStep (ptpOf f.bytes) = false) ∧
    (∃ (s : State) (p : Fin 8) (x : Pdelay) (f : RxDesc) (t1 : Int), s.chip.engineRuns = true ∧ (s.chip.port
      p.val).pdelay = some x ∧ x.resp = none ∧ x.t1 = some t1 ∧ s.chip.rxRing p.val 0 = [f] ∧ f.want = some
      [useSession] ∧ msgSeq (ptpOf f.bytes) = x.seq ∧ beN (ptpOf f.bytes) 44 10 = s.chip.portIdent p.val ∧ msgType
      (ptpOf f.bytes) = tyPdelayResp ∧ s.chip.ports.length = 8 ∧ msgTwoStep (ptpOf f.bytes) = true) ∧
    (∃ (s : State) (p o : Fin 8) (i : Nat) (f : RxDesc), oNeighboursAreServed_tc s.chip p o i f ∧ s.chip.rxRing p.val
      0 = [f] ∧ isEvent (msgType (ptpOf f.bytes)) = true) ∧
    (∃ (s : State) (p o : Fin 8) (i : Nat) (f : RxDesc), oNeighboursAreServed_tc s.chip p o i f ∧ s.chip.rxRing p.val
      0 = [f] ∧ isEvent (msgType (ptpOf f.bytes)) = true) ∧
    (∃ (s : State) (p o : Fin 8) (i : Nat) (f : RxDesc), oNeighboursAreServed_tc s.chip p o i f ∧ s.chip.rxRing p.val
      0 = [f] ∧ isEvent (msgType (ptpOf f.bytes)) = true ∧ s.chip.p2p i = true) ∧
    (∃ (s : State) (p o : Fin 8) (i r : Nat) (f : RxDesc) (h : Held), oNeighboursAreServed_tc s.chip p o i f ∧
      s.chip.rxRing p.val 0 = [] ∧ s.chip.rxRing p.val 1 = [f] ∧ msgType (ptpOf f.bytes) = tyFollowUp ∧
      s.chip.residenceDue p.val i (ptpOf f.bytes) = false ∧ s.chip.sess.held = [h] ∧ h.port = p.val ∧ h.source =
      msgSource (ptpOf f.bytes) ∧ h.seq = msgSeq (ptpOf f.bytes) ∧ h.residence = [(o.val, r)]) ∧
    (∃ (s : State) (p : Fin 8) (f : RxDesc) (t : List RxDesc), s.chip.lastRuns = true ∧ s.chip.rxRing p.val 2 = f :: t
      ∧ s.chip.ports.length = 8 ∧ s.chip.cands.length = 28) ∧
    (∃ (s : State) (p : Fin 8) (f : RxDesc) (t : List RxDesc), s.chip.lastRuns = true ∧ s.chip.rxRing p.val 2 = f :: t
      ∧ s.chip.ports.length = 8 ∧ s.chip.cands.length = 28 ∧ esmcCodes (esmcPayload f.bytes) (s.chip.rdb 0x6300 2 0) =
      none) ∧
    (∃ (s : State) (p : Fin 8), (s.chip.cand (16 + p.val)).ql ≠ some (15, 0xFF00) ∧ s.chip.cands.length = 28) ∧
    (∃ (s : State) (p : Fin 8) (event : Bool), s.chip.lastRuns = true ∧ s.chip.rdb (0x6308 + p.val) 1 0 = true ∧
      s.chip.up p.val = true ∧ s.chip.ports.length = 8 ∧ (s.chip.port p.val).tx.length = 3 ∧ ((s.chip.port
      p.val).esmcSent.filter (fun t => s.chip.time.mono < t + nsUnit * 1000000000)).length < 10 ∧ (event = true →
      (s.chip.port p.val).esmcChanged = true ∧ s.chip.shedding = false)) ∧
    (∃ (s : State) (p : Fin 8) (event : Bool), s.chip.lastRuns = true ∧ s.chip.rdb (0x6308 + p.val) 1 0 = true ∧
      s.chip.up p.val = true ∧ s.chip.ports.length = 8 ∧ (s.chip.port p.val).tx.length = 3 ∧ ((s.chip.port
      p.val).esmcSent.filter (fun t => s.chip.time.mono < t + nsUnit * 1000000000)).length < 10 ∧ (event = true →
      (s.chip.port p.val).esmcChanged = true ∧ s.chip.shedding = false)) :=
  ⟨⟨st (onRing (manned (svc.modPort 7 fun x => { x with pdelay := some ⟨9, some 4, none, true⟩ })) 7 0 (fPdelay 0)
     (some [5])), 7, ⟨9, some 4, none, true⟩, rxw (fPdelay 0) [5], 4, by decide +kernel⟩,
   ⟨st (onRing (manned (svc.modPort 7 fun x => { x with pdelay := some ⟨9, some 4, none, false⟩ })) 7 0 (fPdelay 512)
     (some [5])), 7, ⟨9, some 4, none, false⟩, rxw (fPdelay 512) [5], 4, by decide +kernel⟩,
   ⟨st (onRing (atTc []) 7 0 (fSync 0) (some [4])), 7, 6, 0, rxw (fSync 0) [4], by decide +kernel⟩,
   ⟨st (onRing (atTc []) 7 0 (fSync 512) (some [4])), 7, 6, 0, rxw (fSync 512) [4], by decide +kernel⟩,
   ⟨st (onRing ((atTc [(0x6210, 1, 2)]).modPort 7 fun x => { x with peerDelay := some (1001 / 2) }) 7 0 (fSync 0)
     (some [4])), 7, 6, 0, rxw (fSync 0) [4], by decide +kernel⟩,
   ⟨st
     { onRing (atTc []) 7 1 fFollow (some [4]) with sess := { (atTc []).sess with held := [⟨7, 5, 9, [(6, 300)], 0⟩] } },
     7, 6, 0, 300, rxw fFollow [4], ⟨7, 5, 9, [(6, 300)], 0⟩, by decide +kernel⟩,
   ⟨st (onRing (manned svc) 7 2 fEsmc), 7, rxd fEsmc, [], by decide +kernel⟩,
   ⟨st (onRing (manned svc) 7 2 [0]), 7, rxd [0], [], by decide +kernel⟩,
   ⟨st base, 7, by decide +kernel⟩,
   ⟨st ((puts (manned svc) [(0x630F, 1, 1)]).modPort 7 fun x => { x with esmcChanged := true }), 7, true,
     by decide +kernel⟩,
   ⟨st (puts (manned base) [(0x5017, 1, 1), (0x630F, 1, 1)]), 7, false, by decide +kernel⟩⟩

theorem witness_NvProgramsEnd :
    (∃ (s : State) (p : NvProg), s.chip.nv.prog = some p) ∧
    (∃ (s : State) (p : NvProg), s.chip.nv.prog = some p ∧ p.attempt < 3) ∧
    (∃ (s : State) (p : NvProg), s.chip.nv.prog = some p ∧ 3 ≤ p.attempt) ∧
    (∃ (s : State) (_ : Fin 4096), s.chip.nv.prog = none ∧ s.chip.nv.flushing = false ∧ s.chip.nv.sealCards = [] ∧
      s.chip.nv.cards = [] ∧ s.chip.nv.queue = [] ∧ s.chip.nv.weak = []) ∧
    (∃ (s : State) (page : Fin 4096), s.chip.nv.prog.isSome = true ∧ page.val ∉ s.chip.nv.weak) :=
  ⟨⟨st { base with nv := { base.nv with prog := some ⟨0, [(0, 0), (255, 263)], 1, .refresh⟩ } }, ⟨0, [(0, 0), (255,
     263)], 1, .refresh⟩, by decide +kernel⟩,
   ⟨st { base with nv := { base.nv with prog := some ⟨4095, [(255, 7)], 2, .refresh⟩ } }, ⟨4095, [(255, 7)], 2,
     .refresh⟩, by decide +kernel⟩,
   ⟨st { base with nv := { base.nv with prog := some ⟨4095, [(255, 7)], 3, .refresh⟩ } }, ⟨4095, [(255, 7)], 3,
     .refresh⟩, by decide +kernel⟩,
   ⟨st base, 4095, by decide +kernel⟩,
   ⟨st { base with nv := { base.nv with weak := [7], prog := some ⟨4095, [(255, 7)], 2, .refresh⟩ } }, 4095,
     by decide +kernel⟩⟩

theorem witness_RecordsAndCardsAreWritten :
    (∃ (s : State), s.chip.rdb 0x8010 3 0 = true ∧ s.chip.nv.storing = none ∧ s.chip.nv.flushing = false ∧
      s.chip.start.storeOff = false) ∧
    (∃ (s : State) (q : Envelope) (n : Option Nat) (r : Row) (e : Chip), s.chip.WriteTaken q 0x8010 4 1 n r e) ∧
    (∃ (s : State) (q : Envelope) (n : Option Nat) (r : Row) (e : Chip), s.chip.WriteTaken q 0x8010 4 1 n r e) ∧
    (∃ (s : State) (q : Envelope) (n : Option Nat) (r : Row) (e : Chip), s.chip.WriteTaken q 0x8010 4 1 n r e) ∧
    (∃ (s : State), s.chip.nv.prog = none ∧ s.chip.nv.flushing = false ∧ s.chip.nv.sealCards = [] ∧ s.chip.nv.sealing
      = false ∧ s.chip.nv.cards ≠ [] ∧ s.chip.nv.scanned = true ∧ s.chip.overwritten = []) ∧
    (∃ (s : State), s.chip.nv.prog = none ∧ s.chip.nv.flushing = false ∧ s.chip.nv.sealCards = [] ∧ s.chip.nv.sealing
      = false ∧ s.chip.nv.cards ≠ [] ∧ s.chip.nv.scanned = true ∧ s.chip.overwritten = []) ∧
    (∃ (s : State), s.chip.nv.minute.suppressed = 0 ∧ s.chip.nv.ended = none) ∧
    (∃ (s : State), s.chip.nv.minute.suppressed = 0 ∧ s.chip.nv.ended = none) ∧
    (∃ (s : State) (h : List Nat) (key : Nat), s.chip.nv.sealing = true ∧ s.chip.nv.head = some h ∧
      s.chip.sec.identity = some key) ∧
    (∃ (s : State), s.chip.nv.sealing = true) ∧
    (∃ (s : State) (q : Envelope) (seq : Nat) (n : Option Nat) (r : Row) (e : Chip), s.chip.WriteTaken q 0x8102 1 seq
      n r e) ∧
    (∃ (s : State) (q : Envelope) (n : Option Nat) (d : Chip), s.chip.ReadTaken q 0x8101 3 n d) ∧
    (∃ (s : State) (m : Minute) (cand : Nat), s.chip.nv.ended = some (m, cand) ∧ m.suppressed = 0) :=
  ⟨⟨on [(0x8010, 3, 1)], by decide +kernel⟩,
   ⟨st base, qs, _, _, _, taken (by decide +kernel)⟩,
   ⟨st { base with nv := { base.nv with flushing := true } }, qs, _, _, _, taken (by decide +kernel)⟩,
   ⟨st { base with nv := { base.nv with storing := some (0, 5), storedAfter := true } }, qs, _, _, _, taken
     (by decide +kernel)⟩,
   ⟨st { base with nv := { base.nv with scanned := true, cards := [⟨1, 5⟩, ⟨2, 6⟩], slot := 7 } }, by decide +kernel⟩,
   ⟨st
     { puts base [(0x8100, 6, 63)] with nv := { base.nv with scanned := true, cards := [⟨1, 5⟩, ⟨2, 6⟩], seq := 2 ^ 32 - 1 } },
     by decide +kernel⟩,
   ⟨st base, by decide +kernel⟩,
   ⟨st
     { puts base [(0x3010, 3, 27)] with nv := { base.nv with minute := { base.nv.minute with events := 3, worst := some 7, locked := 60 } }, time := { base.time with seconds := 120 } },
     by decide +kernel⟩,
   ⟨st
     { base with nv := { base.nv with sealing := true, head := some [1, 2, 3, 4, 5] }, sec := { base.sec with identity := some 3 } },
     [1, 2, 3, 4, 5], 3, by decide +kernel⟩,
   ⟨st { base with nv := { base.nv with sealing := true } }, by decide +kernel⟩,
   ⟨st { puts base [(0x8100, 2, 7)] with nv := { base.nv with ring := [(0, 5, 1), (1, 6, 1)] } }, qs, 5, _, _, _,
     taken (by decide +kernel)⟩,
   ⟨st
     { puts base [(0x8101, 1, 6), (0x8101, 2, 1)] with nv := { base.nv with ring := [(0, 5, 1), (1, 6, 1), (2, 7, 1)] } },
     qs, _, _, readTaken (by decide +kernel)⟩,
   ⟨st { base with nv := { base.nv with ended := some ({ (default : Minute) with locked := 60 }, 3) } },
     { (default : Minute) with locked := 60 }, 3, by decide +kernel⟩⟩

theorem witness_RequestsAreExecuted :
    (∃ (s : State) (q : Envelope) (idx sub : Nat) (data : List Nat) (n : Option Nat) (r : Row) (e : Chip),
      s.chip.BytesTaken q idx sub data n r e) ∧
    (∃ (s : State) (q : Envelope) (idx sub : Nat) (n : Option Nat) (d : Chip), s.chip.ReadTaken q idx sub n d) ∧
    (∃ (s : State) (q : Envelope) (idx sub code : Nat) (n : Option Nat) (a : Asker) (d : Chip), s.chip.Served q (.read
      idx sub) n a d ∧ d.readRefusal a idx sub true = some code) ∧
    (∃ (s : State) (q : Envelope) (idx sub : Nat) (data : List Nat) (n : Option Nat) (r : Row) (d e : Chip), idx ≠
      0x8020 ∧ s.chip.BytesTaken q idx sub data n r d ∧ (∀ x, d.putValue x r idx sub data = .done e)) ∧
    (∃ (s : State) (q : Envelope) (idx sub v : Nat) (n : Option Nat) (r : Row) (e : Chip), s.chip.WriteTaken q idx sub
      v n r e ∧ 1 ≤ sub ∧ ¬ (0x6008 ≤ idx ∧ idx < 0x6010) ∧ idx ≠ 0x6100 ∧ idx ≠ 0xB100 ∧ idx ≠ 0x1030 ∧ idx ≠ 0x8020
      ∧ secDefers idx sub v = false ∧ e.putOwn idx sub v = none ∧ (r.acc = .rw ∨ r.acc = .rws)) ∧
    (∃ (s : State) (q : Envelope) (idx sub v : Nat) (n : Option Nat) (r : Row) (e : Chip), s.chip.WriteTaken q idx sub
      v n r e ∧ 1 ≤ sub ∧ ¬ (0x6008 ≤ idx ∧ idx < 0x6010) ∧ idx ≠ 0x6100 ∧ idx ≠ 0xB100 ∧ idx ≠ 0x1030 ∧ idx ≠ 0x8020
      ∧ secDefers idx sub v = false ∧ e.putOwn idx sub v = none ∧ (r.acc = .rwd ∨ r.acc = .rwn) ∧ v ≠ e.rd idx sub) ∧
    (∃ (s : State) (q : Envelope) (idx sub ty code : Nat) (data : List Nat) (n : Option Nat) (a : Asker) (d : Chip),
      idx ≠ 0x8020 ∧ s.chip.Served q (.write idx sub ty data) n a d ∧ d.writeForm a idx sub ty data true = .error
      code) ∧
    (∃ (s : State) (q : Envelope) (l : List (Nat × Nat)) (n : Option Nat) (a : Asker) (d : Chip), s.chip.Served q
      (.multiRead l) n a d ∧ 8 + (if q.auth.isSome then 24 else 0) + 2 + (d.readItems a l).1.length ≤ 1400) ∧
    (∃ (s : State) (q : Envelope) (idx sub : Nat) (n : Option Nat) (a : Asker) (d : Chip), s.chip.Served q
      (.segReadInit idx sub) n a d ∧ d.readRefusal a idx sub false = none ∧ d.transfersFull (askedOf q) = false) ∧
    (∃ (s : State) (q : Envelope) (token seg m : Nat) (n : Option Nat) (a : Asker) (d : Chip) (t : Transfer),
      s.chip.Served q (.segReadNext token seg m) n a d ∧ d.transferOf (askedOf q) token false = some t ∧ t.next = seg) ∧
    (∃ (s : State) (q : Envelope) (token seg m : Nat) (n : Option Nat) (a : Asker) (d : Chip) (t : Transfer),
      s.chip.Served q (.segReadNext token seg m) n a d ∧ d.transferOf (askedOf q) token false = some t ∧ t.next = seg) ∧
    (∃ (s : State) (q : Envelope) (idx sub ty total : Nat) (n : Option Nat) (a : Asker) (d : Chip) (r : Row),
      s.chip.Served q (.segWriteInit idx sub ty total) n a d ∧ d.grade.rule idx sub = some r ∧ r.acc ≠ .const ∧ r.acc
      ≠ .ro ∧ d.writeRole a idx sub 0 r ≤ d.effRole a.role ∧ d.outOfPower idx sub r true = false ∧ total ≤ 1048576 ∧
      (r.var = true → total ≤ r.len) ∧ (r.var = false → total = r.bytes) ∧ d.transfersFull (askedOf q) = false) ∧
    (∃ (s : State) (q : Envelope) (token seg : Nat) (data : List Nat) (n : Option Nat) (a : Asker) (d : Chip) (t :
      Transfer), s.chip.Served q (.segWriteNext token false seg data) n a d ∧ d.transferOf (askedOf q) token true =
      some t ∧ t.next = seg ∧ data.length ≤ 1024 ∧ t.data.length + data.length ≤ t.total) ∧
    (∃ (s : State) (q : Envelope) (token seg : Nat) (data : List Nat) (n : Option Nat) (a : Asker) (d e : Chip) (t :
      Transfer), s.chip.Served q (.segWriteNext token true seg data) n a d ∧ d.transferOf (askedOf q) token true =
      some t ∧ t.next = seg ∧ data.length ≤ 1024 ∧ t.data.length + data.length = t.total ∧ (∀ x, (d.transferClose
      token).writeAny a x t.idx t.sub t.ty (t.data ++ data) false = .done e)) ∧
    (∃ (s : State) (q : Envelope) (idx sub token info : Nat) (n : Option Nat) (a : Asker) (d : Chip) (t : Transfer),
      s.chip.Served q (.abort idx sub token 0x06050007 info) n a d ∧ t ∈ d.tpp.transfers ∧ t.token = token ∧ t.who =
      askedOf q) :=
  ⟨⟨st base, qs, 0x2000, 2, bytesAt base 0x2000 2 2000, _, _, _, takenBytes (by decide +kernel)⟩,
   ⟨st base, qs, 0x2000, 2, _, _, readTaken (by decide +kernel)⟩,
   ⟨st base, qs, 0x1202, 1, writeOnly, _, _, _, served (by decide +kernel), by decide +kernel⟩,
   ⟨st base, qs, 0x2000, 8, [0, 5], _, _, _, doneOf ((devB base qs 0x2000 8 [0, 5]).putValue none (rowAt base 0x2000
     8) 0x2000 8 [0, 5]), by decide +kernel, takenBytes (by decide +kernel), (fun _ => rfl)⟩,
   ⟨st base, qs, 0x8102, 2, 100, _, _, _, taken (by decide +kernel), by decide +kernel, by decide +kernel,
     by decide +kernel, by decide +kernel, by decide +kernel, by decide +kernel, by decide +kernel, by decide +kernel,
     by decide +kernel⟩,
   ⟨st base, qs, 0x6000, 5, 5000, _, _, _, taken (by decide +kernel), by decide +kernel, by decide +kernel,
     by decide +kernel, by decide +kernel, by decide +kernel, by decide +kernel, by decide +kernel, by decide +kernel,
     by decide +kernel, by decide +kernel⟩,
   ⟨st base, qs, 0x1030, 1, 5, readOnly, [0], _, _, _, by decide +kernel, served (by decide +kernel), isError
     (by decide +kernel)⟩,
   ⟨st base, qs, [(0x1030, 1), (0xFFFF, 0)], _, _, _, served (by decide +kernel), by decide +kernel⟩,
   ⟨st base, qs, 0x2000, 2, _, _, _, served (by decide +kernel), by decide +kernel, by decide +kernel⟩,
   ⟨st (withTransfer rdT), qs, 7, 2, 3, _, _, _, rdT, served (by decide +kernel), by decide +kernel,
     by decide +kernel⟩,
   ⟨st (withTransfer rdT), qs, 7, 2, 300, _, _, _, rdT, served (by decide +kernel), by decide +kernel,
     by decide +kernel⟩,
   ⟨st base, qs, 0x2000, 1, 1, 1, _, _, _, rowAt base 0x2000 1, served (by decide +kernel), by decide +kernel⟩,
   ⟨st (withTransfer wrT), qs, 7, 1, [5], _, _, _, wrT, served (by decide +kernel), by decide +kernel,
     by decide +kernel, by decide +kernel, by decide +kernel⟩,
   ⟨st (withTransfer wrT), qs, 7, 1, [0, 0, 0, 0, 0, 3, 232], _, _, _, doneOf (((devOf (withTransfer wrT) qs
     (.segWriteNext 7 true 1 ([0, 0, 0, 0, 0, 3, 232]))).transferClose 7).writeAny (askerOf (withTransfer wrT) qs
     (.segWriteNext 7 true 1 ([0, 0, 0, 0, 0, 3, 232]))) none 0x2000 2 wrT.ty (wrT.data ++ [0, 0, 0, 0, 0, 3, 232])
     false), wrT, served (by decide +kernel), by decide +kernel, by decide +kernel, by decide +kernel,
     by decide +kernel, (fun x => (askFree _ _ x _ _ _).trans (isDone (by decide +kernel)))⟩,
   ⟨st (withTransfer rdT), qs, 0x2000, 2, 7, 5, _, _, _, rdT, served (by decide +kernel), by decide +kernel⟩⟩

theorem witness_TransfersAndQspiPort :
    (∃ (s : State) (q : Envelope) (idx : Nat) (n : Option Nat) (r : Row) (e : Chip), s.chip.WriteTaken q idx 0 0 n r
      e) ∧
    (∃ (s : State) (q : Envelope) (idx : Nat) (n : Option Nat) (r : Row) (e : Chip), s.chip.WriteTaken q idx 0 0 n r
      e) ∧
    (∃ (s : State) (q : Envelope) (a : Fin 2) (n : Option Nat) (d : Chip), s.chip.ReadTaken q (0x2168 + a.val) 2 n d) ∧
    (∃ (s : State) (q : Envelope) (n : Option Nat) (d : Chip), s.chip.ReadTaken q 0x2171 1 n d) ∧
    (∃ (s : State) (q : Envelope) (n : Option Nat) (d : Chip), s.chip.ReadTaken q 0x2171 1 n d) ∧
    (∃ (s : State) (b : List Nat), s.chip.qspiUp = true ∧ s.chip.tpp.ready = true ∧ s.chip.tpp.inbox.length < 4 ∧
      b.length ≤ 1400) ∧
    (∃ (s : State) (_ : List Nat), s.chip.qspiUp = true ∧ (s.chip.tpp.ready = false ∨ 4 ≤ s.chip.tpp.inbox.length)) ∧
    (∃ (s : State) (_ : List Nat), s.chip.qspiUp = true ∧ (s.chip.tpp.ready = false ∨ 4 ≤ s.chip.tpp.inbox.length)) ∧
    (∃ (s : State) (len : Nat) (b : List Nat) (mid : Bool), s.chip.qspiUp = true ∧ (mid = true ∨ len ≠ b.length)) ∧
    (∃ (s : State) (len : Nat) (b : List Nat) (mid : Bool), s.chip.qspiUp = true ∧ (mid = true ∨ len ≠ b.length)) ∧
    (∃ (s : State) (b : List Nat) (t : List (List Nat)), s.chip.qspiUp = true ∧ s.chip.tpp.outbox = b :: t) ∧
    (∃ (s : State), s.chip.qspiUp = true ∧ s.chip.tpp.outbox = []) ∧
    (∃ (s : State), s.chip.qspiUp = true) ∧
    (∃ (s : State) (_ : Nat), s.chip.qspiUp = true) :=
  ⟨⟨on [(0x5027, 3, 8)], qs, 0x5027, _, _, _, taken (by decide +kernel)⟩,
   ⟨on [(0x6027, 3, 8), (0x6027, 0x20, 9)], qs, 0x6027, _, _, _, taken (by decide +kernel)⟩,
   ⟨on [(0x2169, 1, 136), (0x2169, 2, 7)], qs, 1, _, _, readTaken (by decide +kernel)⟩,
   ⟨st base, qs, _, _, readTaken (by decide +kernel)⟩,
   ⟨st { base with tdc := { base.tdc with fifo := [5, 6] } }, qs, _, _, readTaken (by decide +kernel)⟩,
   ⟨st { base with tpp := { base.tpp with inbox := [[], [], []] } }, List.replicate 1400 7, by decide +kernel⟩,
   ⟨st { base with tpp := { base.tpp with ready := false } }, [], by decide +kernel⟩,
   ⟨st { base with tpp := { base.tpp with inbox := [[], [], [], []] } }, [1], by decide +kernel⟩,
   ⟨st base, 3, [1, 2, 3], true, by decide +kernel⟩,
   ⟨st base, 3, [1, 2], false, by decide +kernel⟩,
   ⟨st { base with tpp := { base.tpp with outbox := [[1, 2], [3]] } }, [1, 2], [[3]], by decide +kernel⟩,
   ⟨st base, by decide +kernel⟩,
   ⟨st { base with tpp := { base.tpp with outbox := [[1, 2], [3]], overrun := true } }, by decide +kernel⟩,
   ⟨st { base with tpp := { base.tpp with overrun := true, framing := true } }, 0x20, by decide +kernel⟩⟩

theorem witness_SecurityChangesAreRecorded :
    (∃ (s : State) (q : Envelope) (m : Fin 32) (sub v : Nat) (n : Option Nat) (r : Row) (e : Chip), 1 ≤ sub ∧ sub ≤ 3
      ∧ s.chip.WriteTaken q (0x1110 + m.val) sub v n r e) ∧
    (∃ (s : State) (q : Envelope) (m : Fin 32) (sub v : Nat) (n : Option Nat) (r : Row) (e : Chip), 1 ≤ sub ∧ sub ≤ 3
      ∧ s.chip.WriteTaken q (0x1110 + m.val) sub v n r e) ∧
    (∃ (s : State) (q : Envelope) (m : Fin 32) (key : List Nat) (n : Option Nat) (r : Row) (e : Chip), r.var = false ∧
      s.chip.BytesTaken q (0x1110 + m.val) 3 key n r e) ∧
    (∃ (s : State) (m : Fin 32), s.chip.tpp.peers.length = 32 ∧ (s.chip.peer m.val).txDue = true ∧ (s.chip.peer
      m.val).rxDue = true) ∧
    (∃ (c : Chip) (_ : Fin 32) (_ : Nat), c.tpp.peers.length = 32 ∧ c.sec.peerKeys.length = 32 ∧ c.rdb 0xB000 3 2 =
      false) ∧
    (∃ (s : State) (q : Envelope) (n : Option Nat) (r : Row) (e : Chip), s.chip.WriteTaken q 0xB000 2 0x01434F4E n r
      e) ∧
    (∃ (s : State) (q : Envelope) (n : Option Nat) (r : Row) (e : Chip), s.chip.WriteTaken q 0xB000 2 0x02434F4E n r
      e) ∧
    (∃ (s : State) (q : Envelope) (n : Option Nat) (r : Row) (e : Chip), s.chip.WriteTaken q 0xB000 2 0x03434F4E n r
      e) ∧
    (∃ (s : State) (q : Envelope) (n : Option Nat) (r : Row) (e : Chip), s.chip.WriteTaken q 0xB001 3 1 n r e) ∧
    (∃ (s : State) (q : Envelope) (key : List Nat) (n : Option Nat) (r : Row) (e : Chip), r.var = false ∧
      s.chip.BytesTaken q 0xB002 1 key n r e) ∧
    (∃ (s : State) (q : Envelope) (key : List Nat) (n : Option Nat) (r : Row) (e : Chip), r.var = false ∧
      s.chip.BytesTaken q 0xB002 3 key n r e) :=
  ⟨⟨st base, qs, 31, 1, 1, _, _, _, by decide +kernel, by decide +kernel, taken (by decide +kernel)⟩,
   ⟨st base, qs, 31, 2, 9, _, _, _, by decide +kernel, by decide +kernel, taken (by decide +kernel)⟩,
   ⟨st base, qs, 31, List.replicate 32 1, _, _, _, by decide +kernel, takenBytes (by decide +kernel)⟩,
   ⟨st (base.modPeer 31 fun p => { p with txDue := true, rxDue := true }), 31, by decide +kernel, by decide +kernel,
     by decide +kernel⟩,
   ⟨base, 31, 5, by decide +kernel, by decide +kernel, by decide +kernel⟩,
   ⟨st base, qs, _, _, _, taken (by decide +kernel)⟩,
   ⟨st { puts base [(0xB000, 1, 1)] with sec := { base.sec with fwKey := 9 } }, qs, _, _, _, taken
     (by decide +kernel)⟩,
   ⟨st base, qs, _, _, _, taken (by decide +kernel)⟩,
   ⟨on [(0xB000, 1, 1)], qs, _, _, _, taken (by decide +kernel)⟩,
   ⟨on [(0xB000, 1, 1)], qs, List.replicate 64 1, _, _, _, by decide +kernel, takenBytes (by decide +kernel)⟩,
   ⟨on [(0xB000, 1, 1)], qs, List.replicate 64 1, _, _, _, by decide +kernel, takenBytes (by decide +kernel)⟩⟩

theorem witness_TamperAndImageChecks :
    (∃ (s : State), s.chip.rdb 0xB004 3 0 = false ∧ s.chip.rdb 0xA001 2 4 = true ∧ s.chip.rd 0xB004 1 ≠ 0 ∧ s.chip.rdb
      0xB000 3 1 = false) ∧
    (∃ (s : State), s.chip.rdb 0xB004 3 0 = false ∧ s.chip.rdb 0xA001 2 4 = true ∧ s.chip.rd 0xB004 1 = 0) ∧
    (∃ (s : State), s.chip.rdb 0xA001 2 4 = true) ∧
    (∃ (s : State) (b : List Nat), 160 ≤ b.length ∧ s.chip.rd 0xB000 1 = 0) ∧
    (∃ (s : State) (b i : List Nat), s.chip.start.loading = true ∧ s.chip.loadImage b = some i) :=
  ⟨⟨on [(0xB004, 1, 1)], by decide +kernel, by decide +kernel, by decide +kernel, by decide +kernel⟩,
   ⟨on [(0xB004, 1, 0)], by decide +kernel, by decide +kernel, by decide +kernel⟩,
   ⟨on [(0xB004, 3, 1)], by decide +kernel⟩,
   ⟨st base, [7] ++ [0x53, 0x47, 2, 0, 0, 0, 0, 5, 0, 0, 0, 1] ++ List.replicate 148 0, by decide +kernel,
     by decide +kernel⟩,
   ⟨st (base.modStart fun u => { u with loading := true }), [0x49, 0x4C, 0x46, 0x57, 0, 0, 0, 1, 5], [5],
     by decide +kernel, by decide +kernel⟩⟩

theorem witness_DebugIsGranted :
    (∃ (s : State) (q : Envelope) (n : Option Nat) (d : Chip), s.chip.ReadTaken q 0xB100 4 n d) ∧
    (∃ (s : State) (q : Envelope) (n : Option Nat) (r : Row) (e : Chip), s.chip.WriteTaken q 0xB100 2 1 n r e) ∧
    (∃ (s : State) (q : Envelope) (n : Option Nat) (r : Row) (e : Chip), s.chip.WriteTaken q 0xB100 2 1 n r e) ∧
    (∃ (s : State) (q : Envelope) (n : Option Nat) (r : Row) (e : Chip), s.chip.WriteTaken q 0xB100 2 2 n r e) ∧
    (∃ (s : State) (q : Envelope) (n : Option Nat) (r : Row) (e : Chip), s.chip.WriteTaken q 0xB100 2 0 n r e) ∧
    (∃ (s : State) (q : Envelope) (n : Option Nat) (r : Row) (e : Chip), s.chip.WriteTaken q 0xB100 2 0 n r e) ∧
    (∃ (s : State) (q : Envelope) (sig : List Nat) (n : Option Nat) (r : Row) (e : Chip), r.var = false ∧
      s.chip.BytesTaken q 0xB100 5 sig n r e ∧ e.rd 0xB100 1 ≠ 2) ∧
    (∃ (s : State) (addr _ : Nat), s.chip.sec.jtag = .debugAccess ∧ s.chip.rd 0xB100 1 ≠ 0 ∧ addr < 2 ^ 32 ∧ 4 ∣ addr) ∧
    (∃ (s : State) (addr _ : Nat), s.chip.sec.jtag = .debugAccess ∧ s.chip.rd 0xB100 1 ≠ 0 ∧ addr < 2 ^ 32 ∧ 4 ∣ addr
      ∧ s.chip.rd 0xB100 1 = 2 ∧ s.chip.awake .fabric = true) ∧
    (∃ (s : State) (addr _ : Nat), s.chip.sec.jtag = .debugAccess ∧ s.chip.rd 0xB100 1 ≠ 0 ∧ addr < 2 ^ 32 ∧ 4 ∣ addr) ∧
    (∃ (s : State) (q : Envelope) (sig : List Nat) (n : Option Nat) (r : Row) (e : Chip), r.var = false ∧
      s.chip.BytesTaken q 0xB100 9 sig n r e) :=
  ⟨⟨st base, qs, _, _, readTaken (by decide +kernel)⟩,
   ⟨st base, qs, _, _, _, taken (by decide +kernel)⟩,
   ⟨on [(0xB100, 1, 2)], qs, _, _, _, taken (by decide +kernel)⟩,
   ⟨st base, qs, _, _, _, taken (by decide +kernel)⟩,
   ⟨on [(0xB100, 1, 2)], qs, _, _, _, taken (by decide +kernel)⟩,
   ⟨st base, qs, _, _, _, taken (by decide +kernel)⟩,
   ⟨st base, qs, List.replicate 64 1, _, _, _, by decide +kernel, takenBytes (by decide +kernel), by decide +kernel⟩,
   ⟨st { puts base [(0xB100, 1, 1)] with sec := { base.sec with jtag := .debugAccess } }, 0x10000, 0,
     by decide +kernel, by decide +kernel, by decide +kernel, by decide +kernel⟩,
   ⟨st { puts base [(0xB100, 1, 2)] with sec := { base.sec with jtag := .debugAccess } }, 0x40BFFFFC, 5,
     by decide +kernel, by decide +kernel, by decide +kernel, by decide +kernel, by decide +kernel, by decide +kernel⟩,
   ⟨st { puts base [(0xB100, 1, 2)] with sec := { base.sec with jtag := .debugAccess } }, 0x10004FFC, 5,
     by decide +kernel, by decide +kernel, by decide +kernel, by decide +kernel⟩,
   ⟨st base, qs, List.replicate 64 1, _, _, _, by decide +kernel, takenBytes (by decide +kernel)⟩⟩

theorem witness_KeysAct :
    (∃ (s : State) (k : Fin 8), s.chip.rdb 0xC002 1 k.val = false ∧ s.chip.rdb 0xA001 2 4 = true) ∧
    (∃ (s : State) (k : Fin 8), s.chip.rdb 0xC002 1 k.val = true ∧ bit k.val s.chip.panel.long = true ∧ s.chip.rdb
      0xA001 2 4 = true) ∧
    (∃ (s : State) (k : Fin 8), oKeysAct_key s.chip k 0) ∧
    (∃ (s : State) (k : Fin 8) (role : Nat), oKeysAct_key s.chip k role ∧ 1 ≤ role ∧ role ≤ 7 ∧ s.chip.rdb 0xC000 1 0
      = false) ∧
    (∃ (s : State) (k : Fin 8) (role : Nat), oKeysAct_key s.chip k role ∧ s.chip.rdb 0xC000 1 0 = true ∧ role = 1) ∧
    (∃ (s : State) (k : Fin 8) (role : Nat), oKeysAct_key s.chip k role ∧ s.chip.rdb 0xC000 1 0 = true ∧ role = 2 ∧
      s.chip.cursorOn = false) ∧
    (∃ (s : State) (k : Fin 8) (role : Nat), oKeysAct_key s.chip k role ∧ s.chip.rdb 0xC000 1 0 = true ∧ role = 3 ∧
      s.chip.cursorOn = false) ∧
    (∃ (s : State) (k : Fin 8) (role : Nat), oKeysAct_key s.chip k role ∧ s.chip.rdb 0xC000 1 0 = true ∧ role = 5 ∧
      s.chip.cursorOn = false) ∧
    (∃ (s : State) (k : Fin 8) (role : Nat), oKeysAct_key s.chip k role ∧ s.chip.rdb 0xC000 1 0 = true ∧ role = 6) ∧
    (∃ (s : State) (k : Fin 8) (role : Nat), oKeysAct_key s.chip k role ∧ s.chip.rdb 0xC000 1 0 = true ∧ role = 7) ∧
    (∃ (s : State) (k : Fin 8) (role : Nat), oKeysAct_key s.chip k role ∧ (role = 0 ∨ (3 ≤ role ∧ role ≤ 6))) ∧
    (∃ (s : State) (k : Fin 8) (role : Nat), oKeysAct_key s.chip k role ∧ role = 2 ∧ s.chip.rdb 0xC000 1 0 = true ∧
      s.chip.cursorOn = false) ∧
    (∃ (s : State) (k : Fin 8) (role : Nat), oKeysAct_key s.chip k role ∧ role = 7 ∧ s.chip.rdb 0xC000 1 0 = true) :=
  ⟨⟨st base, 7, by decide +kernel, by decide +kernel⟩,
   ⟨st ((puts base [(0xC002, 1, 128)]).modPanel fun u => { u with long := 128 }), 7, by decide +kernel,
     by decide +kernel, by decide +kernel⟩,
   ⟨on [(0xC002, 1, 128), (0xC001, 8, 0)], 7, by decide +kernel⟩,
   ⟨on [(0xC002, 1, 128), (0xC001, 8, 7), (0xC000, 1, 0)], 7, 7, by decide +kernel, by decide +kernel,
     by decide +kernel, by decide +kernel⟩,
   ⟨on [(0xC002, 1, 128), (0xC001, 8, 1), (0xC000, 1, 1)], 7, 1, by decide +kernel, by decide +kernel,
     by decide +kernel⟩,
   ⟨on [(0xC002, 1, 128), (0xC001, 8, 2), (0xC000, 1, 1)], 7, 2, by decide +kernel, by decide +kernel,
     by decide +kernel, by decide +kernel⟩,
   ⟨on [(0xC002, 1, 128), (0xC001, 8, 3), (0xC000, 1, 1)], 7, 3, by decide +kernel, by decide +kernel,
     by decide +kernel, by decide +kernel⟩,
   ⟨on [(0xC002, 1, 128), (0xC001, 8, 5), (0xC000, 1, 1)], 7, 5, by decide +kernel, by decide +kernel,
     by decide +kernel, by decide +kernel⟩,
   ⟨on [(0xC002, 1, 128), (0xC001, 8, 6), (0xC000, 1, 1)], 7, 6, by decide +kernel, by decide +kernel,
     by decide +kernel⟩,
   ⟨on [(0xC002, 1, 128), (0xC001, 8, 7), (0xC000, 1, 1)], 7, 7, by decide +kernel, by decide +kernel,
     by decide +kernel⟩,
   ⟨on [(0xC002, 1, 128), (0xC001, 8, 6)], 7, 6, by decide +kernel, by decide +kernel⟩,
   ⟨on [(0xC002, 1, 128), (0xC001, 8, 2), (0xC000, 1, 1)], 7, 2, by decide +kernel, by decide +kernel,
     by decide +kernel, by decide +kernel⟩,
   ⟨on [(0xC002, 1, 128), (0xC001, 8, 7), (0xC000, 1, 1)], 7, 7, by decide +kernel, by decide +kernel,
     by decide +kernel⟩⟩

theorem witness_InternalAccessesAreJudged :
    (∃ (s : State) (m : Fin 29) (_ : AccessKind) (_ _ : Nat), oInternalAccessesAreJudged_there s.chip m.val ∧ ¬
      oInternalAccessesAreJudged_plain m.val) ∧
    (∃ (s : State) (m : Fin 29) (_ : AccessKind) (_ _ : Nat), oInternalAccessesAreJudged_there s.chip m.val ∧ ¬
      oInternalAccessesAreJudged_plain m.val) ∧
    (∃ (s : State) (m : Fin 29) (_ : AccessKind) (addr _ : Nat), oInternalAccessesAreJudged_there s.chip m.val ∧
      oInternalAccessesAreJudged_plain m.val ∧ areaOf s.chip.grade (addr % 2 ^ 32) = none) ∧
    (∃ (s : State) (m : Fin 29) (_ : AccessKind) (addr _ : Nat) (r : Area), oInternalAccessesAreJudged_there s.chip
      m.val ∧ oInternalAccessesAreJudged_plain m.val ∧ areaOf s.chip.grade (addr % 2 ^ 32) = some r ∧
      oInternalAccessesAreJudged_sleeps s.chip r = true ∧ oInternalAccessesAreJudged_wakes s.chip m.val = false) ∧
    (∃ (s : State) (m : Fin 29) (k : AccessKind) (addr _ : Nat) (r : Area), oInternalAccessesAreJudged_there s.chip
      m.val ∧ oInternalAccessesAreJudged_plain m.val ∧ areaOf s.chip.grade (addr % 2 ^ 32) = some r ∧
      (oInternalAccessesAreJudged_sleeps s.chip r = false ∨ oInternalAccessesAreJudged_wakes s.chip m.val = true) ∧
      s.chip.accessMay m.val k r = false) ∧
    (∃ (s : State) (m : Fin 29) (k : AccessKind) (addr _ : Nat) (r : Area), oInternalAccessesAreJudged_there s.chip
      m.val ∧ oInternalAccessesAreJudged_plain m.val ∧ areaOf s.chip.grade (addr % 2 ^ 32) = some r ∧
      (oInternalAccessesAreJudged_sleeps s.chip r = false ∨ oInternalAccessesAreJudged_wakes s.chip m.val = true) ∧
      s.chip.accessMay m.val k r = false) ∧
    (∃ (s : State) (m : Fin 29) (k : AccessKind) (addr _ : Nat) (r : Area), oInternalAccessesAreJudged_there s.chip
      m.val ∧ oInternalAccessesAreJudged_plain m.val ∧ areaOf s.chip.grade (addr % 2 ^ 32) = some r ∧ s.chip.accessMay
      m.val k r = true ∧ oInternalAccessesAreJudged_sleeps s.chip r = true ∧ oInternalAccessesAreJudged_wakes s.chip
      m.val = true ∧ s.chip.powerState = 0 ∧ s.chip.waking r.dom = false ∧ s.chip.grade.hasDom r.dom = true) ∧
    (∃ (s : State) (m : Fin 29) (k : AccessKind) (addr _ : Nat) (r : Area), oInternalAccessesAreJudged_there s.chip
      m.val ∧ oInternalAccessesAreJudged_plain m.val ∧ areaOf s.chip.grade (addr % 2 ^ 32) = some r ∧ s.chip.accessMay
      m.val k r = true ∧ (r = .trim ∨ r = .security ∨ r = .nv) ∧ k ≠ .write ∧ (∀ p, s.chip.nv.prog = some p → p.page ≠
      (addr % 2 ^ 32 - 0x10000000) / 256) ∧ ¬ (m.val = 0x1C ∧ keyRecord (addr % 2 ^ 32 / 4 * 4) = true)) ∧
    (∃ (s : State) (m : Fin 29) (k : AccessKind) (addr _ : Nat) (r : Area), oInternalAccessesAreJudged_there s.chip
      m.val ∧ oInternalAccessesAreJudged_plain m.val ∧ areaOf s.chip.grade (addr % 2 ^ 32) = some r ∧ s.chip.accessMay
      m.val k r = true ∧ (r = .trim ∨ r = .security ∨ r = .nv) ∧ k ≠ .write ∧ m.val = 0x1C ∧ keyRecord (addr % 2 ^ 32
      / 4 * 4) = true ∧ s.chip.nv.prog = none) ∧
    (∃ (s : State) (m : Fin 29) (k : AccessKind) (addr _ : Nat) (r : Area), oInternalAccessesAreJudged_there s.chip
      m.val ∧ oInternalAccessesAreJudged_plain m.val ∧ areaOf s.chip.grade (addr % 2 ^ 32) = some r ∧ s.chip.accessMay
      m.val k r = true ∧ (r = .trim ∨ r = .security ∨ r = .nv) ∧ k ≠ .write ∧ (∃ p, s.chip.nv.prog = some p ∧ p.page =
      (addr % 2 ^ 32 - 0x10000000) / 256)) ∧
    (∃ (s : State) (m : Fin 29) (k : AccessKind) (addr _ : Nat) (r : Area), oInternalAccessesAreJudged_there s.chip
      m.val ∧ oInternalAccessesAreJudged_plain m.val ∧ areaOf s.chip.grade (addr % 2 ^ 32) = some r ∧ s.chip.accessMay
      m.val k r = true ∧ oInternalAccessesAreJudged_sleeps s.chip r = false ∧ (r = .stewardRam ∨ r = .buffer ∨ r =
      .rings ∨ (∃ n, r = .imem n ∨ r = .dmem n)) ∧ k = .write) ∧
    (∃ (s : State) (m : Fin 29) (k : AccessKind) (addr _ : Nat) (r : Area), oInternalAccessesAreJudged_there s.chip
      m.val ∧ oInternalAccessesAreJudged_plain m.val ∧ areaOf s.chip.grade (addr % 2 ^ 32) = some r ∧ s.chip.accessMay
      m.val k r = true ∧ oInternalAccessesAreJudged_sleeps s.chip r = false ∧ (r = .stewardRam ∨ r = .buffer ∨ r =
      .rings ∨ (∃ n, r = .imem n ∨ r = .dmem n)) ∧ k ≠ .write) ∧
    (∃ (s : State) (m : Fin 29) (k : AccessKind) (addr _ : Nat) (r : Area), oInternalAccessesAreJudged_there s.chip
      m.val ∧ oInternalAccessesAreJudged_plain m.val ∧ areaOf s.chip.grade (addr % 2 ^ 32) = some r ∧ s.chip.accessMay
      m.val k r = true ∧ oInternalAccessesAreJudged_sleeps s.chip r = false ∧ (r = .stewardRam ∨ r = .buffer ∨ r =
      .rings ∨ (∃ n, r = .imem n ∨ r = .dmem n)) ∧ k ≠ .write) :=
  ⟨⟨st base, 17, .write, 0xFFFFFFFF, 0, by decide +kernel, by decide +kernel⟩,
   ⟨st base, 18, .read, 0x200000, 0, by decide +kernel, by decide +kernel⟩,
   ⟨st base, 16, .read, 0xFFFFFFFC, 0, by decide +kernel, by decide +kernel, by decide +kernel⟩,
   ⟨st (base.setDom .port .asleep), 0, .read, 0x66000000, 0, .block .port, by decide +kernel, by decide +kernel,
     by decide +kernel, by decide +kernel, by decide +kernel⟩,
   ⟨st base, 0, .read, 0, 0, .rom, by decide +kernel, by decide +kernel, by decide +kernel, .inl (by decide +kernel),
     by decide +kernel⟩,
   ⟨st (base.setDom .enga .asleep), 16, .write, 0x50000000, 0, .imem 0, by decide +kernel, by decide +kernel,
     by decide +kernel, .inr (by decide +kernel), by decide +kernel⟩,
   ⟨st (base.setDom .port .asleep), 16, .read, 0x66000000, 0, .block .port, by decide +kernel, by decide +kernel,
     by decide +kernel, by decide +kernel, by decide +kernel, by decide +kernel, by decide +kernel, by decide +kernel,
     by decide +kernel⟩,
   ⟨st base, 16, .read, 0x100FFFFF, 0, .nv, by decide +kernel, by decide +kernel, by decide +kernel,
     by decide +kernel, by decide +kernel, by decide +kernel, (fun _ h => nomatch h), by decide +kernel⟩,
   ⟨st base, 28, .read, 0x1000483C, 0, .security, by decide +kernel, by decide +kernel, by decide +kernel,
     by decide +kernel, by decide +kernel, by decide +kernel, by decide +kernel, by decide +kernel, by decide +kernel⟩,
   ⟨st { base with nv := { base.nv with prog := some ⟨4095, [(255, 7)], 2, .refresh⟩ } }, 16, .read, 0x100FFFFC, 0,
     .nv, by decide +kernel, by decide +kernel, by decide +kernel, by decide +kernel, by decide +kernel,
     by decide +kernel, _, rfl, by decide +kernel⟩,
   ⟨st base, 16, .write, 0x1FFFC, 5, .stewardRam, by decide +kernel, by decide +kernel, by decide +kernel,
     by decide +kernel, by decide +kernel, .inl rfl, by decide +kernel⟩,
   ⟨st base, 0, .execute, 0x5000FFFC, 5, .imem 0, by decide +kernel, by decide +kernel, by decide +kernel,
     by decide +kernel, by decide +kernel, .inr (.inr (.inr ⟨_, .inl rfl⟩)), by decide +kernel⟩,
   ⟨st base, 28, .read, 0x5033FFFC, 5, .dmem 3, by decide +kernel, by decide +kernel, by decide +kernel,
     by decide +kernel, by decide +kernel, .inr (.inr (.inr ⟨_, .inr rfl⟩)), by decide +kernel⟩⟩

/-! ### Worked examples of the manual -/

/-- 00, the example after R14: a bound of 1,234,567 ps. -/
theorem test_teb_example : encodeTeb (some 1234567) = 70359 ∧ decodeTeb 70359 = some 1234688 := by decide

/-- 03, the conversion example: pair 1,010 and 2,046, Rm 1,423. -/
theorem test_conversion_example : rawPhase 1010 2046 1423 = 616 ∧ sampleOf (616 - 12) 0x00012C40 = ⟨0x00012C3E, 604⟩ := by decide

/-- 03, the same edge with the nominal codes. -/
theorem test_nominal_codes : rawPhase 1024 2048 1423 = 625 := by decide

/-- 03, the same edge with the feeder cable entered as USER_OFFSET: the floor division of a negative number. -/
theorem test_user_offset : sampleOf (616 - 12 - 28800) 0x00012C40 = ⟨76834, 476⟩ := by decide

/-- 02, the HOLDOFF example: 10 MHz on REF5 with PRE_DIV 10 allows 15 and refuses 16. -/
theorem test_holdoff_example :
    takes (puts base [(0x2005, 2, 10000000000), (0x2005, 5, 10)]) qs 0x2005 4 15 = true ∧
    takes (puts base [(0x2005, 2, 10000000000), (0x2005, 5, 10)]) qs 0x2005 4 16 = false := by decide +kernel

/-- 10, the example of a full pool: Sync of hand 1,000,041 and Announce of hand 1,000,168 with phase 33,000. -/
theorem test_sequence_ids :
    seqIn 7812500 1000041 33000 (-7) = 49537 ∧ seqIn 7812500 1000168 33000 0 = 7556 ∧ dueIn 7812500 1000168 33000 0 = true ∧
    dueIn 7812500 1000167 33000 0 = false := by decide

/-- The device after a command. -/
def after (i : Instr) (c : Chip) : Chip :=
  match exec i (st c) with
  | .next t => t.chip
  | _ => c

/-- A device whose deal of hand 1 has 53,248 ns of processing to do. -/
def dealing (guard drain : Nat) : Chip :=
  { puts base [(0x6000, 1, 7812500), (0x6000, 2, guard), (0x6000, 3, drain)] with
    hand := { base.hand with deal := 0, ends := 7812500, stage := 2, proc := 53248 } }

/-- 09, the deal at full load: it is complete at the deal instant, 80,000 ns after the drain limit. -/
theorem test_deal_example :
    let d := after .dealInstant (dealing 100000 20000)
    d.rd 0x6001 3 = 80000 ∧ d.rd 0x6001 1 = 1 ∧ d.rd 0x6001 5 = 0 ∧ d.hand.stage = 0 := by decide +kernel

/-- 09, the same load with a guard of 20 µs and a drain of 5 µs: a deal overrun. -/
theorem test_deal_overrun :
    let d := after .dealInstant (dealing 20000 5000)
    d.rd 0x6001 5 = 1 ∧ d.hand.stage = 3 := by decide +kernel

/-! ### Requests over QSPI -/

/-- 12, the layout of a plain READ: VERSION, OPCODE, FLAGS, reserved, TRANSACTION_ID, BODY_LENGTH, INDEX, SUB, reserved. -/
theorem test_read_bytes : encodeRequest 7 none (.read 0x6000 1) = [1, 1, 0, 0, 0, 7, 0, 4, 0x60, 0, 1, 0] := by decide

/-- An object that does not exist is refused. -/
theorem test_absent_object : (base.grade.rule 0x0FFF 1).isNone = true := by decide +kernel

/-- The queue's front command is the one that runs. -/
theorem test_step_takes_front :
    step ⟨[.readStatus, .faultTrap], base⟩ = exec .readStatus ⟨[.faultTrap], base⟩ := rfl

/-! ### Package (18) -/

/-- 18, the counts of the supply pins. -/
theorem test_supply_balls : supplyBalls.map ballCount = [3, 4, 20, 4, 4, 2, 2, 2, 2, 2, 44] := by decide +kernel

/-- 18, the ball map: sixteen rows of sixteen, and ball P9. -/
theorem test_ball_map : ballMap.all (fun r => r.2.length == 16) = true ∧ ballAt "P" 8 = some "IRQ_N" := by decide +kernel

/-! ### Ill-formed commands -/

theorem smoke_bytes : (Instr.writePdu 0 [256] false).wf = false := by decide
theorem smoke_tid : (Instr.save ⟨.qspi, none, 65536⟩).wf = false := by decide
theorem smoke_mac : (Instr.save ⟨.eth 0 (2 ^ 48) none, none, 1⟩).wf = false := by decide
theorem smoke_vlan : (Instr.save ⟨.eth 0 1 (some 65536), none, 1⟩).wf = false := by decide
theorem smoke_address : (Instr.save ⟨.udp 0 1 none false (2 ^ 32) 1, none, 1⟩).wf = false := by decide
theorem smoke_tag : (Instr.save ⟨.qspi, some ⟨1, 1, 2 ^ 128⟩, 1⟩).wf = false := by decide
theorem smoke_items : (Instr.multiRead qs []).wf = false := by decide
theorem smoke_index : (Instr.read qs 65536 0).wf = false := by decide
theorem smoke_code : (Instr.conversionComplete 0 ⟨128, 0⟩).wf = false := by decide
theorem smoke_signed : (Instr.timeStep qs (2 ^ 63)).wf = false := by decide
theorem smoke_ring : (Instr.conversionComplete 0 ⟨40, 33⟩).wf = false ∧ (Instr.conversionComplete 0 ⟨0, 1⟩).wf = false := by decide
theorem smoke_peer : (Instr.save ⟨.qspi, some ⟨2 ^ 32, 1, 1⟩, 1⟩).wf = false ∧ (Instr.save ⟨.qspi, some ⟨1, 2 ^ 32, 1⟩, 1⟩).wf = false := by decide
theorem smoke_port : (Instr.save ⟨.udp 0 1 none true 1 65536, none, 1⟩).wf = false ∧ (Instr.save ⟨.udp 0 1 none true (2 ^ 128) 1, none, 1⟩).wf = false := by decide
theorem smoke_post : (Instr.postComplete 0 false 65536 0 0 0).wf = false ∧ (Instr.postComplete 0 false 0 0 0 2048).wf = false := by decide +kernel
theorem smoke_period : (Instr.rcPeriodMeasure 0).wf = false := by decide
theorem smoke_window : (Instr.apllLockWindowEnd (2 ^ 32)).wf = false := by decide
theorem smoke_access : (Instr.internalAccess 0 .read (2 ^ 32) 0).wf = false := by decide
theorem smoke_write : (Instr.write qs 0 256 0 []).wf = false ∧ (Instr.write qs 0 0 256 []).wf = false := by decide
theorem smoke_segments : (Instr.segReadNext qs 256 0 0).wf = false ∧ (Instr.segWriteInit qs 0 0 0 (2 ^ 32)).wf = false ∧
    (Instr.segWriteNext qs 0 false 65536 []).wf = false ∧ (Instr.abort qs 0 0 0 (2 ^ 32) 0).wf = false := by decide
theorem smoke_key : (Instr.fwKeyWrite qs (List.replicate 33 0)).wf = false ∧ (Instr.response qs [256]).wf = false := by decide
theorem smoke_master : (Instr.faultAssertion 0 0 0 (some ⟨29, 0, 0⟩)).wf = false := by decide
theorem smoke_margin : (Instr.marginScanComplete 0 256 0).wf = false := by decide

end Sys2Proof.Tests
end

section
/-!
PROOF. Bounds "encoded as R14" (00 R13, R14): the exponent search is a search through the exponents in rising order, so what it finds
is the least that fits; the mantissa it gives fits a TEB18 and is read back from it.
-/

namespace Sys2Proof.Machine

/-! ### Rounding up -/

theorem ceilDiv_of_pos (a : Nat) {b : Nat} (hb : 0 < b) : ceilDiv a b = (a + b - 1) / b := if_neg (Nat.ne_of_gt hb)

theorem ceilDiv_zero_left {b : Nat} (hb : 0 < b) : ceilDiv 0 b = 0 := by
  rw [ceilDiv_of_pos 0 hb]
  exact Nat.div_eq_of_lt (by omega)

/-- A quotient rounded up is never too small. -/
theorem le_ceilDiv_mul (v : Nat) {b : Nat} (hb : 0 < b) : v ≤ ceilDiv v b * b := by
  have h : v + b - 1 < b * ((v + b - 1) / b + 1) := Nat.lt_mul_div_succ _ hb
  rw [Nat.mul_add, Nat.mul_one, Nat.mul_comm, ← ceilDiv_of_pos v hb] at h
  omega

theorem ceilDiv_pos {v b : Nat} (hv : 0 < v) (hb : 0 < b) : 0 < ceilDiv v b :=
  Nat.pos_of_mul_pos_right (Nat.lt_of_lt_of_le hv (le_ceilDiv_mul v hb))

/-! ### The exponent and the mantissa -/

theorem tebExp_eq_find? (lim v fuel e : Nat) :
    tebExp lim v fuel e = (List.range' e (fuel + 1)).find? (fun x => decide (ceilDiv v (2 ^ x) ≤ lim)) := by
  induction fuel generalizing e with
  | zero => by_cases h : ceilDiv v (2 ^ e) ≤ lim <;> simp [tebExp, h]
  | succ fuel ih => by_cases h : ceilDiv v (2 ^ e) ≤ lim <;> simp [tebExp, List.range'_succ, h, ih]

/-- The exponent is the least at which the bound, rounded up, fits the limit. -/
theorem tebExp_eq_some {lim v top e : Nat} : tebExp lim v top 0 = some e ↔
    e ≤ top ∧ ceilDiv v (2 ^ e) ≤ lim ∧ ∀ f, f < e → lim < ceilDiv v (2 ^ f) := by
  rw [tebExp_eq_find?, ← List.range_eq_range', List.find?_range_eq_some]
  simp only [decide_eq_true_eq, List.mem_range, Nat.lt_succ_iff, Bool.not_eq_true', decide_eq_false_iff_not, Nat.not_le,
    and_left_comm]

theorem tebExp_eq_none {lim v top : Nat} : tebExp lim v top 0 = none ↔ ∀ e, e ≤ top → lim < ceilDiv v (2 ^ e) := by
  rw [tebExp_eq_find?, ← List.range_eq_range', List.find?_range_eq_none]
  simp only [Nat.lt_succ_iff, Bool.not_eq_true', decide_eq_false_iff_not, Nat.not_le]

/-- Only a bound of 0 rounds up to 0, and it is encoded with the mantissa 1. -/
theorem mantissa_eq (v e : Nat) : max 1 (ceilDiv v (2 ^ e)) = if v = 0 then 1 else ceilDiv v (2 ^ e) := by
  have hb : 0 < 2 ^ e := Nat.two_pow_pos e
  split
  · next h => rw [h, ceilDiv_zero_left hb, Nat.max_eq_left (Nat.zero_le 1)]
  · next h => exact Nat.max_eq_right (ceilDiv_pos (Nat.pos_of_ne_zero h) hb)

theorem encodeBound_eq_some {lim top v e m : Nat} : encodeBound lim top v = some (e, m) ↔
    e ≤ top ∧ ceilDiv v (2 ^ e) ≤ lim ∧ (∀ f, f < e → lim < ceilDiv v (2 ^ f)) ∧
      m = if v = 0 then 1 else ceilDiv v (2 ^ e) := by
  have h : encodeBound lim top v = some (e, m) ↔ tebExp lim v top 0 = some e ∧ m = max 1 (ceilDiv v (2 ^ e)) := by
    unfold encodeBound
    split
    · next x hx =>
      rw [hx, Option.some_inj, Prod.mk.injEq, Option.some_inj]
      constructor <;> (rintro ⟨rfl, h⟩; exact ⟨rfl, h.symm⟩)
    · next hx => simp [hx]
  rw [h, tebExp_eq_some, mantissa_eq, and_assoc, and_assoc]

theorem encodeBound_eq_none {lim top v : Nat} :
    encodeBound lim top v = none ↔ ∀ e, e ≤ top → lim < ceilDiv v (2 ^ e) := by
  rw [← tebExp_eq_none]
  unfold encodeBound
  split <;> simp [*]

/-- An encoded bound is never below the bound, and its mantissa is never 0. -/
theorem encodeBound_upward {lim top v e m : Nat} (h : encodeBound lim top v = some (e, m)) : v ≤ m * 2 ^ e ∧ m ≠ 0 := by
  obtain ⟨-, -, -, rfl⟩ := encodeBound_eq_some.1 h
  rw [← mantissa_eq]
  constructor
  · exact Nat.le_trans (le_ceilDiv_mul v (Nat.two_pow_pos e)) (Nat.mul_le_mul_right _ (Nat.le_max_right _ _))
  · omega

/-! ### TEB18 -/

/-- What R14 encodes fits the fields of a TEB18: the exponent is not the one that means unknown. -/
theorem encodeBound_fits_teb {v e m : Nat} (h : encodeBound 8191 30 v = some (e, m)) : e ≤ 30 ∧ 0 < m ∧ m ≤ 8191 := by
  obtain ⟨he, hfit, -, rfl⟩ := encodeBound_eq_some.1 h
  rw [← mantissa_eq]
  omega

theorem encodeTeb_of_some {v e m : Nat} (h : encodeBound 8191 30 v = some (e, m)) : encodeTeb (some v) = e * 8192 + m := by
  simp [encodeTeb, h]

theorem encodeTeb_of_none {v : Nat} (h : encodeBound 8191 30 v = none) : encodeTeb (some v) = 0x3FFFF := by
  simp [encodeTeb, h]

theorem exponent_teb {e m : Nat} (he : e ≤ 31) (hm : m ≤ 8191) : field 17 13 (e * 8192 + m) = e := by
  unfold field
  omega

theorem mantissa_teb {e m : Nat} (hm : m ≤ 8191) : field 12 0 (e * 8192 + m) = m := by
  unfold field
  omega

theorem decodeTeb_of_fields {e m : Nat} (he : e ≤ 30) (hm0 : 0 < m) (hm : m ≤ 8191) :
    decodeTeb (e * 8192 + m) = some (m * 2 ^ e) := by
  have hknown : ¬ (e = 31 ∨ m = 0) := by omega
  simp only [decodeTeb, exponent_teb (by omega : e ≤ 31) hm, mantissa_teb hm, if_neg hknown]

theorem decodeTeb_of_mantissa_zero {t : Nat} (h : field 12 0 t = 0) : decodeTeb t = none := by
  simp [decodeTeb, h]

/-- The device never produces a mantissa of 0. -/
theorem mantissa_encodeTeb_ne_zero (v : Option Nat) : field 12 0 (encodeTeb v) ≠ 0 := by
  have hunknown : field 12 0 0x3FFFF ≠ 0 := by decide
  cases v with
  | none => exact hunknown
  | some b =>
    cases h : encodeBound 8191 30 b with
    | none => rwa [encodeTeb_of_none h]
    | some p =>
      obtain ⟨-, hm0, hm⟩ := encodeBound_fits_teb h
      rw [encodeTeb_of_some h, mantissa_teb hm]
      exact Nat.ne_of_gt hm0

/-- Settles O5, from what the exponent search finds. -/
theorem boundsAreEncodedUpward : Obligations.BoundsAreEncodedUpward := by
  refine ⟨fun _ _ _ _ _ _ => encodeBound_eq_some, fun _ _ _ => encodeBound_eq_none, fun _ _ _ _ _ => encodeBound_upward,
    fun v e m h => ?_, fun _ => encodeTeb_of_none, rfl, mantissa_encodeTeb_ne_zero, fun _ => decodeTeb_of_mantissa_zero⟩
  obtain ⟨he, hm0, hm⟩ := encodeBound_fits_teb h
  rw [encodeTeb_of_some h]
  exact ⟨rfl, decodeTeb_of_fields he hm0 hm⟩

end Sys2Proof.Machine
end

section
/-!
PROOF. UNIT_PRESENCE (00 R3) and the grade: the rows of 0x1020, what a request for a CONST subindex meets, and that the fuses which
give the grade are kept by every step (log 46).
-/

namespace Sys2Proof.Machine

/-! ### Writes to constants (12 R311) -/

theorem writeForm_const {c : Chip} {idx sub : Nat} {r : Row} (hrule : c.grade.rule idx sub = some r) (hconst : r.acc = .const)
    (a : Asker) (ty : Nat) (d : List Nat) (whole : Bool) : c.writeForm a idx sub ty d whole = .error readOnly := by
  simp [Chip.writeForm, hrule, hconst]

/-! ### The rows of UNIT_PRESENCE -/

/-- The row of a subindex of UNIT_PRESENCE (00 R3): CONST, in MAST, read by role 0; the last is a U8, the others U32. -/
def presenceRow (sub : Nat) : Row :=
  ⟨0x1020, 1, sub, sub, if sub = 4 then .u8 else .u32, .const, 0, false, .mast, .val 0, 0, [], 0, 0⟩

theorem rule_presence (g : Grade) {sub : Nat} (h1 : 1 ≤ sub) (h4 : sub ≤ 4) : g.rule 0x1020 sub = some (presenceRow sub) := by
  obtain rfl | rfl | rfl | rfl : sub = 1 ∨ sub = 2 ∨ sub = 3 ∨ sub = 4 := by omega
  all_goals rfl

theorem encode_presenceRow (sub v : Nat) : (presenceRow sub).encode v = toBytes (if sub = 4 then 1 else 4) v := by
  by_cases h : sub = 4 <;> simp [Row.encode, Row.bytes, presenceRow, h, Ty.bytes]

theorem readRefusal_presence (c : Chip) (a : Asker) {sub : Nat} (h1 : 1 ≤ sub) (h4 : sub ≤ 4) (whole : Bool) :
    c.readRefusal a 0x1020 sub whole = none := by
  have hnum : ((presenceRow sub).ty == .domain || (presenceRow sub).ty == .str) = false := by
    by_cases h : sub = 4 <;> simp [presenceRow, h]
  simp only [Chip.readRefusal, rule_presence c.grade h1 h4, hnum]
  simp [presenceRow, Chip.readRole, Chip.outOfPower, Chip.gaveUp, Chip.wakeFor]

theorem viewNum_presence (c : Chip) (sub : Nat) : c.viewNum 0x1020 sub = c.grade.presence sub := by
  simp [Chip.viewNum]

theorem readNow_presence (c : Chip) {sub : Nat} (h1 : 1 ≤ sub) (h4 : sub ≤ 4) :
    c.readNow 0x1020 sub = (toBytes (if sub = 4 then 1 else 4) (c.grade.presence sub), c) := by
  have hsub : sub ≠ 0 := by omega
  simp [Chip.readNow, rule_presence c.grade h1 h4, Chip.readOut, hsub, encode_presenceRow, viewNum_presence]

/-! ### The grade is kept -/

@[simp] theorem Chip.after_grade (c : Chip) (f : Chip → Chip) : (c.after f).grade = c.grade := by
  rw [Chip.after, Chip.keep_grade]

@[simp] theorem Chip.idle_grade (c : Chip) : c.idle.grade = c.grade := by
  unfold Chip.idle
  dsimp only
  split
  · exact Chip.keep_grade _ _
  · exact Chip.after_grade _ _

/-- Every command is an effect on the device, after which every unit follows. -/
theorem exec_eq_act (i : Instr) (s : State) : ∃ f, exec i s = s.act f := by
  cases i <;> exact ⟨_, rfl⟩

theorem step_grade {s t : State} (h : step s = .next t) : t.chip.grade = s.chip.grade := by
  unfold step at h
  split at h
  · rw [← Host.Outcome.next.inj h, Chip.idle_grade]
  · next i rest hp =>
    obtain ⟨f, hf⟩ := exec_eq_act i { s with pending := rest }
    rw [hf, State.act_eq] at h
    rw [← Host.Outcome.next.inj h, Chip.after_grade]

/-- Settles O6, from the rows of 0x1020 and from what every command keeps. -/
theorem unitPresenceIsConst : Obligations.UnitPresenceIsConst := by
  refine ⟨fun c a sub ty d whole h1 h4 => ?_, by decide, by decide, by decide, by decide, fun _ _ => step_grade⟩
  have hrule := rule_presence c.grade h1 h4
  exact ⟨⟨_, hrule, rfl⟩, writeForm_const hrule rfl a ty d whole, readRefusal_presence c a h1 h4 true, readNow_presence c h1 h4⟩

end Sys2Proof.Machine
end
